-- ==== Sys2Proof/Word.lean ====
section
/-! DEFINITION. The words of the Goane and the plain records that travel between its parts: capabilities (R96),
messages (R73), replies (R77), remote requests (R222), claims (R244). Widths are those the spec gives; counts,
core numbers and fabric times are natural numbers. -/
namespace Sys2Proof

/-- A general register. -/
abbrev Word := BitVec 64
abbrev Byte := BitVec 8
/-- One 32-bit element of a vector register (R4). -/
abbrev Lane := BitVec 32
/-- A vector register: 32 lanes (R2). -/
abbrev VReg := Vector Lane 32

/-- A capability and its tag (R96, R99). -/
structure Cap where
  tag    : Bool
  rights : BitVec 8
  kind   : BitVec 8
  oid    : BitVec 40
  base   : BitVec 36
  len    : BitVec 36
  deriving DecidableEq, Repr

/-- The null capability (R96). -/
def Cap.null : Cap := ⟨false, 0, 0, 0, 0, 0⟩

/-- A message: the header of R73 and eight payload words. -/
structure Msg where
  host     : Bool
  sl       : Bool
  dlv      : Bool
  rq       : Bool
  u        : Bool
  nw       : BitVec 3
  stripe   : BitVec 20
  deadline : Word
  gen      : BitVec 8
  slotseq  : BitVec 16
  slot     : BitVec 6
  sender   : BitVec 22
  objid    : BitVec 40
  modid    : BitVec 24
  cls      : BitVec 8
  payload  : List Word
  deriving DecidableEq, Repr

/-- Where a message was sent from, as far as its header does not say: another pod and the position there (R232), the
claim store of this device (R260), the completion entry a ring reserved (R297), or a host ring of another device of the
pod (R298). -/
inductive Origin where
  | pod      (pod pos : Nat)
  | device   (pos : Nat)
  | here
  | handler
  | ring     (vf ring ticket : Nat)
  deriving DecidableEq, Repr

/-- A reply, with the status of R78. -/
structure Reply where
  slot    : BitVec 6
  slotseq : BitVec 16
  status  : Nat
  words   : List Word
  deriving DecidableEq, Repr

/-- What kind of access a check is made for (R272's ACC). -/
inductive Acc where
  | load | store | atomic | vload | vstore | cldc | cstc
  deriving DecidableEq, Repr

/-- What a remote request does at its home (R222, R201). -/
inductive ReqOp where
  | load     (size : Nat)
  | loadCap
  | loadTable (rights : BitVec 8)               -- of the object table, through a window with right O (R106)
  | store    (bytes : List Byte)
  | storeCap (c : Cap)
  | amo      (op : BitVec 5) (wide : Bool) (expected operand : Word)
  | barAdd   (n : Nat)
  | barSub   (n : Nat)
  | barArrive
  | barWait
  | barTest                                    -- whether it is complete, for BARANY's scan (R203)
  | barInit (n : Nat)
  | barAbort (n : Nat)
  | barDigest (digest : List Byte)
  | objver
  | check                                      -- the layout check of an object that a push names (R151)
  | read (size : Nat)                          -- an engine's read (R93): bytes and tags
  | write (bytes : List Byte) (tags : List Nat)
  deriving DecidableEq, Repr

/-- A class 2 request (R222): the issuer, its version and layout for the check of R151, the object and the offset; or a
class 3 request of an engine (R217), which AGENT of R275 names: 4 copy unit, 5 matrix engine, 6 media engine, 0 a frame. -/
structure Request where
  rid    : Nat
  core   : Nat            -- the issuing core (COREID bits 21 to 0)
  frame  : Nat
  ctx    : Nat            -- the tenant
  home   : Nat            -- the home core (COREID bits 21 to 0)
  modid  : BitVec 24
  ver    : BitVec 8
  layout : BitVec 16
  agent  : Nat
  oid    : BitVec 40      -- the object's id at the home
  name   : BitVec 40      -- the object's id at the issuer
  off    : Nat
  op     : ReqOp
  acc    : Acc
  returns : Bool          -- the issuer waits for a value
  deriving DecidableEq, Repr

/-- The value a remote request returns (R222). -/
inductive RVal where
  | word (w : Word)
  | cap  (c : Cap)
  | data (bytes : List Byte) (tags : List Nat)   -- an engine's: the tagged granules by their distance from the first byte
  deriving DecidableEq, Repr

/-- A class 1 notice (R223, R279, R286). -/
inductive Notice where
  | noobj | unreachable | unsupported | failed | machine
  | uncorrectable (eval : Word)                  -- for an engine, whose core has the MACHINE event (R286)
  | trap (cause : BitVec 8) (eval : Word)
  deriving DecidableEq, Repr

/-- A claim announcement (R244, R259). -/
structure Announcement where
  group    : Nat
  key      : Word
  value    : Word
  prio     : BitVec 8
  proposer : Nat
  ta       : Nat
  te       : Nat
  members  : List Nat
  mask     : List Nat
  deriving DecidableEq, Repr

/-- An objection on the halyard plane (R249, R254). -/
structure Objection where
  group    : Nat
  key      : Word
  proposer : Nat
  ta       : Nat
  reason   : Nat
  position : Nat
  deriving DecidableEq, Repr

/-- A hardware barrier's place: the scope code of R4, the instance's number at that scope and the id (R88). -/
structure HbarKey where
  sc   : Nat
  inst : Nat
  id   : Nat
  deriving DecidableEq, Repr

/-- An entry of an inter-pod datagram (R233): destination core, far object id, reply binding and message. -/
structure PodEntry where
  dest  : Nat
  oid   : BitVec 40
  reply : Option Reply
  msg   : Msg
  track : Option (Nat × Nat × Nat)    -- core, frame and number of the access it is at the sender
  deriving DecidableEq, Repr

/-- What raises a machine event (R221, R286): a part of the device, the poison of a link, or an uncorrectable error in a register frame, whose
activation the kernel ends. -/
inductive EventSource where
  | part
  | poison
  | frame (f : Nat)
  deriving DecidableEq, Repr

/-- A range of a host's 4,096-byte pages, as a translation answers it (R112). -/
structure PageRange where
  page  : Nat
  count : Nat
  deriving DecidableEq, Repr

/-- The payload of an inter-pod datagram (R233), but for its TAGX. -/
structure Datagram where
  spod    : Nat
  dpod    : Nat
  spos    : Nat
  dpos    : Nat
  seq     : Nat
  ack     : Nat
  entries : List PodEntry
  deriving DecidableEq, Repr

/-- A fabric flit (R219): its header, its data, its CRC, and its tag, which only the fifth of a group has; and of its message
what a poison record names (R221): kind, object and offset. -/
structure Flit where
  cls   : Nat
  first : Bool
  last  : Bool
  hops  : Nat
  gen   : BitVec 8
  src   : Nat
  dst   : Nat
  data  : List Byte
  crc   : Nat
  tag   : List Byte
  kind  : Nat
  oid   : BitVec 40
  off   : Nat
  deriving DecidableEq, Repr

/-- A record of the poison list (R221). -/
structure Poison where
  group : Nat
  port  : Nat
  kind  : Nat
  cls   : Nat
  src   : Nat
  ovfl  : Bool
  oid   : BitVec 40
  off   : Nat
  len   : Nat
  deriving DecidableEq, Repr

/-- TDISP requests of the host (R292). -/
inductive TdispReq where
  | lock | start | stop | error
  deriving DecidableEq, Repr

/-- An update of a memory barrier at its home (R201). -/
inductive BarUpd where
  | add (n : Nat)
  | sub (n : Nat)
  | arrive
  | abortArrive (n : Nat)
  | init (n : Nat)
  | err (bit : Nat)
  deriving DecidableEq, Repr

/-- Sign extension of an n-bit value held in a wider pattern to 64 bits (R11). -/
def sext64 {n : Nat} (x : BitVec n) : Word := x.signExtend 64

/-- Zero extension to 64 bits (R11). -/
def zext64 {n : Nat} (x : BitVec n) : Word := x.setWidth 64

/-- The signed status v as a register value. -/
def status (v : Int) : Word := BitVec.ofInt 64 v

/-- The value of a truth value as one bit. -/
def bitOf (b : Bool) : Nat := if b then 1 else 0

end Sys2Proof
end

