-- ==== Sys2Proof/Syntax.lean ====
section
/-! DEFINITION. The syntax of the Goane: one constructor for each row of the opcode table. The first 162 are the
encoded instructions, their arguments the fields of the encoding (R35 to R61) from the highest bits down; the other
112 are the events of the machine, which have no encoding, their arguments what the event brings with it. -/
namespace Sys2Proof

inductive Instr where
  /-- R322. -/
  | add (w : BitVec 1) (b : BitVec 5) (a : BitVec 5) (d : BitVec 5)
  /-- R425. -/
  | sub (w : BitVec 1) (b : BitVec 5) (a : BitVec 5) (d : BitVec 5)
  /-- R394. -/
  | mul (w : BitVec 1) (b : BitVec 5) (a : BitVec 5) (d : BitVec 5)
  /-- R394. -/
  | mulh (w : BitVec 1) (b : BitVec 5) (a : BitVec 5) (d : BitVec 5)
  /-- R394. -/
  | mulhn (w : BitVec 1) (b : BitVec 5) (a : BitVec 5) (d : BitVec 5)
  /-- R362. -/
  | div (w : BitVec 1) (b : BitVec 5) (a : BitVec 5) (d : BitVec 5)
  /-- R362. -/
  | divn (w : BitVec 1) (b : BitVec 5) (a : BitVec 5) (d : BitVec 5)
  /-- R403. -/
  | rem (w : BitVec 1) (b : BitVec 5) (a : BitVec 5) (d : BitVec 5)
  /-- R403. -/
  | remn (w : BitVec 1) (b : BitVec 5) (a : BitVec 5) (d : BitVec 5)
  /-- R332. -/
  | and (w : BitVec 1) (b : BitVec 5) (a : BitVec 5) (d : BitVec 5)
  /-- R397. -/
  | or (w : BitVec 1) (b : BitVec 5) (a : BitVec 5) (d : BitVec 5)
  /-- R448. -/
  | xor (w : BitVec 1) (b : BitVec 5) (a : BitVec 5) (d : BitVec 5)
  /-- R333. -/
  | andn (w : BitVec 1) (b : BitVec 5) (a : BitVec 5) (d : BitVec 5)
  /-- R421. -/
  | shl (w : BitVec 1) (b : BitVec 5) (a : BitVec 5) (d : BitVec 5)
  /-- R421. -/
  | shr (w : BitVec 1) (b : BitVec 5) (a : BitVec 5) (d : BitVec 5)
  /-- R421. -/
  | shra (w : BitVec 1) (b : BitVec 5) (a : BitVec 5) (d : BitVec 5)
  /-- R409. -/
  | rot (w : BitVec 1) (b : BitVec 5) (a : BitVec 5) (d : BitVec 5)
  /-- R376. -/
  | min (w : BitVec 1) (b : BitVec 5) (a : BitVec 5) (d : BitVec 5)
  /-- R376. -/
  | max (w : BitVec 1) (b : BitVec 5) (a : BitVec 5) (d : BitVec 5)
  /-- R376. -/
  | minn (w : BitVec 1) (b : BitVec 5) (a : BitVec 5) (d : BitVec 5)
  /-- R376. -/
  | maxn (w : BitVec 1) (b : BitVec 5) (a : BitVec 5) (d : BitVec 5)
  /-- R419. -/
  | slt (w : BitVec 1) (b : BitVec 5) (a : BitVec 5) (d : BitVec 5)
  /-- R419. -/
  | sltn (w : BitVec 1) (b : BitVec 5) (a : BitVec 5) (d : BitVec 5)
  /-- R419. -/
  | seq (w : BitVec 1) (b : BitVec 5) (a : BitVec 5) (d : BitVec 5)
  /-- R357. -/
  | clz (w : BitVec 1) (a : BitVec 5) (d : BitVec 5)
  /-- R399. -/
  | popc (w : BitVec 1) (a : BitVec 5) (d : BitVec 5)
  /-- R420. -/
  | sext (b : BitVec 5) (a : BitVec 5) (d : BitVec 5)
  /-- R449. -/
  | zext (b : BitVec 5) (a : BitVec 5) (d : BitVec 5)
  /-- R322. -/
  | addImm (i : BitVec 12) (a : BitVec 5) (d : BitVec 5)
  /-- R332. -/
  | andImm (i : BitVec 12) (a : BitVec 5) (d : BitVec 5)
  /-- R397. -/
  | orImm (i : BitVec 12) (a : BitVec 5) (d : BitVec 5)
  /-- R448. -/
  | xorImm (i : BitVec 12) (a : BitVec 5) (d : BitVec 5)
  /-- R419. -/
  | sltImm (i : BitVec 12) (a : BitVec 5) (d : BitVec 5)
  /-- R419. -/
  | sltnImm (i : BitVec 12) (a : BitVec 5) (d : BitVec 5)
  /-- R419. -/
  | seqImm (i : BitVec 12) (a : BitVec 5) (d : BitVec 5)
  /-- R421. -/
  | shlImm (w : BitVec 1) (m : BitVec 6) (a : BitVec 5) (d : BitVec 5)
  /-- R421. -/
  | shrImm (w : BitVec 1) (m : BitVec 6) (a : BitVec 5) (d : BitVec 5)
  /-- R421. -/
  | shraImm (w : BitVec 1) (m : BitVec 6) (a : BitVec 5) (d : BitVec 5)
  /-- R409. -/
  | rotImm (w : BitVec 1) (m : BitVec 6) (a : BitVec 5) (d : BitVec 5)
  /-- R373. -/
  | li (i : BitVec 20) (d : BitVec 5)
  /-- R373. -/
  | lis (i : BitVec 20) (d : BitVec 5)
  /-- R371. -/
  | ld (o : BitVec 10) (s : BitVec 3) (z : BitVec 2) (c : BitVec 4) (d : BitVec 5)
  /-- R371. -/
  | lds (o : BitVec 10) (s : BitVec 3) (z : BitVec 2) (c : BitVec 4) (d : BitVec 5)
  /-- R371. -/
  | ldIndexed (g : BitVec 5) (s : BitVec 3) (z : BitVec 2) (c : BitVec 4) (d : BitVec 5)
  /-- R371. -/
  | ldsIndexed (g : BitVec 5) (s : BitVec 3) (z : BitVec 2) (c : BitVec 4) (d : BitVec 5)
  /-- R423. -/
  | st (o : BitVec 10) (s : BitVec 3) (z : BitVec 2) (c : BitVec 4) (d : BitVec 5)
  /-- R423. -/
  | stx (g : BitVec 5) (s : BitVec 3) (z : BitVec 2) (c : BitVec 4) (d : BitVec 5)
  /-- R343. -/
  | br (o : BitVec 25)
  /-- R345. -/
  | call (o : BitVec 25)
  /-- R339. -/
  | beq (o : BitVec 12) (b : BitVec 5) (a : BitVec 5)
  /-- R339. -/
  | bne (o : BitVec 12) (b : BitVec 5) (a : BitVec 5)
  /-- R339. -/
  | blt (o : BitVec 12) (b : BitVec 5) (a : BitVec 5)
  /-- R339. -/
  | bge (o : BitVec 12) (b : BitVec 5) (a : BitVec 5)
  /-- R339. -/
  | bltn (o : BitVec 12) (b : BitVec 5) (a : BitVec 5)
  /-- R339. -/
  | bgen (o : BitVec 12) (b : BitVec 5) (a : BitVec 5)
  /-- R374. -/
  | loop (o : BitVec 12) (a : BitVec 5)
  /-- R345. -/
  | jr (a : BitVec 5)
  /-- R345. -/
  | callr (a : BitVec 5)
  /-- R408. -/
  | ret (a : BitVec 5)
  /-- R447. -/
  | xcall (i : BitVec 16) (m : BitVec 4)
  /-- R350. -/
  | cmov (a : BitVec 4) (d : BitVec 4)
  /-- R350. -/
  | cinc (b : BitVec 5) (a : BitVec 4) (d : BitVec 4)
  /-- R350. -/
  | cbnd (b : BitVec 5) (a : BitVec 4) (d : BitVec 4)
  /-- R350. -/
  | cperm (b : BitVec 5) (a : BitVec 4) (d : BitVec 4)
  /-- R351. -/
  | cget (s : BitVec 5) (a : BitVec 4) (d : BitVec 5)
  /-- R350. -/
  | ceq (b : BitVec 4) (a : BitVec 4) (d : BitVec 5)
  /-- R353. -/
  | cldc (o : BitVec 10) (s : BitVec 3) (c : BitVec 4) (d : BitVec 4)
  /-- R353. -/
  | cstc (o : BitVec 10) (s : BitVec 3) (c : BitVec 4) (d : BitVec 4)
  /-- R414. -/
  | send (t : BitVec 1) (e : BitVec 1) (q : BitVec 1) (u : BitVec 1) (c : BitVec 8) (n : BitVec 3) (g : BitVec 5) (k : BitVec 4)
  /-- R147. -/
  | minst (x : BitVec 8) (b : BitVec 4) (a : BitVec 4) (d : BitVec 5)
  /-- R158. -/
  | mpurgeSoft (a : BitVec 4) (d : BitVec 5)
  /-- R158. -/
  | mpurgeHard (a : BitVec 4) (d : BitVec 5)
  /-- R145. -/
  | mqry (a : BitVec 4) (d : BitVec 5)
  /-- R154. -/
  | cvtend
  /-- R156. -/
  | objver (a : BitVec 4) (d : BitVec 5)
  /-- R248. -/
  | clprop (p : BitVec 6) (b : BitVec 5) (a : BitVec 5) (d : BitVec 5)
  /-- R249. -/
  | clobj (b : BitVec 5) (a : BitVec 5) (d : BitVec 5)
  /-- R250. -/
  | clwait (a : BitVec 5) (d : BitVec 5)
  /-- R251. -/
  | clread (p : BitVec 6) (a : BitVec 5) (d : BitVec 5)
  /-- R252. -/
  | clgrp (p : BitVec 6) (b : BitVec 5) (a : BitVec 5) (d : BitVec 5)
  /-- R328. -/
  | amo (s : BitVec 3) (n : BitVec 1) (w : BitVec 1) (o : BitVec 5) (b : BitVec 5) (c : BitVec 4) (d : BitVec 5)
  /-- R348. -/
  | cas (s : BitVec 3) (w : BitVec 1) (b : BitVec 5) (c : BitVec 4) (d : BitVec 5)
  /-- R227. -/
  | mcredAdd (t : BitVec 2) (g : BitVec 6) (s : BitVec 4) (c : BitVec 4) (d : BitVec 5)
  /-- R227. -/
  | mcredMax (t : BitVec 2) (g : BitVec 6) (s : BitVec 4) (c : BitVec 4) (d : BitVec 5)
  /-- R227. -/
  | mcredMin (t : BitVec 2) (g : BitVec 6) (s : BitVec 4) (c : BitVec 4) (d : BitVec 5)
  /-- R228. -/
  | mcst (g : BitVec 6) (s : BitVec 4) (c : BitVec 4) (d : BitVec 5)
  /-- R324. -/
  | agset (g : BitVec 6) (s : BitVec 4) (d : BitVec 5)
  /-- R126. -/
  | fence (s : BitVec 3)
  /-- R126. -/
  | fenceAcq (s : BitVec 3)
  /-- R126. -/
  | fenceRel (s : BitVec 3)
  /-- R443. -/
  | waita (e : BitVec 5) (c : BitVec 4) (d : BitVec 5)
  /-- R398. -/
  | pause
  /-- R90. -/
  | hbar (i : BitVec 4) (s : BitVec 3)
  /-- R195. -/
  | qpush (b : BitVec 4) (l : BitVec 5) (d : BitVec 4) (s : BitVec 4)
  /-- R400. -/
  | qpusht (b : BitVec 4) (l : BitVec 5) (d : BitVec 4) (s : BitVec 4)
  /-- R401. -/
  | qgath (k : BitVec 3) (b : BitVec 4) (v : BitVec 5) (d : BitVec 4) (s : BitVec 4)
  /-- R445. -/
  | wmset (n : BitVec 5) (d : BitVec 4)
  /-- R445. -/
  | wmget (n : BitVec 5)
  /-- R203. -/
  | barinit (a : BitVec 5) (c : BitVec 4)
  /-- R335. -/
  | bararr (c : BitVec 4)
  /-- R335. -/
  | barpend (a : BitVec 5) (c : BitVec 4)
  /-- R203. -/
  | barwait (c : BitVec 4) (d : BitVec 5)
  /-- R203. -/
  | barany (m : BitVec 8) (d : BitVec 5)
  /-- R385. -/
  | mmctx (m : BitVec 5)
  /-- R183. -/
  | mmjob (m : BitVec 5) (b : BitVec 4) (a : BitVec 4) (d : BitVec 5)
  /-- R191. -/
  | mmwait (d : BitVec 5)
  /-- R388. -/
  | mmldt (m : BitVec 5) (a : BitVec 4)
  /-- R190. -/
  | mmdrain (m : BitVec 5) (a : BitVec 4)
  /-- R389. -/
  | mmzero (m : BitVec 5)
  /-- R426. -/
  | trap (i : BitVec 16)
  /-- R268. -/
  | eret
  /-- R380. -/
  | mfs (r : BitVec 12) (d : BitVec 5)
  /-- R382. -/
  | mts (r : BitVec 12) (d : BitVec 5)
  /-- R274. -/
  | fresume (d : BitVec 5)
  /-- R411. -/
  | safe (i : BitVec 16)
  /-- R341. -/
  | bkpt
  /-- R367. -/
  | halt
  /-- R395. -/
  | nop32
  /-- R405. -/
  | reply (n : BitVec 3) (g : BitVec 5) (k : BitVec 4)
  /-- R360. -/
  | done32
  /-- R360. -/
  | defer
  /-- R428. -/
  | vadd (t : BitVec 3) (k : BitVec 3) (b : BitVec 5) (a : BitVec 5) (d : BitVec 5)
  /-- R428. -/
  | vsub (t : BitVec 3) (k : BitVec 3) (b : BitVec 5) (a : BitVec 5) (d : BitVec 5)
  /-- R428. -/
  | vmul (t : BitVec 3) (k : BitVec 3) (b : BitVec 5) (a : BitVec 5) (d : BitVec 5)
  /-- R428. -/
  | vmin (t : BitVec 3) (k : BitVec 3) (b : BitVec 5) (a : BitVec 5) (d : BitVec 5)
  /-- R428. -/
  | vmax (t : BitVec 3) (k : BitVec 3) (b : BitVec 5) (a : BitVec 5) (d : BitVec 5)
  /-- R428. -/
  | vand (t : BitVec 3) (k : BitVec 3) (b : BitVec 5) (a : BitVec 5) (d : BitVec 5)
  /-- R428. -/
  | vor (t : BitVec 3) (k : BitVec 3) (b : BitVec 5) (a : BitVec 5) (d : BitVec 5)
  /-- R428. -/
  | vxor (t : BitVec 3) (k : BitVec 3) (b : BitVec 5) (a : BitVec 5) (d : BitVec 5)
  /-- R428. -/
  | vshl (t : BitVec 3) (k : BitVec 3) (b : BitVec 5) (a : BitVec 5) (d : BitVec 5)
  /-- R428. -/
  | vshr (t : BitVec 3) (k : BitVec 3) (b : BitVec 5) (a : BitVec 5) (d : BitVec 5)
  /-- R428. -/
  | vshra (t : BitVec 3) (k : BitVec 3) (b : BitVec 5) (a : BitVec 5) (d : BitVec 5)
  /-- R434. -/
  | vfma (k : BitVec 3) (b : BitVec 5) (a : BitVec 5) (d : BitVec 5)
  /-- R434. -/
  | vfmaNeg (k : BitVec 3) (b : BitVec 5) (a : BitVec 5) (d : BitVec 5)
  /-- R435. -/
  | vfn (f : BitVec 4) (k : BitVec 3) (a : BitVec 5) (d : BitVec 5)
  /-- R430. -/
  | vcmp (f : BitVec 4) (t : BitVec 3) (k : BitVec 3) (b : BitVec 5) (a : BitVec 5) (d : BitVec 3)
  /-- R431. -/
  | vsel (k : BitVec 3) (b : BitVec 5) (a : BitVec 5) (d : BitVec 5)
  /-- R437. -/
  | vld (k : BitVec 3) (z : BitVec 2) (g : BitVec 5) (c : BitVec 4) (d : BitVec 5)
  /-- R437. -/
  | vst (k : BitVec 3) (z : BitVec 2) (g : BitVec 5) (c : BitVec 4) (d : BitVec 5)
  /-- R437. -/
  | vgath (k : BitVec 3) (z : BitVec 2) (i : BitVec 5) (c : BitVec 4) (d : BitVec 5)
  /-- R437. -/
  | vscat (k : BitVec 3) (z : BitVec 2) (i : BitVec 5) (c : BitVec 4) (d : BitVec 5)
  /-- R439. -/
  | vred (f : BitVec 4) (t : BitVec 3) (k : BitVec 3) (a : BitVec 5) (d : BitVec 5)
  /-- R429. -/
  | vbcast (k : BitVec 3) (a : BitVec 5) (d : BitVec 5)
  /-- R429. -/
  | vperm (k : BitVec 3) (b : BitVec 5) (a : BitVec 5) (d : BitVec 5)
  /-- R432. -/
  | vcvt (s : BitVec 1) (t : BitVec 3) (k : BitVec 3) (r : BitVec 2) (u : BitVec 3) (a : BitVec 5) (d : BitVec 5)
  /-- R433. -/
  | vdec (k : BitVec 3) (a : BitVec 5) (d : BitVec 5)
  /-- R433. -/
  | venc (k : BitVec 3) (a : BitVec 5) (d : BitVec 5)
  /-- R391. -/
  | mov (a : BitVec 5) (d : BitVec 5)
  /-- R321. -/
  | add16 (a : BitVec 5) (d : BitVec 5)
  /-- R425. -/
  | sub16 (a : BitVec 5) (d : BitVec 5)
  /-- R321. -/
  | addi16 (i : BitVec 6) (d : BitVec 5)
  /-- R332. -/
  | and16 (a : BitVec 5) (d : BitVec 5)
  /-- R421. -/
  | shli16 (m : BitVec 6) (d : BitVec 5)
  /-- R421. -/
  | shri16 (m : BitVec 6) (d : BitVec 5)
  /-- R370. -/
  | ldD16 (a : BitVec 4) (d : BitVec 5)
  /-- R422. -/
  | stD16 (a : BitVec 4) (d : BitVec 5)
  /-- R342. -/
  | br16 (o : BitVec 11)
  /-- R340. -/
  | bez (o : BitVec 6) (d : BitVec 5)
  /-- R340. -/
  | bnz (o : BitVec 6) (d : BitVec 5)
  /-- R360. -/
  | done
  /-- R395. -/
  | nop
  /-- R407. -/
  | ret16
  /-- R62. -/
  | illegal (eval : Word)
  /-- R267. -/
  | trapEntry (core : Nat)
  /-- R286. -/
  | machineEvent (core : Nat) (source : EventSource) (eval : Word)
  /-- R269. -/
  | trapUpcall (core : Nat)
  /-- R83. -/
  | dispatch (core : Nat) (urgent : Bool)
  /-- R74. -/
  | messageArrival (core : Nat) (m : Msg) (o : Origin)
  /-- R77. -/
  | replyArrival (core : Nat) (r : Reply)
  /-- R78. -/
  | replySlotTimeout (core slot : Nat)
  /-- R85. -/
  | urgentQuotaWindow (core : Nat)
  /-- R85. -/
  | urgentQuotaExhausted (core : Nat)
  /-- R87. -/
  | statelessBalance (core : Nat)
  /-- R80. -/
  | forwardQueuedMessages (ctx : Nat)
  /-- R90. -/
  | hbarEpisodeComplete (b : HbarKey)
  /-- R88. -/
  | hbarEnrolRemove (id pos : Nat)
  /-- R123. -/
  | storeBufferDrain (core : Nat)
  /-- R222. -/
  | remoteRequest (r : Request)
  /-- R124. -/
  | remoteValue (core frame rid : Nat) (v : RVal)
  /-- R124. -/
  | acknowledgement (core frame rid : Nat)
  /-- R223. -/
  | remoteNotice (core frame rid : Nat) (oid : BitVec 40) (n : Notice)
  /-- R112. -/
  | translationCompletion (die pasid : Nat) (range : PageRange) (r w : Bool)
  /-- R112. -/
  | atsInvalidation (pasid page : Nat)
  /-- R116. -/
  | hotRecordInterval (die ctl : Nat)
  /-- R285. -/
  | scrub (lo hi : Nat) (fixed : List Nat)
  /-- R271. -/
  | faultUpcall (core : Nat)
  /-- R276. -/
  | memorySideUpcall (core : Nat)
  /-- R277. -/
  | faultReplay (die index : Nat)
  /-- R278. -/
  | pageRequestRead (core : Nat) (value : Word)
  /-- R278. -/
  | pageRequestWrite (core : Nat) (value : Word)
  /-- R278. -/
  | prgResponse (index code : Nat)
  /-- R278. -/
  | pageRequestUpcall (core : Nat)
  /-- R192. -/
  | requestAccept (core : Nat)
  /-- R196. -/
  | copySector (cluster request sector : Nat)
  /-- R201. -/
  | barrierUpdate (ctx : Nat) (oid : BitVec 40) (off : Nat) (u : BarUpd)
  /-- R208. -/
  | copyBankSelect (cluster : Nat) (bank : Bool)
  /-- R184. -/
  | matrixBankSelect (cluster : Nat) (bank : Bool)
  /-- R209. -/
  | mediaJobAccept (die : Nat)
  /-- R211. -/
  | mediaJobEnd (die job : Nat) (bits recon : List Byte)
  /-- R177. -/
  | matrixJobStart (cluster : Nat)
  /-- R191. -/
  | matrixJobEnd (cluster : Nat)
  /-- R152. -/
  | converterStart (core : Nat)
  /-- R216. -/
  | laneFailure (port : Nat)
  /-- R218. -/
  | linkDown (port : Nat)
  /-- R243. -/
  | declaredUnreachable (pos : Nat)
  /-- R218. -/
  | unreachableClasses (pos : Nat)
  /-- R243. -/
  | halyardIdleFlit (port : Nat)
  /-- R220. -/
  | tagGroupReceive (port : Nat) (flits : List Flit) (fifth : Flit)
  /-- R220. -/
  | tagGroupIdleFill (port : Nat)
  /-- R220. -/
  | linkKeyRollover (port : Nat)
  /-- R221. -/
  | poisonNotice (core : Nat) (p : Poison)
  /-- R231. -/
  | ftimeCorrection (error : Int)
  /-- R257. -/
  | halyardLoss
  /-- R227. -/
  | memberRead (req coll ctx : Nat) (oid : BitVec 40) (base len : Nat)
  /-- R228. -/
  | memberWrite (req coll ctx : Nat) (oid : BitVec 40) (base : Nat) (data : List Byte)
  /-- R227. -/
  | memberValues (coll pos : Nat) (absent : Bool) (data : List Byte)
  /-- R238. -/
  | collectiveTimeout (coll : Nat)
  /-- R227. -/
  | collectiveEnd (coll : Nat)
  /-- R233. -/
  | datagramSend (pod pos count : Nat)
  /-- R233. -/
  | datagramReceive (tagx : List Byte) (d : Datagram)
  /-- R233. -/
  | datagramResend (pod pos seq : Nat)
  /-- R253. -/
  | announcementReceive (a : Announcement)
  /-- R253. -/
  | objectionReceive (o : Objection)
  /-- R255. -/
  | claimResolve (slot : Nat)
  /-- R253. -/
  | claimSlotFree (slot : Nat)
  /-- R280. -/
  | reef (ctx : Nat)
  /-- R281. -/
  | heaveTo (ctx : Nat)
  /-- R280. -/
  | ladderHalt (ctx : Nat)
  /-- R280. -/
  | ladderStopped (ctx : Nat)
  /-- R283. -/
  | strike (ctx : Nat)
  /-- R282. -/
  | restoreFrames (ctx : Nat)
  /-- R307. -/
  | sliceEnd (ctx : Nat)
  /-- R304. -/
  | pausemaxResume (ctx : Nat)
  /-- R398. -/
  | pauseExpiry (core frame : Nat)
  /-- R443. -/
  | waitaTimeout (core frame : Nat)
  /-- R443. -/
  | waitaFullExpiry (core frame : Nat)
  /-- R297. -/
  | ringDoorbell (vf ring tail : Nat)
  /-- R294. -/
  | completionHead (vf ring head : Nat)
  /-- R294. -/
  | ringEnable (vf ring : Nat) (en : Bool)
  /-- R294. -/
  | ringReset (vf ring : Nat) (en : Bool)
  /-- R299. -/
  | ringInterruptEnable (vf ring : Nat) (ie : Bool)
  /-- R294. -/
  | registerWrite (vf offset : Nat) (value : Word)
  /-- R298. -/
  | msg (vf ring : Nat)
  /-- R296. -/
  | pad (vf ring : Nat)
  /-- R298. -/
  | replaymark (vf ring : Nat)
  /-- R298. -/
  | nopPacket (vf ring : Nat)
  /-- R298. -/
  | ringPacketRetry (vf ring : Nat)
  /-- R298. -/
  | replaymarkEffect (vf ring : Nat)
  /-- R298. -/
  | nopFenceComplete (vf ring : Nat)
  /-- R304. -/
  | context (tag addr len : Word)
  /-- R304. -/
  | bind (tag h vf count pasid : Word)
  /-- R304. -/
  | schedule (tag h slice : Word)
  /-- R304. -/
  | pauseContext (tag h : Word)
  /-- R304. -/
  | resume (tag h slice : Word)
  /-- R308. -/
  | evict (tag h addr len : Word)
  /-- R308. -/
  | restore (tag h addr len : Word)
  /-- R309. -/
  | migrateStart (tag h interval addr len : Word)
  /-- R309. -/
  | migrateFinal (tag h addr len : Word)
  /-- R309. -/
  | migrateCancel (tag h : Word)
  /-- R309. -/
  | migrateKeyx (tag h addr len : Word)
  /-- R309. -/
  | migrateSnapshot (ctx : Nat)
  /-- R310. -/
  | teardown (tag h : Word)
  /-- R310. -/
  | teardownRepropose (ctx : Nat)
  /-- R310. -/
  | clusterRelease (ctx : Nat)
  /-- R304. -/
  | query (tag h arg : Word)
  /-- R312. -/
  | getMeasurements (index vf : Nat)
  /-- R313. -/
  | powerOnBoot (pos : Nat)
  /-- R314. -/
  | firmwareImageWrite (img : List Byte)
  /-- R316. -/
  | temperatureThreshold (celsius : Nat)
  /-- R316. -/
  | voltageFault (rail core : Nat)
  /-- R220. -/
  | linkRetrained (port : Nat)
  /-- R292. -/
  | tdispRequest (vf : Nat) (r : TdispReq)
  /-- R292. -/
  | ideKmKeyProg (vf key : Nat)
  /-- R258. -/
  | valueTableCopy (group : Nat) (rows : List (Nat × Word × Word))
  deriving DecidableEq, Repr

end Sys2Proof
end

