-- ==== Sys2Proof/WellFormed.lean ====
section
/-! DEFINITION. The limits on the fields of an instruction that its encoding's layout does not already give: the reserved
values and the register-field limits of R37 to R60 (R62). An event has no encoding and no such limit. -/
namespace Sys2Proof

/-- The fields of i are none that R37 to R60 reserve or exclude. -/
def Instr.wf (i : Instr) : Bool :=
  match i with
  | .add _ _ _ _ => true
  | .sub _ _ _ _ => true
  | .mul _ _ _ _ => true
  | .mulh _ _ _ _ => true
  | .mulhn _ _ _ _ => true
  | .div _ _ _ _ => true
  | .divn _ _ _ _ => true
  | .rem _ _ _ _ => true
  | .remn _ _ _ _ => true
  | .and _ _ _ _ => true
  | .or _ _ _ _ => true
  | .xor _ _ _ _ => true
  | .andn _ _ _ _ => true
  | .shl _ _ _ _ => true
  | .shr _ _ _ _ => true
  | .shra _ _ _ _ => true
  | .rot _ _ _ _ => true
  | .min _ _ _ _ => true
  | .max _ _ _ _ => true
  | .minn _ _ _ _ => true
  | .maxn _ _ _ _ => true
  | .slt _ _ _ _ => true
  | .sltn _ _ _ _ => true
  | .seq _ _ _ _ => true
  | .clz _ _ _ => true
  | .popc _ _ _ => true
  | .sext b _ _ => decide (b.toNat ≤ 2)
  | .zext b _ _ => decide (b.toNat ≤ 2)
  | .addImm _ _ _ => true
  | .andImm _ _ _ => true
  | .orImm _ _ _ => true
  | .xorImm _ _ _ => true
  | .sltImm _ _ _ => true
  | .sltnImm _ _ _ => true
  | .seqImm _ _ _ => true
  | .shlImm w m _ _ => decide (w = 0 ∨ m.toNat < 32)
  | .shrImm w m _ _ => decide (w = 0 ∨ m.toNat < 32)
  | .shraImm w m _ _ => decide (w = 0 ∨ m.toNat < 32)
  | .rotImm w m _ _ => decide (w = 0 ∨ m.toNat < 32)
  | .li _ _ => true
  | .lis _ _ => true
  | .ld _ _ _ _ _ => true
  | .lds _ _ z _ _ => decide (z ≠ 3)
  | .ldIndexed _ _ _ _ _ => true
  | .ldsIndexed _ _ z _ _ => decide (z ≠ 3)
  | .st _ _ _ _ _ => true
  | .stx _ _ _ _ _ => true
  | .br _ => true
  | .call _ => true
  | .beq _ _ _ => true
  | .bne _ _ _ => true
  | .blt _ _ _ => true
  | .bge _ _ _ => true
  | .bltn _ _ _ => true
  | .bgen _ _ _ => true
  | .loop _ _ => true
  | .jr _ => true
  | .callr _ => true
  | .ret _ => true
  | .xcall _ _ => true
  | .cmov _ _ => true
  | .cinc _ _ _ => true
  | .cbnd _ _ _ => true
  | .cperm _ _ _ => true
  | .cget s _ _ => decide (s.toNat ≤ 5)
  | .ceq _ _ _ => true
  | .cldc _ _ _ _ => true
  | .cstc _ _ _ _ => true
  | .send _ _ _ _ _ n g _ => decide (1 ≤ g.toNat ∧ g.toNat + n.toNat ≤ 31)
  | .minst x b _ _ => decide (x.toNat ≤ 2 ∧ (x = 2 → b = 0))
  | .mpurgeSoft _ _ => true
  | .mpurgeHard _ _ => true
  | .mqry _ _ => true
  | .cvtend => true
  | .objver _ _ => true
  | .clprop _ _ _ _ => true
  | .clobj _ _ _ => true
  | .clwait _ _ => true
  | .clread _ _ _ => true
  | .clgrp _ _ _ _ => true
  | .amo _ n w o _ _ d => decide (o.toNat ≤ 12 ∧ (9 ≤ o.toNat → w = 0) ∧ (n = 1 → d = 0))
  | .cas _ _ _ _ _ => true
  | .mcredAdd _ _ _ _ _ => true
  | .mcredMax _ _ _ _ _ => true
  | .mcredMin _ _ _ _ _ => true
  | .mcst _ _ _ _ => true
  | .agset _ _ _ => true
  | .fence s => decide (s ≠ 0)
  | .fenceAcq s => decide (s ≠ 0)
  | .fenceRel s => decide (s ≠ 0)
  | .waita _ _ _ => true
  | .pause => true
  | .hbar _ s => decide (s ≠ 0 ∧ s ≠ 7)
  | .qpush _ _ _ _ => true
  | .qpusht _ _ _ _ => true
  | .qgath _ _ _ _ _ => true
  | .wmset _ _ => true
  | .wmget _ => true
  | .barinit _ _ => true
  | .bararr _ => true
  | .barpend _ _ => true
  | .barwait _ _ => true
  | .barany m _ => decide (m ≠ 0)
  | .mmctx m => decide (m.toNat ≤ 30)
  | .mmjob m b a _ => decide (a.toNat ≤ 14 ∧ b.toNat ≤ 14 ∧ m.toNat ≤ 28)
  | .mmwait _ => true
  | .mmldt _ _ => true
  | .mmdrain _ _ => true
  | .mmzero _ => true
  | .trap _ => true
  | .eret => true
  | .mfs _ _ => true
  | .mts _ _ => true
  | .fresume _ => true
  | .safe _ => true
  | .bkpt => true
  | .halt => true
  | .nop32 => true
  | .reply n g _ => decide (1 ≤ g.toNat ∧ g.toNat + n.toNat ≤ 31)
  | .done32 => true
  | .defer => true
  | .vadd t _ _ _ _ => decide (t.toNat ≤ 2)
  | .vsub t _ _ _ _ => decide (t.toNat ≤ 2)
  | .vmul t _ _ _ _ => decide (t.toNat ≤ 2)
  | .vmin t _ _ _ _ => decide (t.toNat ≤ 2)
  | .vmax t _ _ _ _ => decide (t.toNat ≤ 2)
  | .vand t _ _ _ _ => decide (t = 1 ∨ t = 2)
  | .vor t _ _ _ _ => decide (t = 1 ∨ t = 2)
  | .vxor t _ _ _ _ => decide (t = 1 ∨ t = 2)
  | .vshl t _ _ _ _ => decide (t = 1 ∨ t = 2)
  | .vshr t _ _ _ _ => decide (t = 1 ∨ t = 2)
  | .vshra t _ _ _ _ => decide (t = 1 ∨ t = 2)
  | .vfma _ _ _ _ => true
  | .vfmaNeg _ _ _ _ => true
  | .vfn f _ _ _ => decide (f.toNat ≤ 6)
  | .vcmp f t _ _ _ d => decide (f.toNat ≤ 5 ∧ t.toNat ≤ 2 ∧ d ≠ 0)
  | .vsel _ _ _ _ => true
  | .vld _ z _ _ _ => decide (z ≠ 3)
  | .vst _ z _ _ _ => decide (z ≠ 3)
  | .vgath _ z _ _ _ => decide (z ≠ 3)
  | .vscat _ z _ _ _ => decide (z ≠ 3)
  | .vred f t _ _ _ => decide (f.toNat ≤ 2 ∧ t.toNat ≤ 2)
  | .vbcast _ _ _ => true
  | .vperm _ _ _ _ => true
  | .vcvt s t _ _ u _ _ => decide (s = 1 → u ≠ t)
  | .vdec _ _ _ => true
  | .venc _ _ _ => true
  | .mov _ _ => true
  | .add16 _ _ => true
  | .sub16 _ _ => true
  | .addi16 _ _ => true
  | .and16 _ _ => true
  | .shli16 _ _ => true
  | .shri16 _ _ => true
  | .ldD16 _ _ => true
  | .stD16 _ _ => true
  | .br16 _ => true
  | .bez _ _ => true
  | .bnz _ _ => true
  | .done => true
  | .nop => true
  | .ret16 => true
  | .illegal _ => true
  | .trapEntry _ => true
  | .machineEvent _ _ _ => true
  | .trapUpcall _ => true
  | .dispatch _ _ => true
  | .messageArrival _ _ _ => true
  | .replyArrival _ _ => true
  | .replySlotTimeout _ _ => true
  | .urgentQuotaWindow _ => true
  | .urgentQuotaExhausted _ => true
  | .statelessBalance _ => true
  | .forwardQueuedMessages _ => true
  | .hbarEpisodeComplete _ => true
  | .hbarEnrolRemove _ _ => true
  | .storeBufferDrain _ => true
  | .remoteRequest _ => true
  | .remoteValue _ _ _ _ => true
  | .acknowledgement _ _ _ => true
  | .remoteNotice _ _ _ _ _ => true
  | .translationCompletion _ _ _ _ _ => true
  | .atsInvalidation _ _ => true
  | .hotRecordInterval _ _ => true
  | .scrub _ _ _ => true
  | .faultUpcall _ => true
  | .memorySideUpcall _ => true
  | .faultReplay _ _ => true
  | .pageRequestRead _ _ => true
  | .pageRequestWrite _ _ => true
  | .prgResponse _ _ => true
  | .pageRequestUpcall _ => true
  | .requestAccept _ => true
  | .copySector _ _ _ => true
  | .barrierUpdate _ _ _ _ => true
  | .copyBankSelect _ _ => true
  | .matrixBankSelect _ _ => true
  | .mediaJobAccept _ => true
  | .mediaJobEnd _ _ _ _ => true
  | .matrixJobStart _ => true
  | .matrixJobEnd _ => true
  | .converterStart _ => true
  | .laneFailure _ => true
  | .linkDown _ => true
  | .declaredUnreachable _ => true
  | .unreachableClasses _ => true
  | .halyardIdleFlit _ => true
  | .tagGroupReceive _ _ _ => true
  | .tagGroupIdleFill _ => true
  | .linkKeyRollover _ => true
  | .poisonNotice _ _ => true
  | .ftimeCorrection _ => true
  | .halyardLoss => true
  | .memberRead _ _ _ _ _ _ => true
  | .memberWrite _ _ _ _ _ _ => true
  | .memberValues _ _ _ _ => true
  | .collectiveTimeout _ => true
  | .collectiveEnd _ => true
  | .datagramSend _ _ _ => true
  | .datagramReceive _ _ => true
  | .datagramResend _ _ _ => true
  | .announcementReceive _ => true
  | .objectionReceive _ => true
  | .claimResolve _ => true
  | .claimSlotFree _ => true
  | .reef _ => true
  | .heaveTo _ => true
  | .ladderHalt _ => true
  | .ladderStopped _ => true
  | .strike _ => true
  | .restoreFrames _ => true
  | .sliceEnd _ => true
  | .pausemaxResume _ => true
  | .pauseExpiry _ _ => true
  | .waitaTimeout _ _ => true
  | .waitaFullExpiry _ _ => true
  | .ringDoorbell _ _ _ => true
  | .completionHead _ _ _ => true
  | .ringEnable _ _ _ => true
  | .ringReset _ _ _ => true
  | .ringInterruptEnable _ _ _ => true
  | .registerWrite _ _ _ => true
  | .msg _ _ => true
  | .pad _ _ => true
  | .replaymark _ _ => true
  | .nopPacket _ _ => true
  | .ringPacketRetry _ _ => true
  | .replaymarkEffect _ _ => true
  | .nopFenceComplete _ _ => true
  | .context _ _ _ => true
  | .bind _ _ _ _ _ => true
  | .schedule _ _ _ => true
  | .pauseContext _ _ => true
  | .resume _ _ _ => true
  | .evict _ _ _ _ => true
  | .restore _ _ _ _ => true
  | .migrateStart _ _ _ _ _ => true
  | .migrateFinal _ _ _ _ => true
  | .migrateCancel _ _ => true
  | .migrateKeyx _ _ _ _ => true
  | .migrateSnapshot _ => true
  | .teardown _ _ => true
  | .teardownRepropose _ => true
  | .clusterRelease _ => true
  | .query _ _ _ => true
  | .getMeasurements _ _ => true
  | .powerOnBoot _ => true
  | .firmwareImageWrite _ => true
  | .temperatureThreshold _ => true
  | .voltageFault _ _ => true
  | .linkRetrained _ => true
  | .tdispRequest _ _ => true
  | .ideKmKeyProg _ _ => true
  | .valueTableCopy _ _ => true

end Sys2Proof
end

