-- ==== Sys2Proof/Decode.lean ====
section
/-! DEFINITION. Reading an instruction from its bytes (R32 to R63), and the words of an instruction. A pattern is cut
into the fields of its group's layout, the function is looked up, the zero fields are checked, and last the limits of
WellFormed; every failure has a name. Events have no encoding. -/
namespace Sys2Proof

/-- The checks of R63 up to the register limits, each failure by name. -/
inductive DecodeError where
  | fetch | opcode | function | reserved | limits
  deriving DecidableEq, Repr

/-- Cuts w, from its lowest bit, into fields of the widths ws. -/
def fields : List Nat → Nat → List Nat
  | [], _ => []
  | n :: ns, w => w % 2 ^ n :: fields ns (w / 2 ^ n)

/-- The number whose fields of the widths ws, from the lowest bit, are vs. -/
def join : List Nat → List Nat → Nat
  | n :: ns, v :: vs => v + 2 ^ n * join ns vs
  | _, _ => 0

/-- The layout of the Int group above its 7 opcode bits (R35 to R59). -/
def layInt : List Nat := [5, 5, 5, 6, 1, 3]
/-- The layout of the IntImm group above its 7 opcode bits (R35 to R59). -/
def layIntImm : List Nat := [5, 5, 3, 12]
/-- The layout of the Li group above its 7 opcode bits (R35 to R59). -/
def layLi : List Nat := [5, 20]
/-- The layout of the Lis group above its 7 opcode bits (R35 to R59). -/
def layLis : List Nat := [5, 20]
/-- The layout of the Ld group above its 7 opcode bits (R35 to R59). -/
def layLd : List Nat := [5, 4, 2, 1, 3, 10]
/-- The layout of the Ldx group above its 7 opcode bits (R35 to R59). -/
def layLdx : List Nat := [5, 4, 2, 1, 3, 5, 5]
/-- The layout of the St group above its 7 opcode bits (R35 to R59). -/
def laySt : List Nat := [5, 4, 2, 1, 3, 10]
/-- The layout of the Stx group above its 7 opcode bits (R35 to R59). -/
def layStx : List Nat := [5, 4, 2, 1, 3, 5, 5]
/-- The layout of the Br group above its 7 opcode bits (R35 to R59). -/
def layBr : List Nat := [25]
/-- The layout of the Call group above its 7 opcode bits (R35 to R59). -/
def layCall : List Nat := [25]
/-- The layout of the Bcc group above its 7 opcode bits (R35 to R59). -/
def layBcc : List Nat := [5, 5, 3, 12]
/-- The layout of the Loop group above its 7 opcode bits (R35 to R59). -/
def layLoop : List Nat := [5, 5, 3, 12]
/-- The layout of the Jr group above its 7 opcode bits (R35 to R59). -/
def layJr : List Nat := [5, 5, 5, 10]
/-- The layout of the Xcall group above its 7 opcode bits (R35 to R59). -/
def layXcall : List Nat := [4, 16, 5]
/-- The layout of the Cap group above its 7 opcode bits (R35 to R59). -/
def layCap : List Nat := [5, 5, 5, 10]
/-- The layout of the CapMem group above its 7 opcode bits (R35 to R59). -/
def layCapMem : List Nat := [5, 4, 2, 1, 3, 10]
/-- The layout of the Send group above its 7 opcode bits (R35 to R59). -/
def laySend : List Nat := [4, 5, 3, 8, 1, 1, 1, 1, 1]
/-- The layout of the Mod group above its 7 opcode bits (R35 to R59). -/
def layMod : List Nat := [5, 4, 4, 8, 4]
/-- The layout of the Claim group above its 7 opcode bits (R35 to R59). -/
def layClaim : List Nat := [5, 5, 5, 6, 4]
/-- The layout of the Amo group above its 7 opcode bits (R35 to R59). -/
def layAmo : List Nat := [5, 4, 5, 5, 1, 1, 3, 1]
/-- The layout of the Mc group above its 7 opcode bits (R35 to R59). -/
def layMc : List Nat := [5, 4, 4, 6, 2, 4]
/-- The layout of the Sync group above its 7 opcode bits (R35 to R59). -/
def laySync : List Nat := [3, 2, 4, 5, 7, 4]
/-- The layout of the Que group above its 7 opcode bits (R35 to R59). -/
def layQue : List Nat := [4, 4, 5, 4, 3, 1, 4]
/-- The layout of the Bar group above its 7 opcode bits (R35 to R59). -/
def layBar : List Nat := [5, 4, 4, 1, 7, 4]
/-- The layout of the Mm group above its 7 opcode bits (R35 to R59). -/
def layMm : List Nat := [5, 4, 4, 5, 3, 4]
/-- The layout of the Sys group above its 7 opcode bits (R35 to R59). -/
def laySys : List Nat := [5, 11, 1, 4, 4]
/-- The layout of the Msgx group above its 7 opcode bits (R35 to R59). -/
def layMsgx : List Nat := [4, 5, 3, 9, 4]
/-- The layout of the Valu group above its 7 opcode bits (R35 to R59). -/
def layValu : List Nat := [5, 5, 5, 3, 3, 4]
/-- The layout of the Vfma group above its 7 opcode bits (R35 to R59). -/
def layVfma : List Nat := [5, 5, 5, 3, 3, 4]
/-- The layout of the Vfn group above its 7 opcode bits (R35 to R59). -/
def layVfn : List Nat := [5, 5, 5, 3, 3, 4]
/-- The layout of the Vcmp group above its 7 opcode bits (R35 to R59). -/
def layVcmp : List Nat := [5, 5, 5, 3, 3, 4]
/-- The layout of the Vld group above its 7 opcode bits (R35 to R59). -/
def layVld : List Nat := [5, 4, 5, 2, 3, 1, 5]
/-- The layout of the Vgath group above its 7 opcode bits (R35 to R59). -/
def layVgath : List Nat := [5, 4, 5, 2, 3, 1, 5]
/-- The layout of the Vred group above its 7 opcode bits (R35 to R59). -/
def layVred : List Nat := [5, 5, 5, 3, 3, 4]
/-- The layout of the Vcvt group above its 7 opcode bits (R35 to R59). -/
def layVcvt : List Nat := [5, 5, 5, 3, 3, 4]
/-- The layout of an immediate shift (R38). -/
def layShift : List Nat := [5, 5, 3, 6, 2, 1, 3]
/-- The layout of a 16-bit instruction above its length bit (R60). -/
def lay16 : List Nat := [4, 5, 5, 1]

/-- The shifts of INTI (R38). -/
def decShift : List Nat → Except DecodeError Instr
  | [d, a, _, m, k, w, h] =>
    match k with
    | 0 => if h = 0 then .ok (.shlImm (.ofNat 1 w) (.ofNat 6 m) (.ofNat 5 a) (.ofNat 5 d)) else .error .reserved
    | 1 => if h = 0 then .ok (.shrImm (.ofNat 1 w) (.ofNat 6 m) (.ofNat 5 a) (.ofNat 5 d)) else .error .reserved
    | 2 => if h = 0 then .ok (.shraImm (.ofNat 1 w) (.ofNat 6 m) (.ofNat 5 a) (.ofNat 5 d)) else .error .reserved
    | 3 => if h = 0 then .ok (.rotImm (.ofNat 1 w) (.ofNat 6 m) (.ofNat 5 a) (.ofNat 5 d)) else .error .reserved
    | _ => .error .function
  | _ => .error .reserved

/-- OP 0x01. -/
def decInt : List Nat → Except DecodeError Instr
  | [d, a, b, f, w, z] =>
    match f with
    | 0 => if z = 0 then .ok (.add (.ofNat 1 w) (.ofNat 5 b) (.ofNat 5 a) (.ofNat 5 d)) else .error .reserved
    | 1 => if z = 0 then .ok (.sub (.ofNat 1 w) (.ofNat 5 b) (.ofNat 5 a) (.ofNat 5 d)) else .error .reserved
    | 2 => if z = 0 then .ok (.mul (.ofNat 1 w) (.ofNat 5 b) (.ofNat 5 a) (.ofNat 5 d)) else .error .reserved
    | 3 => if z = 0 then .ok (.mulh (.ofNat 1 w) (.ofNat 5 b) (.ofNat 5 a) (.ofNat 5 d)) else .error .reserved
    | 4 => if z = 0 then .ok (.mulhn (.ofNat 1 w) (.ofNat 5 b) (.ofNat 5 a) (.ofNat 5 d)) else .error .reserved
    | 5 => if z = 0 then .ok (.div (.ofNat 1 w) (.ofNat 5 b) (.ofNat 5 a) (.ofNat 5 d)) else .error .reserved
    | 6 => if z = 0 then .ok (.divn (.ofNat 1 w) (.ofNat 5 b) (.ofNat 5 a) (.ofNat 5 d)) else .error .reserved
    | 7 => if z = 0 then .ok (.rem (.ofNat 1 w) (.ofNat 5 b) (.ofNat 5 a) (.ofNat 5 d)) else .error .reserved
    | 8 => if z = 0 then .ok (.remn (.ofNat 1 w) (.ofNat 5 b) (.ofNat 5 a) (.ofNat 5 d)) else .error .reserved
    | 9 => if z = 0 then .ok (.and (.ofNat 1 w) (.ofNat 5 b) (.ofNat 5 a) (.ofNat 5 d)) else .error .reserved
    | 10 => if z = 0 then .ok (.or (.ofNat 1 w) (.ofNat 5 b) (.ofNat 5 a) (.ofNat 5 d)) else .error .reserved
    | 11 => if z = 0 then .ok (.xor (.ofNat 1 w) (.ofNat 5 b) (.ofNat 5 a) (.ofNat 5 d)) else .error .reserved
    | 12 => if z = 0 then .ok (.andn (.ofNat 1 w) (.ofNat 5 b) (.ofNat 5 a) (.ofNat 5 d)) else .error .reserved
    | 13 => if z = 0 then .ok (.shl (.ofNat 1 w) (.ofNat 5 b) (.ofNat 5 a) (.ofNat 5 d)) else .error .reserved
    | 14 => if z = 0 then .ok (.shr (.ofNat 1 w) (.ofNat 5 b) (.ofNat 5 a) (.ofNat 5 d)) else .error .reserved
    | 15 => if z = 0 then .ok (.shra (.ofNat 1 w) (.ofNat 5 b) (.ofNat 5 a) (.ofNat 5 d)) else .error .reserved
    | 16 => if z = 0 then .ok (.rot (.ofNat 1 w) (.ofNat 5 b) (.ofNat 5 a) (.ofNat 5 d)) else .error .reserved
    | 17 => if z = 0 then .ok (.min (.ofNat 1 w) (.ofNat 5 b) (.ofNat 5 a) (.ofNat 5 d)) else .error .reserved
    | 18 => if z = 0 then .ok (.max (.ofNat 1 w) (.ofNat 5 b) (.ofNat 5 a) (.ofNat 5 d)) else .error .reserved
    | 19 => if z = 0 then .ok (.minn (.ofNat 1 w) (.ofNat 5 b) (.ofNat 5 a) (.ofNat 5 d)) else .error .reserved
    | 20 => if z = 0 then .ok (.maxn (.ofNat 1 w) (.ofNat 5 b) (.ofNat 5 a) (.ofNat 5 d)) else .error .reserved
    | 21 => if z = 0 then .ok (.slt (.ofNat 1 w) (.ofNat 5 b) (.ofNat 5 a) (.ofNat 5 d)) else .error .reserved
    | 22 => if z = 0 then .ok (.sltn (.ofNat 1 w) (.ofNat 5 b) (.ofNat 5 a) (.ofNat 5 d)) else .error .reserved
    | 23 => if z = 0 then .ok (.seq (.ofNat 1 w) (.ofNat 5 b) (.ofNat 5 a) (.ofNat 5 d)) else .error .reserved
    | 24 => if b = 0 ∧ z = 0 then .ok (.clz (.ofNat 1 w) (.ofNat 5 a) (.ofNat 5 d)) else .error .reserved
    | 25 => if b = 0 ∧ z = 0 then .ok (.popc (.ofNat 1 w) (.ofNat 5 a) (.ofNat 5 d)) else .error .reserved
    | 26 => if w = 0 ∧ z = 0 then .ok (.sext (.ofNat 5 b) (.ofNat 5 a) (.ofNat 5 d)) else .error .reserved
    | 27 => if w = 0 ∧ z = 0 then .ok (.zext (.ofNat 5 b) (.ofNat 5 a) (.ofNat 5 d)) else .error .reserved
    | _ => .error .function
  | _ => .error .reserved

/-- OP 0x02. -/
def decIntImm : List Nat → Except DecodeError Instr
  | [d, a, f, i] =>
    match f with
    | 0 => .ok (.addImm (.ofNat 12 i) (.ofNat 5 a) (.ofNat 5 d))
    | 1 => .ok (.andImm (.ofNat 12 i) (.ofNat 5 a) (.ofNat 5 d))
    | 2 => .ok (.orImm (.ofNat 12 i) (.ofNat 5 a) (.ofNat 5 d))
    | 3 => .ok (.xorImm (.ofNat 12 i) (.ofNat 5 a) (.ofNat 5 d))
    | 4 => .ok (.sltImm (.ofNat 12 i) (.ofNat 5 a) (.ofNat 5 d))
    | 5 => .ok (.sltnImm (.ofNat 12 i) (.ofNat 5 a) (.ofNat 5 d))
    | 6 => .ok (.seqImm (.ofNat 12 i) (.ofNat 5 a) (.ofNat 5 d))
    | _ => .error .function
  | _ => .error .reserved

/-- OP 0x03. -/
def decLi : List Nat → Except DecodeError Instr
  | [d, i] =>
    .ok (.li (.ofNat 20 i) (.ofNat 5 d))
  | _ => .error .reserved

/-- OP 0x04. -/
def decLis : List Nat → Except DecodeError Instr
  | [d, i] =>
    .ok (.lis (.ofNat 20 i) (.ofNat 5 d))
  | _ => .error .reserved

/-- OP 0x05. -/
def decLd : List Nat → Except DecodeError Instr
  | [d, c, z, x, s, o] =>
    match x with
    | 0 => .ok (.ld (.ofNat 10 o) (.ofNat 3 s) (.ofNat 2 z) (.ofNat 4 c) (.ofNat 5 d))
    | 1 => .ok (.lds (.ofNat 10 o) (.ofNat 3 s) (.ofNat 2 z) (.ofNat 4 c) (.ofNat 5 d))
    | _ => .error .function
  | _ => .error .reserved

/-- OP 0x06. -/
def decLdx : List Nat → Except DecodeError Instr
  | [d, c, z, x, s, g, h] =>
    match x with
    | 0 => if h = 0 then .ok (.ldIndexed (.ofNat 5 g) (.ofNat 3 s) (.ofNat 2 z) (.ofNat 4 c) (.ofNat 5 d)) else .error .reserved
    | 1 => if h = 0 then .ok (.ldsIndexed (.ofNat 5 g) (.ofNat 3 s) (.ofNat 2 z) (.ofNat 4 c) (.ofNat 5 d)) else .error .reserved
    | _ => .error .function
  | _ => .error .reserved

/-- OP 0x07. -/
def decSt : List Nat → Except DecodeError Instr
  | [d, c, z, x, s, o] =>
    if x = 0 then .ok (.st (.ofNat 10 o) (.ofNat 3 s) (.ofNat 2 z) (.ofNat 4 c) (.ofNat 5 d)) else .error .reserved
  | _ => .error .reserved

/-- OP 0x08. -/
def decStx : List Nat → Except DecodeError Instr
  | [d, c, z, x, s, g, h] =>
    if x = 0 ∧ h = 0 then .ok (.stx (.ofNat 5 g) (.ofNat 3 s) (.ofNat 2 z) (.ofNat 4 c) (.ofNat 5 d)) else .error .reserved
  | _ => .error .reserved

/-- OP 0x09. -/
def decBr : List Nat → Except DecodeError Instr
  | [o] =>
    .ok (.br (.ofNat 25 o))
  | _ => .error .reserved

/-- OP 0x0A. -/
def decCall : List Nat → Except DecodeError Instr
  | [o] =>
    .ok (.call (.ofNat 25 o))
  | _ => .error .reserved

/-- OP 0x0B. -/
def decBcc : List Nat → Except DecodeError Instr
  | [a, b, f, o] =>
    match f with
    | 0 => .ok (.beq (.ofNat 12 o) (.ofNat 5 b) (.ofNat 5 a))
    | 1 => .ok (.bne (.ofNat 12 o) (.ofNat 5 b) (.ofNat 5 a))
    | 2 => .ok (.blt (.ofNat 12 o) (.ofNat 5 b) (.ofNat 5 a))
    | 3 => .ok (.bge (.ofNat 12 o) (.ofNat 5 b) (.ofNat 5 a))
    | 4 => .ok (.bltn (.ofNat 12 o) (.ofNat 5 b) (.ofNat 5 a))
    | 5 => .ok (.bgen (.ofNat 12 o) (.ofNat 5 b) (.ofNat 5 a))
    | _ => .error .function
  | _ => .error .reserved

/-- OP 0x0C. -/
def decLoop : List Nat → Except DecodeError Instr
  | [a, b, f, o] =>
    if b = 0 ∧ f = 0 then .ok (.loop (.ofNat 12 o) (.ofNat 5 a)) else .error .reserved
  | _ => .error .reserved

/-- OP 0x0D. -/
def decJr : List Nat → Except DecodeError Instr
  | [d, a, b, f] =>
    match f with
    | 0 => if d = 0 ∧ b = 0 then .ok (.jr (.ofNat 5 a)) else .error .reserved
    | 1 => if d = 0 ∧ b = 0 then .ok (.callr (.ofNat 5 a)) else .error .reserved
    | 2 => if d = 0 ∧ b = 0 then .ok (.ret (.ofNat 5 a)) else .error .reserved
    | _ => .error .function
  | _ => .error .reserved

/-- OP 0x0E. -/
def decXcall : List Nat → Except DecodeError Instr
  | [m, i, h] =>
    if h = 0 then .ok (.xcall (.ofNat 16 i) (.ofNat 4 m)) else .error .reserved
  | _ => .error .reserved

/-- OP 0x0F. -/
def decCap : List Nat → Except DecodeError Instr
  | [d, a, b, f] =>
    match f with
    | 0 => if d < 16 ∧ a < 16 ∧ b = 0 then .ok (.cmov (.ofNat 4 a) (.ofNat 4 d)) else .error .reserved
    | 1 => if d < 16 ∧ a < 16 then .ok (.cinc (.ofNat 5 b) (.ofNat 4 a) (.ofNat 4 d)) else .error .reserved
    | 2 => if d < 16 ∧ a < 16 then .ok (.cbnd (.ofNat 5 b) (.ofNat 4 a) (.ofNat 4 d)) else .error .reserved
    | 3 => if d < 16 ∧ a < 16 then .ok (.cperm (.ofNat 5 b) (.ofNat 4 a) (.ofNat 4 d)) else .error .reserved
    | 4 => if a < 16 then .ok (.cget (.ofNat 5 b) (.ofNat 4 a) (.ofNat 5 d)) else .error .reserved
    | 5 => if a < 16 ∧ b < 16 then .ok (.ceq (.ofNat 4 b) (.ofNat 4 a) (.ofNat 5 d)) else .error .reserved
    | _ => .error .function
  | _ => .error .reserved

/-- OP 0x10. -/
def decCapMem : List Nat → Except DecodeError Instr
  | [d, c, z, x, s, o] =>
    match x with
    | 0 => if d < 16 ∧ z = 3 then .ok (.cldc (.ofNat 10 o) (.ofNat 3 s) (.ofNat 4 c) (.ofNat 4 d)) else .error .reserved
    | 1 => if d < 16 ∧ z = 3 then .ok (.cstc (.ofNat 10 o) (.ofNat 3 s) (.ofNat 4 c) (.ofNat 4 d)) else .error .reserved
    | _ => .error .function
  | _ => .error .reserved

/-- OP 0x11. -/
def decSend : List Nat → Except DecodeError Instr
  | [k, g, n, c, u, q, e, t, h] =>
    if h = 0 then .ok (.send (.ofNat 1 t) (.ofNat 1 e) (.ofNat 1 q) (.ofNat 1 u) (.ofNat 8 c) (.ofNat 3 n) (.ofNat 5 g) (.ofNat 4 k)) else .error .reserved
  | _ => .error .reserved

/-- OP 0x12. -/
def decMod : List Nat → Except DecodeError Instr
  | [d, a, b, x, f] =>
    match f with
    | 0 => .ok (.minst (.ofNat 8 x) (.ofNat 4 b) (.ofNat 4 a) (.ofNat 5 d))
    | 2 => if b = 0 ∧ x = 0 then .ok (.mqry (.ofNat 4 a) (.ofNat 5 d)) else .error .reserved
    | 3 => if d = 0 ∧ a = 0 ∧ b = 0 ∧ x = 0 then .ok .cvtend else .error .reserved
    | 4 => if b = 0 ∧ x = 0 then .ok (.objver (.ofNat 4 a) (.ofNat 5 d)) else .error .reserved
    | 1 =>
      match x with
      | 0 => if b = 0 then .ok (.mpurgeSoft (.ofNat 4 a) (.ofNat 5 d)) else .error .reserved
      | 1 => if b = 0 then .ok (.mpurgeHard (.ofNat 4 a) (.ofNat 5 d)) else .error .reserved
      | _ => .error .reserved
    | _ => .error .function
  | _ => .error .reserved

/-- OP 0x13. -/
def decClaim : List Nat → Except DecodeError Instr
  | [d, a, b, p, f] =>
    match f with
    | 0 => .ok (.clprop (.ofNat 6 p) (.ofNat 5 b) (.ofNat 5 a) (.ofNat 5 d))
    | 1 => if p = 0 then .ok (.clobj (.ofNat 5 b) (.ofNat 5 a) (.ofNat 5 d)) else .error .reserved
    | 2 => if b = 0 ∧ p = 0 then .ok (.clwait (.ofNat 5 a) (.ofNat 5 d)) else .error .reserved
    | 3 => if b = 0 then .ok (.clread (.ofNat 6 p) (.ofNat 5 a) (.ofNat 5 d)) else .error .reserved
    | 4 => .ok (.clgrp (.ofNat 6 p) (.ofNat 5 b) (.ofNat 5 a) (.ofNat 5 d))
    | _ => .error .function
  | _ => .error .reserved

/-- OP 0x14. -/
def decAmo : List Nat → Except DecodeError Instr
  | [d, c, b, o, w, n, s, h] =>
    if o = 13 then (if n = 0 ∧ h = 0 then .ok (.cas (.ofNat 3 s) (.ofNat 1 w) (.ofNat 5 b) (.ofNat 4 c) (.ofNat 5 d)) else .error .reserved)
    else if h = 0 then .ok (.amo (.ofNat 3 s) (.ofNat 1 n) (.ofNat 1 w) (.ofNat 5 o) (.ofNat 5 b) (.ofNat 4 c) (.ofNat 5 d)) else .error .reserved
  | _ => .error .reserved

/-- OP 0x15. -/
def decMc : List Nat → Except DecodeError Instr
  | [d, c, s, g, t, f] =>
    match f with
    | 0 => .ok (.mcredAdd (.ofNat 2 t) (.ofNat 6 g) (.ofNat 4 s) (.ofNat 4 c) (.ofNat 5 d))
    | 1 => .ok (.mcredMax (.ofNat 2 t) (.ofNat 6 g) (.ofNat 4 s) (.ofNat 4 c) (.ofNat 5 d))
    | 2 => .ok (.mcredMin (.ofNat 2 t) (.ofNat 6 g) (.ofNat 4 s) (.ofNat 4 c) (.ofNat 5 d))
    | 3 => if t = 0 then .ok (.mcst (.ofNat 6 g) (.ofNat 4 s) (.ofNat 4 c) (.ofNat 5 d)) else .error .reserved
    | 4 => if c = 0 ∧ t = 0 then .ok (.agset (.ofNat 6 g) (.ofNat 4 s) (.ofNat 5 d)) else .error .reserved
    | _ => .error .function
  | _ => .error .reserved

/-- OP 0x16. -/
def decSync : List Nat → Except DecodeError Instr
  | [s, k, i, e, h, f] =>
    match f with
    | 0 =>
      match k with
      | 0 => if i = 0 ∧ e = 0 ∧ h = 0 then .ok (.fence (.ofNat 3 s)) else .error .reserved
      | 1 => if i = 0 ∧ e = 0 ∧ h = 0 then .ok (.fenceAcq (.ofNat 3 s)) else .error .reserved
      | 2 => if i = 0 ∧ e = 0 ∧ h = 0 then .ok (.fenceRel (.ofNat 3 s)) else .error .reserved
      | _ => .error .reserved
    | 1 => if h = 0 then .ok (.waita (.ofNat 5 e) (.ofNat 4 i) (.ofNat 5 (s + 8 * k))) else .error .reserved
    | 2 => if s = 0 ∧ k = 0 ∧ i = 0 ∧ e = 0 ∧ h = 0 then .ok .pause else .error .reserved
    | 3 => if k = 0 ∧ e = 0 ∧ h = 0 then .ok (.hbar (.ofNat 4 i) (.ofNat 3 s)) else .error .reserved
    | _ => .error .function
  | _ => .error .reserved

/-- OP 0x17. -/
def decQue : List Nat → Except DecodeError Instr
  | [s, d, l, b, k, h, f] =>
    match f with
    | 0 => if k = 0 ∧ h = 0 then .ok (.qpush (.ofNat 4 b) (.ofNat 5 l) (.ofNat 4 d) (.ofNat 4 s)) else .error .reserved
    | 1 => if k = 0 ∧ h = 0 then .ok (.qpusht (.ofNat 4 b) (.ofNat 5 l) (.ofNat 4 d) (.ofNat 4 s)) else .error .reserved
    | 2 => if h = 0 then .ok (.qgath (.ofNat 3 k) (.ofNat 4 b) (.ofNat 5 l) (.ofNat 4 d) (.ofNat 4 s)) else .error .reserved
    | 3 => if s = 0 ∧ b = 0 ∧ k = 0 ∧ h = 0 then .ok (.wmset (.ofNat 5 l) (.ofNat 4 d)) else .error .reserved
    | 4 => if s = 0 ∧ d = 0 ∧ b = 0 ∧ k = 0 ∧ h = 0 then .ok (.wmget (.ofNat 5 l)) else .error .reserved
    | _ => .error .function
  | _ => .error .reserved

/-- OP 0x18. -/
def decBar : List Nat → Except DecodeError Instr
  | [d, c, a, m, h, f] =>
    match f with
    | 0 => if d = 0 ∧ h = 0 then .ok (.barinit (.ofNat 5 (a + 16 * m)) (.ofNat 4 c)) else .error .reserved
    | 1 => if d = 0 ∧ a = 0 ∧ m = 0 ∧ h = 0 then .ok (.bararr (.ofNat 4 c)) else .error .reserved
    | 2 => if d = 0 ∧ h = 0 then .ok (.barpend (.ofNat 5 (a + 16 * m)) (.ofNat 4 c)) else .error .reserved
    | 3 => if a = 0 ∧ m = 0 ∧ h = 0 then .ok (.barwait (.ofNat 4 c) (.ofNat 5 d)) else .error .reserved
    | 4 => if c = 0 ∧ a = 0 then .ok (.barany (.ofNat 8 (m + 2 * h)) (.ofNat 5 d)) else .error .reserved
    | _ => .error .function
  | _ => .error .reserved

/-- OP 0x19. -/
def decMm : List Nat → Except DecodeError Instr
  | [d, a, b, m, h, f] =>
    match f with
    | 0 => if d = 0 ∧ a = 0 ∧ b = 0 ∧ h = 0 then .ok (.mmctx (.ofNat 5 m)) else .error .reserved
    | 1 => if h = 0 then .ok (.mmjob (.ofNat 5 m) (.ofNat 4 b) (.ofNat 4 a) (.ofNat 5 d)) else .error .reserved
    | 2 => if a = 0 ∧ b = 0 ∧ m = 0 ∧ h = 0 then .ok (.mmwait (.ofNat 5 d)) else .error .reserved
    | 3 => if d = 0 ∧ b = 0 ∧ h = 0 then .ok (.mmldt (.ofNat 5 m) (.ofNat 4 a)) else .error .reserved
    | 4 => if d = 0 ∧ b = 0 ∧ h = 0 then .ok (.mmdrain (.ofNat 5 m) (.ofNat 4 a)) else .error .reserved
    | 5 => if d = 0 ∧ a = 0 ∧ b = 0 ∧ h = 0 then .ok (.mmzero (.ofNat 5 m)) else .error .reserved
    | _ => .error .function
  | _ => .error .reserved

/-- OP 0x1A. -/
def decSys : List Nat → Except DecodeError Instr
  | [d, i, h, j, f] =>
    match f with
    | 0 => if h = 0 ∧ j = 0 then .ok (.trap (.ofNat 16 (d + 32 * i))) else .error .reserved
    | 1 => if d = 0 ∧ i = 0 ∧ h = 0 ∧ j = 0 then .ok .eret else .error .reserved
    | 2 => if j = 0 then .ok (.mfs (.ofNat 12 (i + 2048 * h)) (.ofNat 5 d)) else .error .reserved
    | 3 => if j = 0 then .ok (.mts (.ofNat 12 (i + 2048 * h)) (.ofNat 5 d)) else .error .reserved
    | 4 => if i = 0 ∧ h = 0 ∧ j = 0 then .ok (.fresume (.ofNat 5 d)) else .error .reserved
    | 5 => if h = 0 ∧ j = 0 then .ok (.safe (.ofNat 16 (d + 32 * i))) else .error .reserved
    | 6 => if d = 0 ∧ i = 0 ∧ h = 0 ∧ j = 0 then .ok .bkpt else .error .reserved
    | 7 => if d = 0 ∧ i = 0 ∧ h = 0 ∧ j = 0 then .ok .halt else .error .reserved
    | 8 => if d = 0 ∧ i = 0 ∧ h = 0 ∧ j = 0 then .ok .nop32 else .error .reserved
    | _ => .error .function
  | _ => .error .reserved

/-- OP 0x1B. -/
def decMsgx : List Nat → Except DecodeError Instr
  | [k, g, n, h, f] =>
    match f with
    | 0 => if h = 0 then .ok (.reply (.ofNat 3 n) (.ofNat 5 g) (.ofNat 4 k)) else .error .reserved
    | 1 => if k = 0 ∧ g = 0 ∧ n = 0 ∧ h = 0 then .ok .done32 else .error .reserved
    | 2 => if k = 0 ∧ g = 0 ∧ n = 0 ∧ h = 0 then .ok .defer else .error .reserved
    | _ => .error .function
  | _ => .error .reserved

/-- OP 0x20. -/
def decValu : List Nat → Except DecodeError Instr
  | [d, a, b, k, t, f] =>
    match f with
    | 0 => .ok (.vadd (.ofNat 3 t) (.ofNat 3 k) (.ofNat 5 b) (.ofNat 5 a) (.ofNat 5 d))
    | 1 => .ok (.vsub (.ofNat 3 t) (.ofNat 3 k) (.ofNat 5 b) (.ofNat 5 a) (.ofNat 5 d))
    | 2 => .ok (.vmul (.ofNat 3 t) (.ofNat 3 k) (.ofNat 5 b) (.ofNat 5 a) (.ofNat 5 d))
    | 3 => .ok (.vmin (.ofNat 3 t) (.ofNat 3 k) (.ofNat 5 b) (.ofNat 5 a) (.ofNat 5 d))
    | 4 => .ok (.vmax (.ofNat 3 t) (.ofNat 3 k) (.ofNat 5 b) (.ofNat 5 a) (.ofNat 5 d))
    | 5 => .ok (.vand (.ofNat 3 t) (.ofNat 3 k) (.ofNat 5 b) (.ofNat 5 a) (.ofNat 5 d))
    | 6 => .ok (.vor (.ofNat 3 t) (.ofNat 3 k) (.ofNat 5 b) (.ofNat 5 a) (.ofNat 5 d))
    | 7 => .ok (.vxor (.ofNat 3 t) (.ofNat 3 k) (.ofNat 5 b) (.ofNat 5 a) (.ofNat 5 d))
    | 8 => .ok (.vshl (.ofNat 3 t) (.ofNat 3 k) (.ofNat 5 b) (.ofNat 5 a) (.ofNat 5 d))
    | 9 => .ok (.vshr (.ofNat 3 t) (.ofNat 3 k) (.ofNat 5 b) (.ofNat 5 a) (.ofNat 5 d))
    | 10 => .ok (.vshra (.ofNat 3 t) (.ofNat 3 k) (.ofNat 5 b) (.ofNat 5 a) (.ofNat 5 d))
    | _ => .error .function
  | _ => .error .reserved

/-- OP 0x21. -/
def decVfma : List Nat → Except DecodeError Instr
  | [d, a, b, k, t, f] =>
    match f with
    | 0 => if t = 0 then .ok (.vfma (.ofNat 3 k) (.ofNat 5 b) (.ofNat 5 a) (.ofNat 5 d)) else .error .reserved
    | 1 => if t = 0 then .ok (.vfmaNeg (.ofNat 3 k) (.ofNat 5 b) (.ofNat 5 a) (.ofNat 5 d)) else .error .reserved
    | _ => .error .function
  | _ => .error .reserved

/-- OP 0x22. -/
def decVfn : List Nat → Except DecodeError Instr
  | [d, a, b, k, t, f] =>
    if b = 0 ∧ t = 0 then .ok (.vfn (.ofNat 4 f) (.ofNat 3 k) (.ofNat 5 a) (.ofNat 5 d)) else .error .reserved
  | _ => .error .reserved

/-- OP 0x23. -/
def decVcmp : List Nat → Except DecodeError Instr
  | [d, a, b, k, t, f] =>
    if f = 8 then (if t = 0 then .ok (.vsel (.ofNat 3 k) (.ofNat 5 b) (.ofNat 5 a) (.ofNat 5 d)) else .error .reserved)
    else if d < 8 then .ok (.vcmp (.ofNat 4 f) (.ofNat 3 t) (.ofNat 3 k) (.ofNat 5 b) (.ofNat 5 a) (.ofNat 3 d)) else .error .reserved
  | _ => .error .reserved

/-- OP 0x24. -/
def decVld : List Nat → Except DecodeError Instr
  | [d, c, g, z, k, b, h] =>
    match b with
    | 0 => if h = 0 then .ok (.vld (.ofNat 3 k) (.ofNat 2 z) (.ofNat 5 g) (.ofNat 4 c) (.ofNat 5 d)) else .error .reserved
    | 1 => if h = 0 then .ok (.vst (.ofNat 3 k) (.ofNat 2 z) (.ofNat 5 g) (.ofNat 4 c) (.ofNat 5 d)) else .error .reserved
    | _ => .error .function
  | _ => .error .reserved

/-- OP 0x25. -/
def decVgath : List Nat → Except DecodeError Instr
  | [d, c, i, z, k, b, h] =>
    match b with
    | 0 => if h = 0 then .ok (.vgath (.ofNat 3 k) (.ofNat 2 z) (.ofNat 5 i) (.ofNat 4 c) (.ofNat 5 d)) else .error .reserved
    | 1 => if h = 0 then .ok (.vscat (.ofNat 3 k) (.ofNat 2 z) (.ofNat 5 i) (.ofNat 4 c) (.ofNat 5 d)) else .error .reserved
    | _ => .error .function
  | _ => .error .reserved

/-- OP 0x26. -/
def decVred : List Nat → Except DecodeError Instr
  | [d, a, b, k, t, f] =>
    match f with
    | 4 => if b = 0 ∧ t = 0 then .ok (.vbcast (.ofNat 3 k) (.ofNat 5 a) (.ofNat 5 d)) else .error .reserved
    | 5 => if t = 0 then .ok (.vperm (.ofNat 3 k) (.ofNat 5 b) (.ofNat 5 a) (.ofNat 5 d)) else .error .reserved
    | _ => if b = 0 then .ok (.vred (.ofNat 4 f) (.ofNat 3 t) (.ofNat 3 k) (.ofNat 5 a) (.ofNat 5 d)) else .error .reserved
  | _ => .error .reserved

/-- OP 0x27. -/
def decVcvt : List Nat → Except DecodeError Instr
  | [d, a, b, k, t, f] =>
    match f with
    | 1 => if b = 0 ∧ t = 0 then .ok (.vdec (.ofNat 3 k) (.ofNat 5 a) (.ofNat 5 d)) else .error .reserved
    | 2 => if b = 0 ∧ t = 0 then .ok (.venc (.ofNat 3 k) (.ofNat 5 a) (.ofNat 5 d)) else .error .reserved
    | _ => if f % 8 = 0 then .ok (.vcvt (.ofNat 1 (f / 8)) (.ofNat 3 t) (.ofNat 3 k) (.ofNat 2 (b / 8)) (.ofNat 3 (b % 8)) (.ofNat 5 a) (.ofNat 5 d)) else .error .reserved
  | _ => .error .reserved

/-- The 16-bit forms (R60). -/
def dec16 : List Nat → Except DecodeError Instr
  | [p, d, a, x] =>
    match p with
    | 1 => if x = 0 then .ok (.mov (.ofNat 5 a) (.ofNat 5 d)) else .error .reserved
    | 2 => if x = 0 then .ok (.add16 (.ofNat 5 a) (.ofNat 5 d)) else .error .reserved
    | 3 => if x = 0 then .ok (.sub16 (.ofNat 5 a) (.ofNat 5 d)) else .error .reserved
    | 4 => .ok (.addi16 (.ofNat 6 (a + 32 * x)) (.ofNat 5 d))
    | 5 => if x = 0 then .ok (.and16 (.ofNat 5 a) (.ofNat 5 d)) else .error .reserved
    | 6 => .ok (.shli16 (.ofNat 6 (a + 32 * x)) (.ofNat 5 d))
    | 7 => .ok (.shri16 (.ofNat 6 (a + 32 * x)) (.ofNat 5 d))
    | 8 => if a < 16 ∧ x = 0 then .ok (.ldD16 (.ofNat 4 a) (.ofNat 5 d)) else .error .reserved
    | 9 => if a < 16 ∧ x = 0 then .ok (.stD16 (.ofNat 4 a) (.ofNat 5 d)) else .error .reserved
    | 10 => .ok (.br16 (.ofNat 11 (d + 32 * a + 1024 * x)))
    | 11 => .ok (.bez (.ofNat 6 (a + 32 * x)) (.ofNat 5 d))
    | 12 => .ok (.bnz (.ofNat 6 (a + 32 * x)) (.ofNat 5 d))
    | 13 =>
      if a = 0 ∧ x = 0 then (match d with
      | 0 => .ok .done
      | 1 => .ok .nop
      | 2 => .ok .ret16
      | _ => .error .reserved) else .error .reserved
    | _ => .error .opcode
  | _ => .error .reserved

/-- The instruction that a 32-bit pattern stands for, before the limits of WellFormed (R36). -/
def raw32 (w : Nat) : Except DecodeError Instr :=
  match w % 128 with
  | 3 => decInt (fields layInt (w / 128))
  | 5 =>
    if w / 131072 % 8 = 7 then decShift (fields layShift (w / 128)) else decIntImm (fields layIntImm (w / 128))
  | 7 => decLi (fields layLi (w / 128))
  | 9 => decLis (fields layLis (w / 128))
  | 11 => decLd (fields layLd (w / 128))
  | 13 => decLdx (fields layLdx (w / 128))
  | 15 => decSt (fields laySt (w / 128))
  | 17 => decStx (fields layStx (w / 128))
  | 19 => decBr (fields layBr (w / 128))
  | 21 => decCall (fields layCall (w / 128))
  | 23 => decBcc (fields layBcc (w / 128))
  | 25 => decLoop (fields layLoop (w / 128))
  | 27 => decJr (fields layJr (w / 128))
  | 29 => decXcall (fields layXcall (w / 128))
  | 31 => decCap (fields layCap (w / 128))
  | 33 => decCapMem (fields layCapMem (w / 128))
  | 35 => decSend (fields laySend (w / 128))
  | 37 => decMod (fields layMod (w / 128))
  | 39 => decClaim (fields layClaim (w / 128))
  | 41 => decAmo (fields layAmo (w / 128))
  | 43 => decMc (fields layMc (w / 128))
  | 45 => decSync (fields laySync (w / 128))
  | 47 => decQue (fields layQue (w / 128))
  | 49 => decBar (fields layBar (w / 128))
  | 51 => decMm (fields layMm (w / 128))
  | 53 => decSys (fields laySys (w / 128))
  | 55 => decMsgx (fields layMsgx (w / 128))
  | 65 => decValu (fields layValu (w / 128))
  | 67 => decVfma (fields layVfma (w / 128))
  | 69 => decVfn (fields layVfn (w / 128))
  | 71 => decVcmp (fields layVcmp (w / 128))
  | 73 => decVld (fields layVld (w / 128))
  | 75 => decVgath (fields layVgath (w / 128))
  | 77 => decVred (fields layVred (w / 128))
  | 79 => decVcvt (fields layVcvt (w / 128))
  | _ => .error .opcode

/-- The instruction that a 16-bit pattern stands for. -/
def raw16 (h : Nat) : Except DecodeError Instr := dec16 (fields lay16 (h / 2))

/-- The last check of R63 before privilege: the register-field limits and the reserved values. -/
def checkWf : Except DecodeError Instr → Except DecodeError Instr
  | .ok i => if i.wf then .ok i else .error .limits
  | .error e => .error e

/-- Decodes a 32-bit pattern. -/
def decode32 (w : Nat) : Except DecodeError Instr := checkWf (raw32 w)

/-- Decodes a 16-bit pattern. -/
def decode16 (h : Nat) : Except DecodeError Instr := checkWf (raw16 h)

/-- The value of bytes, the lowest first (R9). -/
def leNat : List Byte → Nat
  | [] => 0
  | b :: bs => b.toNat + 256 * leNat bs

/-- The n lowest bytes of v, the lowest first (R9). -/
def leBytes : Nat → Nat → List Byte
  | 0, _ => []
  | n + 1, v => BitVec.ofNat 8 v :: leBytes n (v / 256)

/-- An instruction with its length in bytes. -/
def sized (n : Nat) : Except DecodeError Instr → Except DecodeError (Instr × Nat)
  | .ok i => .ok (i, n)
  | .error e => .error e

/-- Decodes the instruction at the head of a code section's bytes: the length bit of the first halfword tells its size
(R32, R33). Answers the instruction and its length in bytes. -/
def decodeBytes (bs : List Byte) : Except DecodeError (Instr × Nat) :=
  match bs with
  | b0 :: b1 :: rest =>
    if b0.toNat % 2 = 0 then
      sized 2 (decode16 (leNat [b0, b1]))
    else
      match rest with
      | b2 :: b3 :: _ =>
        sized 4 (decode32 (leNat [b0, b1, b2, b3]))
      | _ => .error .fetch
  | _ => .error .fetch

/-- What the decoder reads from the table's bits w of an instruction of nbits bits, laid out as stored (R32). -/
def decodeTableWord (nbits w : Nat) : Option Instr :=
  match decodeBytes (leBytes (max 4 (nbits / 8)) w) with
  | .ok (i, _) => some i
  | .error _ => none

/-- An instruction's length in bytes (R32); an event has none. -/
def Instr.size (i : Instr) : Nat :=
  match i with
  | .add _ _ _ _ => 4
  | .sub _ _ _ _ => 4
  | .mul _ _ _ _ => 4
  | .mulh _ _ _ _ => 4
  | .mulhn _ _ _ _ => 4
  | .div _ _ _ _ => 4
  | .divn _ _ _ _ => 4
  | .rem _ _ _ _ => 4
  | .remn _ _ _ _ => 4
  | .and _ _ _ _ => 4
  | .or _ _ _ _ => 4
  | .xor _ _ _ _ => 4
  | .andn _ _ _ _ => 4
  | .shl _ _ _ _ => 4
  | .shr _ _ _ _ => 4
  | .shra _ _ _ _ => 4
  | .rot _ _ _ _ => 4
  | .min _ _ _ _ => 4
  | .max _ _ _ _ => 4
  | .minn _ _ _ _ => 4
  | .maxn _ _ _ _ => 4
  | .slt _ _ _ _ => 4
  | .sltn _ _ _ _ => 4
  | .seq _ _ _ _ => 4
  | .clz _ _ _ => 4
  | .popc _ _ _ => 4
  | .sext _ _ _ => 4
  | .zext _ _ _ => 4
  | .addImm _ _ _ => 4
  | .andImm _ _ _ => 4
  | .orImm _ _ _ => 4
  | .xorImm _ _ _ => 4
  | .sltImm _ _ _ => 4
  | .sltnImm _ _ _ => 4
  | .seqImm _ _ _ => 4
  | .shlImm _ _ _ _ => 4
  | .shrImm _ _ _ _ => 4
  | .shraImm _ _ _ _ => 4
  | .rotImm _ _ _ _ => 4
  | .li _ _ => 4
  | .lis _ _ => 4
  | .ld _ _ _ _ _ => 4
  | .lds _ _ _ _ _ => 4
  | .ldIndexed _ _ _ _ _ => 4
  | .ldsIndexed _ _ _ _ _ => 4
  | .st _ _ _ _ _ => 4
  | .stx _ _ _ _ _ => 4
  | .br _ => 4
  | .call _ => 4
  | .beq _ _ _ => 4
  | .bne _ _ _ => 4
  | .blt _ _ _ => 4
  | .bge _ _ _ => 4
  | .bltn _ _ _ => 4
  | .bgen _ _ _ => 4
  | .loop _ _ => 4
  | .jr _ => 4
  | .callr _ => 4
  | .ret _ => 4
  | .xcall _ _ => 4
  | .cmov _ _ => 4
  | .cinc _ _ _ => 4
  | .cbnd _ _ _ => 4
  | .cperm _ _ _ => 4
  | .cget _ _ _ => 4
  | .ceq _ _ _ => 4
  | .cldc _ _ _ _ => 4
  | .cstc _ _ _ _ => 4
  | .send _ _ _ _ _ _ _ _ => 4
  | .minst _ _ _ _ => 4
  | .mpurgeSoft _ _ => 4
  | .mpurgeHard _ _ => 4
  | .mqry _ _ => 4
  | .cvtend => 4
  | .objver _ _ => 4
  | .clprop _ _ _ _ => 4
  | .clobj _ _ _ => 4
  | .clwait _ _ => 4
  | .clread _ _ _ => 4
  | .clgrp _ _ _ _ => 4
  | .amo _ _ _ _ _ _ _ => 4
  | .cas _ _ _ _ _ => 4
  | .mcredAdd _ _ _ _ _ => 4
  | .mcredMax _ _ _ _ _ => 4
  | .mcredMin _ _ _ _ _ => 4
  | .mcst _ _ _ _ => 4
  | .agset _ _ _ => 4
  | .fence _ => 4
  | .fenceAcq _ => 4
  | .fenceRel _ => 4
  | .waita _ _ _ => 4
  | .pause => 4
  | .hbar _ _ => 4
  | .qpush _ _ _ _ => 4
  | .qpusht _ _ _ _ => 4
  | .qgath _ _ _ _ _ => 4
  | .wmset _ _ => 4
  | .wmget _ => 4
  | .barinit _ _ => 4
  | .bararr _ => 4
  | .barpend _ _ => 4
  | .barwait _ _ => 4
  | .barany _ _ => 4
  | .mmctx _ => 4
  | .mmjob _ _ _ _ => 4
  | .mmwait _ => 4
  | .mmldt _ _ => 4
  | .mmdrain _ _ => 4
  | .mmzero _ => 4
  | .trap _ => 4
  | .eret => 4
  | .mfs _ _ => 4
  | .mts _ _ => 4
  | .fresume _ => 4
  | .safe _ => 4
  | .bkpt => 4
  | .halt => 4
  | .nop32 => 4
  | .reply _ _ _ => 4
  | .done32 => 4
  | .defer => 4
  | .vadd _ _ _ _ _ => 4
  | .vsub _ _ _ _ _ => 4
  | .vmul _ _ _ _ _ => 4
  | .vmin _ _ _ _ _ => 4
  | .vmax _ _ _ _ _ => 4
  | .vand _ _ _ _ _ => 4
  | .vor _ _ _ _ _ => 4
  | .vxor _ _ _ _ _ => 4
  | .vshl _ _ _ _ _ => 4
  | .vshr _ _ _ _ _ => 4
  | .vshra _ _ _ _ _ => 4
  | .vfma _ _ _ _ => 4
  | .vfmaNeg _ _ _ _ => 4
  | .vfn _ _ _ _ => 4
  | .vcmp _ _ _ _ _ _ => 4
  | .vsel _ _ _ _ => 4
  | .vld _ _ _ _ _ => 4
  | .vst _ _ _ _ _ => 4
  | .vgath _ _ _ _ _ => 4
  | .vscat _ _ _ _ _ => 4
  | .vred _ _ _ _ _ => 4
  | .vbcast _ _ _ => 4
  | .vperm _ _ _ _ => 4
  | .vcvt _ _ _ _ _ _ _ => 4
  | .vdec _ _ _ => 4
  | .venc _ _ _ => 4
  | .mov _ _ => 2
  | .add16 _ _ => 2
  | .sub16 _ _ => 2
  | .addi16 _ _ => 2
  | .and16 _ _ => 2
  | .shli16 _ _ => 2
  | .shri16 _ _ => 2
  | .ldD16 _ _ => 2
  | .stD16 _ _ => 2
  | .br16 _ => 2
  | .bez _ _ => 2
  | .bnz _ _ => 2
  | .done => 2
  | .nop => 2
  | .ret16 => 2
  | .illegal _ => 0
  | .trapEntry _ => 0
  | .machineEvent _ _ _ => 0
  | .trapUpcall _ => 0
  | .dispatch _ _ => 0
  | .messageArrival _ _ _ => 0
  | .replyArrival _ _ => 0
  | .replySlotTimeout _ _ => 0
  | .urgentQuotaWindow _ => 0
  | .urgentQuotaExhausted _ => 0
  | .statelessBalance _ => 0
  | .forwardQueuedMessages _ => 0
  | .hbarEpisodeComplete _ => 0
  | .hbarEnrolRemove _ _ => 0
  | .storeBufferDrain _ => 0
  | .remoteRequest _ => 0
  | .remoteValue _ _ _ _ => 0
  | .acknowledgement _ _ _ => 0
  | .remoteNotice _ _ _ _ _ => 0
  | .translationCompletion _ _ _ _ _ => 0
  | .atsInvalidation _ _ => 0
  | .hotRecordInterval _ _ => 0
  | .scrub _ _ _ => 0
  | .faultUpcall _ => 0
  | .memorySideUpcall _ => 0
  | .faultReplay _ _ => 0
  | .pageRequestRead _ _ => 0
  | .pageRequestWrite _ _ => 0
  | .prgResponse _ _ => 0
  | .pageRequestUpcall _ => 0
  | .requestAccept _ => 0
  | .copySector _ _ _ => 0
  | .barrierUpdate _ _ _ _ => 0
  | .copyBankSelect _ _ => 0
  | .matrixBankSelect _ _ => 0
  | .mediaJobAccept _ => 0
  | .mediaJobEnd _ _ _ _ => 0
  | .matrixJobStart _ => 0
  | .matrixJobEnd _ => 0
  | .converterStart _ => 0
  | .laneFailure _ => 0
  | .linkDown _ => 0
  | .declaredUnreachable _ => 0
  | .unreachableClasses _ => 0
  | .halyardIdleFlit _ => 0
  | .tagGroupReceive _ _ _ => 0
  | .tagGroupIdleFill _ => 0
  | .linkKeyRollover _ => 0
  | .poisonNotice _ _ => 0
  | .ftimeCorrection _ => 0
  | .halyardLoss => 0
  | .memberRead _ _ _ _ _ _ => 0
  | .memberWrite _ _ _ _ _ _ => 0
  | .memberValues _ _ _ _ => 0
  | .collectiveTimeout _ => 0
  | .collectiveEnd _ => 0
  | .datagramSend _ _ _ => 0
  | .datagramReceive _ _ => 0
  | .datagramResend _ _ _ => 0
  | .announcementReceive _ => 0
  | .objectionReceive _ => 0
  | .claimResolve _ => 0
  | .claimSlotFree _ => 0
  | .reef _ => 0
  | .heaveTo _ => 0
  | .ladderHalt _ => 0
  | .ladderStopped _ => 0
  | .strike _ => 0
  | .restoreFrames _ => 0
  | .sliceEnd _ => 0
  | .pausemaxResume _ => 0
  | .pauseExpiry _ _ => 0
  | .waitaTimeout _ _ => 0
  | .waitaFullExpiry _ _ => 0
  | .ringDoorbell _ _ _ => 0
  | .completionHead _ _ _ => 0
  | .ringEnable _ _ _ => 0
  | .ringReset _ _ _ => 0
  | .ringInterruptEnable _ _ _ => 0
  | .registerWrite _ _ _ => 0
  | .msg _ _ => 0
  | .pad _ _ => 0
  | .replaymark _ _ => 0
  | .nopPacket _ _ => 0
  | .ringPacketRetry _ _ => 0
  | .replaymarkEffect _ _ => 0
  | .nopFenceComplete _ _ => 0
  | .context _ _ _ => 0
  | .bind _ _ _ _ _ => 0
  | .schedule _ _ _ => 0
  | .pauseContext _ _ => 0
  | .resume _ _ _ => 0
  | .evict _ _ _ _ => 0
  | .restore _ _ _ _ => 0
  | .migrateStart _ _ _ _ _ => 0
  | .migrateFinal _ _ _ _ => 0
  | .migrateCancel _ _ => 0
  | .migrateKeyx _ _ _ _ => 0
  | .migrateSnapshot _ => 0
  | .teardown _ _ => 0
  | .teardownRepropose _ => 0
  | .clusterRelease _ => 0
  | .query _ _ _ => 0
  | .getMeasurements _ _ => 0
  | .powerOnBoot _ => 0
  | .firmwareImageWrite _ => 0
  | .temperatureThreshold _ => 0
  | .voltageFault _ _ => 0
  | .linkRetrained _ => 0
  | .tdispRequest _ _ => 0
  | .ideKmKeyProg _ _ => 0
  | .valueTableCopy _ _ => 0

/-- The word of a 32-bit instruction from its opcode bits and the fields of its layout. -/
def word32 (op : Nat) (ws vs : List Nat) : Nat := op + 128 * join ws vs

/-- The word of a 16-bit instruction from the fields of its layout. -/
def word16 (vs : List Nat) : Nat := 2 * join lay16 vs

/-- The words of an instruction, from the encodings of R35 to R60; an event has none. -/
def encode (i : Instr) : Nat :=
  match i with
  | .add w b a d => word32 3 layInt [d.toNat, a.toNat, b.toNat, 0, w.toNat, 0]
  | .sub w b a d => word32 3 layInt [d.toNat, a.toNat, b.toNat, 1, w.toNat, 0]
  | .mul w b a d => word32 3 layInt [d.toNat, a.toNat, b.toNat, 2, w.toNat, 0]
  | .mulh w b a d => word32 3 layInt [d.toNat, a.toNat, b.toNat, 3, w.toNat, 0]
  | .mulhn w b a d => word32 3 layInt [d.toNat, a.toNat, b.toNat, 4, w.toNat, 0]
  | .div w b a d => word32 3 layInt [d.toNat, a.toNat, b.toNat, 5, w.toNat, 0]
  | .divn w b a d => word32 3 layInt [d.toNat, a.toNat, b.toNat, 6, w.toNat, 0]
  | .rem w b a d => word32 3 layInt [d.toNat, a.toNat, b.toNat, 7, w.toNat, 0]
  | .remn w b a d => word32 3 layInt [d.toNat, a.toNat, b.toNat, 8, w.toNat, 0]
  | .and w b a d => word32 3 layInt [d.toNat, a.toNat, b.toNat, 9, w.toNat, 0]
  | .or w b a d => word32 3 layInt [d.toNat, a.toNat, b.toNat, 10, w.toNat, 0]
  | .xor w b a d => word32 3 layInt [d.toNat, a.toNat, b.toNat, 11, w.toNat, 0]
  | .andn w b a d => word32 3 layInt [d.toNat, a.toNat, b.toNat, 12, w.toNat, 0]
  | .shl w b a d => word32 3 layInt [d.toNat, a.toNat, b.toNat, 13, w.toNat, 0]
  | .shr w b a d => word32 3 layInt [d.toNat, a.toNat, b.toNat, 14, w.toNat, 0]
  | .shra w b a d => word32 3 layInt [d.toNat, a.toNat, b.toNat, 15, w.toNat, 0]
  | .rot w b a d => word32 3 layInt [d.toNat, a.toNat, b.toNat, 16, w.toNat, 0]
  | .min w b a d => word32 3 layInt [d.toNat, a.toNat, b.toNat, 17, w.toNat, 0]
  | .max w b a d => word32 3 layInt [d.toNat, a.toNat, b.toNat, 18, w.toNat, 0]
  | .minn w b a d => word32 3 layInt [d.toNat, a.toNat, b.toNat, 19, w.toNat, 0]
  | .maxn w b a d => word32 3 layInt [d.toNat, a.toNat, b.toNat, 20, w.toNat, 0]
  | .slt w b a d => word32 3 layInt [d.toNat, a.toNat, b.toNat, 21, w.toNat, 0]
  | .sltn w b a d => word32 3 layInt [d.toNat, a.toNat, b.toNat, 22, w.toNat, 0]
  | .seq w b a d => word32 3 layInt [d.toNat, a.toNat, b.toNat, 23, w.toNat, 0]
  | .clz w a d => word32 3 layInt [d.toNat, a.toNat, 0, 24, w.toNat, 0]
  | .popc w a d => word32 3 layInt [d.toNat, a.toNat, 0, 25, w.toNat, 0]
  | .sext b a d => word32 3 layInt [d.toNat, a.toNat, b.toNat, 26, 0, 0]
  | .zext b a d => word32 3 layInt [d.toNat, a.toNat, b.toNat, 27, 0, 0]
  | .addImm i a d => word32 5 layIntImm [d.toNat, a.toNat, 0, i.toNat]
  | .andImm i a d => word32 5 layIntImm [d.toNat, a.toNat, 1, i.toNat]
  | .orImm i a d => word32 5 layIntImm [d.toNat, a.toNat, 2, i.toNat]
  | .xorImm i a d => word32 5 layIntImm [d.toNat, a.toNat, 3, i.toNat]
  | .sltImm i a d => word32 5 layIntImm [d.toNat, a.toNat, 4, i.toNat]
  | .sltnImm i a d => word32 5 layIntImm [d.toNat, a.toNat, 5, i.toNat]
  | .seqImm i a d => word32 5 layIntImm [d.toNat, a.toNat, 6, i.toNat]
  | .shlImm w m a d => word32 5 layShift [d.toNat, a.toNat, 7, m.toNat, 0, w.toNat, 0]
  | .shrImm w m a d => word32 5 layShift [d.toNat, a.toNat, 7, m.toNat, 1, w.toNat, 0]
  | .shraImm w m a d => word32 5 layShift [d.toNat, a.toNat, 7, m.toNat, 2, w.toNat, 0]
  | .rotImm w m a d => word32 5 layShift [d.toNat, a.toNat, 7, m.toNat, 3, w.toNat, 0]
  | .li i d => word32 7 layLi [d.toNat, i.toNat]
  | .lis i d => word32 9 layLis [d.toNat, i.toNat]
  | .ld o s z c d => word32 11 layLd [d.toNat, c.toNat, z.toNat, 0, s.toNat, o.toNat]
  | .lds o s z c d => word32 11 layLd [d.toNat, c.toNat, z.toNat, 1, s.toNat, o.toNat]
  | .ldIndexed g s z c d => word32 13 layLdx [d.toNat, c.toNat, z.toNat, 0, s.toNat, g.toNat, 0]
  | .ldsIndexed g s z c d => word32 13 layLdx [d.toNat, c.toNat, z.toNat, 1, s.toNat, g.toNat, 0]
  | .st o s z c d => word32 15 laySt [d.toNat, c.toNat, z.toNat, 0, s.toNat, o.toNat]
  | .stx g s z c d => word32 17 layStx [d.toNat, c.toNat, z.toNat, 0, s.toNat, g.toNat, 0]
  | .br o => word32 19 layBr [o.toNat]
  | .call o => word32 21 layCall [o.toNat]
  | .beq o b a => word32 23 layBcc [a.toNat, b.toNat, 0, o.toNat]
  | .bne o b a => word32 23 layBcc [a.toNat, b.toNat, 1, o.toNat]
  | .blt o b a => word32 23 layBcc [a.toNat, b.toNat, 2, o.toNat]
  | .bge o b a => word32 23 layBcc [a.toNat, b.toNat, 3, o.toNat]
  | .bltn o b a => word32 23 layBcc [a.toNat, b.toNat, 4, o.toNat]
  | .bgen o b a => word32 23 layBcc [a.toNat, b.toNat, 5, o.toNat]
  | .loop o a => word32 25 layLoop [a.toNat, 0, 0, o.toNat]
  | .jr a => word32 27 layJr [0, a.toNat, 0, 0]
  | .callr a => word32 27 layJr [0, a.toNat, 0, 1]
  | .ret a => word32 27 layJr [0, a.toNat, 0, 2]
  | .xcall i m => word32 29 layXcall [m.toNat, i.toNat, 0]
  | .cmov a d => word32 31 layCap [d.toNat, a.toNat, 0, 0]
  | .cinc b a d => word32 31 layCap [d.toNat, a.toNat, b.toNat, 1]
  | .cbnd b a d => word32 31 layCap [d.toNat, a.toNat, b.toNat, 2]
  | .cperm b a d => word32 31 layCap [d.toNat, a.toNat, b.toNat, 3]
  | .cget s a d => word32 31 layCap [d.toNat, a.toNat, s.toNat, 4]
  | .ceq b a d => word32 31 layCap [d.toNat, a.toNat, b.toNat, 5]
  | .cldc o s c d => word32 33 layCapMem [d.toNat, c.toNat, 3, 0, s.toNat, o.toNat]
  | .cstc o s c d => word32 33 layCapMem [d.toNat, c.toNat, 3, 1, s.toNat, o.toNat]
  | .send t e q u c n g k => word32 35 laySend [k.toNat, g.toNat, n.toNat, c.toNat, u.toNat, q.toNat, e.toNat, t.toNat, 0]
  | .minst x b a d => word32 37 layMod [d.toNat, a.toNat, b.toNat, x.toNat, 0]
  | .mpurgeSoft a d => word32 37 layMod [d.toNat, a.toNat, 0, 0, 1]
  | .mpurgeHard a d => word32 37 layMod [d.toNat, a.toNat, 0, 1, 1]
  | .mqry a d => word32 37 layMod [d.toNat, a.toNat, 0, 0, 2]
  | .cvtend => word32 37 layMod [0, 0, 0, 0, 3]
  | .objver a d => word32 37 layMod [d.toNat, a.toNat, 0, 0, 4]
  | .clprop p b a d => word32 39 layClaim [d.toNat, a.toNat, b.toNat, p.toNat, 0]
  | .clobj b a d => word32 39 layClaim [d.toNat, a.toNat, b.toNat, 0, 1]
  | .clwait a d => word32 39 layClaim [d.toNat, a.toNat, 0, 0, 2]
  | .clread p a d => word32 39 layClaim [d.toNat, a.toNat, 0, p.toNat, 3]
  | .clgrp p b a d => word32 39 layClaim [d.toNat, a.toNat, b.toNat, p.toNat, 4]
  | .amo s n w o b c d => word32 41 layAmo [d.toNat, c.toNat, b.toNat, o.toNat, w.toNat, n.toNat, s.toNat, 0]
  | .cas s w b c d => word32 41 layAmo [d.toNat, c.toNat, b.toNat, 13, w.toNat, 0, s.toNat, 0]
  | .mcredAdd t g s c d => word32 43 layMc [d.toNat, c.toNat, s.toNat, g.toNat, t.toNat, 0]
  | .mcredMax t g s c d => word32 43 layMc [d.toNat, c.toNat, s.toNat, g.toNat, t.toNat, 1]
  | .mcredMin t g s c d => word32 43 layMc [d.toNat, c.toNat, s.toNat, g.toNat, t.toNat, 2]
  | .mcst g s c d => word32 43 layMc [d.toNat, c.toNat, s.toNat, g.toNat, 0, 3]
  | .agset g s d => word32 43 layMc [d.toNat, 0, s.toNat, g.toNat, 0, 4]
  | .fence s => word32 45 laySync [s.toNat, 0, 0, 0, 0, 0]
  | .fenceAcq s => word32 45 laySync [s.toNat, 1, 0, 0, 0, 0]
  | .fenceRel s => word32 45 laySync [s.toNat, 2, 0, 0, 0, 0]
  | .waita e c d => word32 45 laySync [d.toNat % 8, d.toNat / 8, c.toNat, e.toNat, 0, 1]
  | .pause => word32 45 laySync [0, 0, 0, 0, 0, 2]
  | .hbar i s => word32 45 laySync [s.toNat, 0, i.toNat, 0, 0, 3]
  | .qpush b l d s => word32 47 layQue [s.toNat, d.toNat, l.toNat, b.toNat, 0, 0, 0]
  | .qpusht b l d s => word32 47 layQue [s.toNat, d.toNat, l.toNat, b.toNat, 0, 0, 1]
  | .qgath k b v d s => word32 47 layQue [s.toNat, d.toNat, v.toNat, b.toNat, k.toNat, 0, 2]
  | .wmset n d => word32 47 layQue [0, d.toNat, n.toNat, 0, 0, 0, 3]
  | .wmget n => word32 47 layQue [0, 0, n.toNat, 0, 0, 0, 4]
  | .barinit a c => word32 49 layBar [0, c.toNat, a.toNat % 16, a.toNat / 16, 0, 0]
  | .bararr c => word32 49 layBar [0, c.toNat, 0, 0, 0, 1]
  | .barpend a c => word32 49 layBar [0, c.toNat, a.toNat % 16, a.toNat / 16, 0, 2]
  | .barwait c d => word32 49 layBar [d.toNat, c.toNat, 0, 0, 0, 3]
  | .barany m d => word32 49 layBar [d.toNat, 0, 0, m.toNat % 2, m.toNat / 2, 4]
  | .mmctx m => word32 51 layMm [0, 0, 0, m.toNat, 0, 0]
  | .mmjob m b a d => word32 51 layMm [d.toNat, a.toNat, b.toNat, m.toNat, 0, 1]
  | .mmwait d => word32 51 layMm [d.toNat, 0, 0, 0, 0, 2]
  | .mmldt m a => word32 51 layMm [0, a.toNat, 0, m.toNat, 0, 3]
  | .mmdrain m a => word32 51 layMm [0, a.toNat, 0, m.toNat, 0, 4]
  | .mmzero m => word32 51 layMm [0, 0, 0, m.toNat, 0, 5]
  | .trap i => word32 53 laySys [i.toNat % 32, i.toNat / 32, 0, 0, 0]
  | .eret => word32 53 laySys [0, 0, 0, 0, 1]
  | .mfs r d => word32 53 laySys [d.toNat, r.toNat % 2048, r.toNat / 2048, 0, 2]
  | .mts r d => word32 53 laySys [d.toNat, r.toNat % 2048, r.toNat / 2048, 0, 3]
  | .fresume d => word32 53 laySys [d.toNat, 0, 0, 0, 4]
  | .safe i => word32 53 laySys [i.toNat % 32, i.toNat / 32, 0, 0, 5]
  | .bkpt => word32 53 laySys [0, 0, 0, 0, 6]
  | .halt => word32 53 laySys [0, 0, 0, 0, 7]
  | .nop32 => word32 53 laySys [0, 0, 0, 0, 8]
  | .reply n g k => word32 55 layMsgx [k.toNat, g.toNat, n.toNat, 0, 0]
  | .done32 => word32 55 layMsgx [0, 0, 0, 0, 1]
  | .defer => word32 55 layMsgx [0, 0, 0, 0, 2]
  | .vadd t k b a d => word32 65 layValu [d.toNat, a.toNat, b.toNat, k.toNat, t.toNat, 0]
  | .vsub t k b a d => word32 65 layValu [d.toNat, a.toNat, b.toNat, k.toNat, t.toNat, 1]
  | .vmul t k b a d => word32 65 layValu [d.toNat, a.toNat, b.toNat, k.toNat, t.toNat, 2]
  | .vmin t k b a d => word32 65 layValu [d.toNat, a.toNat, b.toNat, k.toNat, t.toNat, 3]
  | .vmax t k b a d => word32 65 layValu [d.toNat, a.toNat, b.toNat, k.toNat, t.toNat, 4]
  | .vand t k b a d => word32 65 layValu [d.toNat, a.toNat, b.toNat, k.toNat, t.toNat, 5]
  | .vor t k b a d => word32 65 layValu [d.toNat, a.toNat, b.toNat, k.toNat, t.toNat, 6]
  | .vxor t k b a d => word32 65 layValu [d.toNat, a.toNat, b.toNat, k.toNat, t.toNat, 7]
  | .vshl t k b a d => word32 65 layValu [d.toNat, a.toNat, b.toNat, k.toNat, t.toNat, 8]
  | .vshr t k b a d => word32 65 layValu [d.toNat, a.toNat, b.toNat, k.toNat, t.toNat, 9]
  | .vshra t k b a d => word32 65 layValu [d.toNat, a.toNat, b.toNat, k.toNat, t.toNat, 10]
  | .vfma k b a d => word32 67 layVfma [d.toNat, a.toNat, b.toNat, k.toNat, 0, 0]
  | .vfmaNeg k b a d => word32 67 layVfma [d.toNat, a.toNat, b.toNat, k.toNat, 0, 1]
  | .vfn f k a d => word32 69 layVfn [d.toNat, a.toNat, 0, k.toNat, 0, f.toNat]
  | .vcmp f t k b a d => word32 71 layVcmp [d.toNat, a.toNat, b.toNat, k.toNat, t.toNat, f.toNat]
  | .vsel k b a d => word32 71 layVcmp [d.toNat, a.toNat, b.toNat, k.toNat, 0, 8]
  | .vld k z g c d => word32 73 layVld [d.toNat, c.toNat, g.toNat, z.toNat, k.toNat, 0, 0]
  | .vst k z g c d => word32 73 layVld [d.toNat, c.toNat, g.toNat, z.toNat, k.toNat, 1, 0]
  | .vgath k z i c d => word32 75 layVgath [d.toNat, c.toNat, i.toNat, z.toNat, k.toNat, 0, 0]
  | .vscat k z i c d => word32 75 layVgath [d.toNat, c.toNat, i.toNat, z.toNat, k.toNat, 1, 0]
  | .vred f t k a d => word32 77 layVred [d.toNat, a.toNat, 0, k.toNat, t.toNat, f.toNat]
  | .vbcast k a d => word32 77 layVred [d.toNat, a.toNat, 0, k.toNat, 0, 4]
  | .vperm k b a d => word32 77 layVred [d.toNat, a.toNat, b.toNat, k.toNat, 0, 5]
  | .vcvt s t k r u a d => word32 79 layVcvt [d.toNat, a.toNat, u.toNat + 8 * r.toNat, k.toNat, t.toNat, 8 * s.toNat]
  | .vdec k a d => word32 79 layVcvt [d.toNat, a.toNat, 0, k.toNat, 0, 1]
  | .venc k a d => word32 79 layVcvt [d.toNat, a.toNat, 0, k.toNat, 0, 2]
  | .mov a d => word16 [1, d.toNat, a.toNat, 0]
  | .add16 a d => word16 [2, d.toNat, a.toNat, 0]
  | .sub16 a d => word16 [3, d.toNat, a.toNat, 0]
  | .addi16 i d => word16 [4, d.toNat, i.toNat % 32, i.toNat / 32]
  | .and16 a d => word16 [5, d.toNat, a.toNat, 0]
  | .shli16 m d => word16 [6, d.toNat, m.toNat % 32, m.toNat / 32]
  | .shri16 m d => word16 [7, d.toNat, m.toNat % 32, m.toNat / 32]
  | .ldD16 a d => word16 [8, d.toNat, a.toNat, 0]
  | .stD16 a d => word16 [9, d.toNat, a.toNat, 0]
  | .br16 o => word16 [10, o.toNat % 32, o.toNat / 32 % 32, o.toNat / 1024]
  | .bez o d => word16 [11, d.toNat, o.toNat % 32, o.toNat / 32]
  | .bnz o d => word16 [12, d.toNat, o.toNat % 32, o.toNat / 32]
  | .done => word16 [13, 0, 0, 0]
  | .nop => word16 [13, 1, 0, 0]
  | .ret16 => word16 [13, 2, 0, 0]
  | .illegal _ => 0
  | .trapEntry _ => 0
  | .machineEvent _ _ _ => 0
  | .trapUpcall _ => 0
  | .dispatch _ _ => 0
  | .messageArrival _ _ _ => 0
  | .replyArrival _ _ => 0
  | .replySlotTimeout _ _ => 0
  | .urgentQuotaWindow _ => 0
  | .urgentQuotaExhausted _ => 0
  | .statelessBalance _ => 0
  | .forwardQueuedMessages _ => 0
  | .hbarEpisodeComplete _ => 0
  | .hbarEnrolRemove _ _ => 0
  | .storeBufferDrain _ => 0
  | .remoteRequest _ => 0
  | .remoteValue _ _ _ _ => 0
  | .acknowledgement _ _ _ => 0
  | .remoteNotice _ _ _ _ _ => 0
  | .translationCompletion _ _ _ _ _ => 0
  | .atsInvalidation _ _ => 0
  | .hotRecordInterval _ _ => 0
  | .scrub _ _ _ => 0
  | .faultUpcall _ => 0
  | .memorySideUpcall _ => 0
  | .faultReplay _ _ => 0
  | .pageRequestRead _ _ => 0
  | .pageRequestWrite _ _ => 0
  | .prgResponse _ _ => 0
  | .pageRequestUpcall _ => 0
  | .requestAccept _ => 0
  | .copySector _ _ _ => 0
  | .barrierUpdate _ _ _ _ => 0
  | .copyBankSelect _ _ => 0
  | .matrixBankSelect _ _ => 0
  | .mediaJobAccept _ => 0
  | .mediaJobEnd _ _ _ _ => 0
  | .matrixJobStart _ => 0
  | .matrixJobEnd _ => 0
  | .converterStart _ => 0
  | .laneFailure _ => 0
  | .linkDown _ => 0
  | .declaredUnreachable _ => 0
  | .unreachableClasses _ => 0
  | .halyardIdleFlit _ => 0
  | .tagGroupReceive _ _ _ => 0
  | .tagGroupIdleFill _ => 0
  | .linkKeyRollover _ => 0
  | .poisonNotice _ _ => 0
  | .ftimeCorrection _ => 0
  | .halyardLoss => 0
  | .memberRead _ _ _ _ _ _ => 0
  | .memberWrite _ _ _ _ _ _ => 0
  | .memberValues _ _ _ _ => 0
  | .collectiveTimeout _ => 0
  | .collectiveEnd _ => 0
  | .datagramSend _ _ _ => 0
  | .datagramReceive _ _ => 0
  | .datagramResend _ _ _ => 0
  | .announcementReceive _ => 0
  | .objectionReceive _ => 0
  | .claimResolve _ => 0
  | .claimSlotFree _ => 0
  | .reef _ => 0
  | .heaveTo _ => 0
  | .ladderHalt _ => 0
  | .ladderStopped _ => 0
  | .strike _ => 0
  | .restoreFrames _ => 0
  | .sliceEnd _ => 0
  | .pausemaxResume _ => 0
  | .pauseExpiry _ _ => 0
  | .waitaTimeout _ _ => 0
  | .waitaFullExpiry _ _ => 0
  | .ringDoorbell _ _ _ => 0
  | .completionHead _ _ _ => 0
  | .ringEnable _ _ _ => 0
  | .ringReset _ _ _ => 0
  | .ringInterruptEnable _ _ _ => 0
  | .registerWrite _ _ _ => 0
  | .msg _ _ => 0
  | .pad _ _ => 0
  | .replaymark _ _ => 0
  | .nopPacket _ _ => 0
  | .ringPacketRetry _ _ => 0
  | .replaymarkEffect _ _ => 0
  | .nopFenceComplete _ _ => 0
  | .context _ _ _ => 0
  | .bind _ _ _ _ _ => 0
  | .schedule _ _ _ => 0
  | .pauseContext _ _ => 0
  | .resume _ _ _ => 0
  | .evict _ _ _ _ => 0
  | .restore _ _ _ _ => 0
  | .migrateStart _ _ _ _ _ => 0
  | .migrateFinal _ _ _ _ => 0
  | .migrateCancel _ _ => 0
  | .migrateKeyx _ _ _ _ => 0
  | .migrateSnapshot _ => 0
  | .teardown _ _ => 0
  | .teardownRepropose _ => 0
  | .clusterRelease _ => 0
  | .query _ _ _ => 0
  | .getMeasurements _ _ => 0
  | .powerOnBoot _ => 0
  | .firmwareImageWrite _ => 0
  | .temperatureThreshold _ => 0
  | .voltageFault _ _ => 0
  | .linkRetrained _ => 0
  | .tdispRequest _ _ => 0
  | .ideKmKeyProg _ _ => 0
  | .valueTableCopy _ _ => 0

end Sys2Proof
end

