-- ==== Sys2Proof/Config.lean ====
section
/-! DEFINITION. What the spec leaves to the implementation or to the outside. Every constant here is opaque: it has a
type and no value a proof could use. -/
namespace Sys2Proof.Config

/-- A free value, applied to the counter State.fresh (log 5). -/
opaque freeWord : Nat → Word
/-- The nanoseconds by which FTIME advances in one step of the model (R231; log 5). -/
opaque ftimeStep : Nat → Nat
/-- The core cycles, beyond one, by which CYCLE advances in one step of the model (R383; log 5). -/
opaque cycleStep : Nat → Nat
/-- The channel of a die's HBM that holds an address (R315; log 92). -/
opaque hbmChannel : Nat → Nat
/-- What a byte of the encrypted tiers reads as under a key that its block was not written under: key, address, and the 64
bytes that the block holds (R118, R119; log 2). -/
opaque garble : Nat → Nat → List Byte → Byte
/-- How a reply token's capability carries sender, slot and sequence (R76, R98; log 11). -/
opaque tokenOid : BitVec 22 → BitVec 6 → BitVec 16 → BitVec 40
opaque tokenBase : BitVec 22 → BitVec 6 → BitVec 16 → BitVec 36
opaque tokenLen : BitVec 22 → BitVec 6 → BitVec 16 → BitVec 36
/-- The object ids of the root's windows of the n-th context: object table (R106) and page requests (R278; log 12). -/
opaque tableOid : Nat → BitVec 40
opaque pageOid : Nat → BitVec 40
/-- Where the root places the n-th context's object table in the HBM tier of die 0, and how many descriptors it
holds (R106; log 12). -/
opaque tableBase : Nat → Nat
opaque tableLen : Nat → Nat
opaque tableSpan : Nat → Nat
/-- The random bit generator's n-th handle (R305). -/
opaque handle : Nat → Word
/-- The pod, position and core that a route's 16 bytes in a policy name (R301, R232; log 39). -/
opaque routePod : List Byte → Nat
opaque routePos : List Byte → Nat
opaque routeCore : List Byte → Nat
/-- ML-DSA-87 verification of a signature over a message under a public key (R301, R313). -/
opaque verify : List Byte → List Byte → List Byte → Bool
/-- The vendor key that the boot ROM holds by its digest (R313). -/
opaque vendorKey : List Byte
/-- The parts of a firmware image (R313): what is signed, signature, security version, the Buolman kernel's code and its
trap vector (log 6). -/
opaque fwBody : List Byte → List Byte
opaque fwSig : List Byte → List Byte
opaque fwVersion : List Byte → Nat
opaque fwKernel : List Byte → List Byte
opaque fwVector : List Byte → BitVec 32
/-- The bytes that an image of a context with so many clusters and pages takes, and the n-th byte of the image with a
sequence number: AES-256-GCM ciphertext, tags and digest (R308, R309; log 37). -/
opaque imageSize : Nat → Nat → Nat
opaque imageByte : Nat → Nat → Byte
/-- The header and the tags among the bytes of an image, over which its last 64 bytes are the digest (R308; log 37). -/
opaque imageSealed : List Byte → List Byte
/-- A handle names an image that another device's root has announced (R305, R308; log 37), and how many bytes of its buffer the last
snapshot takes, behind which the delta lies (R309; log 42). -/
opaque incomingHandle : Word → Bool
opaque snapshotLen : Word → Nat
/-- The identity hash of the destination that SPDM records of MIGRATE KEYX name, and the root's own record (R309). -/
opaque keyxPeer : List Byte → List Byte
opaque keyxReply : List Byte → List Byte
/-- The signature of the alias key over what an SPDM measurement report holds (R311, R312). -/
opaque attest : List Byte → List Byte → List Byte
/-- The helper data and Iglote's certificate in flash; the public identity key that the root's unclonable function gives with the
helper data, and the public alias key bound to the measurements (R311). -/
opaque helper : List Byte
opaque certificate : List Byte
opaque identityKey : List Byte → List Byte
opaque aliasKey : List Byte → List Byte → List Byte
/-- The digest of the boot ROM, and of the microcode (R312 blocks 1 and 4). -/
opaque romDigest : List Byte
opaque microcodeDigest : List Byte
/-- The self-test of the primary root at the n-th boot (R313). -/
opaque selfTest : Nat → Bool
/-- Whether every tenant bound on the device at the other end of a port selects skid (R220). -/
opaque peerSkid : Nat → Bool
/-- The path MTU's number of entries per inter-pod datagram (R233). -/
opaque mtuEntries : Nat → Nat
/-- The first free HBM and SRAM page frame the root hands out for MINST's objects on a die (R17; log 13). -/
opaque arenaBase : Nat → Nat
/-- Whether a far queue grants a reservation, or is full (R74; log 14). -/
opaque farReserve : Nat → Bool
/-- Whether a member, by position, is stale when a resynchronisation asks (R258; log 31). -/
opaque peerStale : Nat → Nat → Bool
/-- The AES-256-GCM tag of a tag group: port, number of the key, direction, group counter, the group's bytes with a zero tag
(R220; log 97). -/
opaque linkTag : Nat → Nat → Bool → Nat → List Byte → List Byte
/-- The encrypted entries of an inter-pod datagram and its AES-256-GCM tag: number of the device pair's key, header, entries (R233;
log 97). -/
opaque podCipher : Nat → List Byte → List Byte → List Byte
opaque podTag : Nat → List Byte → List Byte → List Byte
/-- The 16 bytes of an inter-pod entry that name the destination, the far object and the reply's binding (R233; log 97). -/
opaque podName : Nat → BitVec 40 → Nat → List Byte

end Sys2Proof.Config
end

