-- ==== Sys2Proof/Machine/State.lean ====
section
/-! DEFINITION. The state of one Goane device, as plain data, and the state after reset. Each structure names the rules
that give its fields. Maps from numbers are lists of pairs; a number without a pair has the default value. -/
namespace Sys2Proof.Machine

/-- Why the machine stops. Raised only by an access to a physical address that the spec says does not exist (R92,
R108): safe, since the hardware has no behaviour there that the spec gives. -/
inductive Fault where
  /-- Raised by every memory operation whose die-local, TCM or scratchpad address lies outside the tiers. Safe. -/
  | hole (addr : Nat)
  deriving DecidableEq, Repr

/-- Why an instruction has no meaning in the model. -/
inductive Refusal where
  /-- Raised by the dispatch arm of a constructor that has no meaning yet. Safe. -/
  | notModelled (mnemonic : String)
  deriving DecidableEq, Repr

/-- The states of a frame (R67). -/
inductive FState where
  | free | ready | running | parked | stopped
  deriving DecidableEq, Repr

/-- What a parked frame does with the values it waits for (R70). -/
inductive Then where
  | word   (d : BitVec 5) (size : Nat) (signed : Bool)
  | cap    (d : BitVec 4)
  | lanes  (d : BitVec 5) (acc : VReg) (rids : List (Nat × Nat)) (size : Nat)
  | atomic (d : BitVec 5) (wide : Bool)
  | objver (d : BitVec 5)
  | members (d : BitVec 5) (group : Nat) (got : List (Nat × Word)) (rids : List (Nat × Nat))
  | table  (bank : Nat) (got : List (Nat × Lane)) (rids : List (Nat × Nat))
  | tests (got : List (Nat × Word)) (rids : List (Nat × Nat))    -- what the homes of BARANY's barriers say (R203)
  | checked (place : Option Nat)                  -- the layout checks of far objects that a push names (R151), and its place in the line (R402)
  | image  (got : List (Nat × List Byte)) (rids : List (Nat × Nat))    -- pieces of an image or of data, by offset (R384)
  deriving DecidableEq, Repr

/-- A barrier that a frame waits for (R203): the register's number, the object and offset at its home, the home core,
and the number of the request when the home is another device's. -/
structure BarRef where
  n    : Nat
  oid  : BitVec 40
  off  : Nat
  home : Nat
  rid  : Option Nat
  deriving DecidableEq, Repr

/-- What a SEND parked with reason CREDIT waits for (R70, R74, R75, R416): a reply slot of its core, an entry of an
inbound queue of this device, one on another device, or one of the inter-pod transmit buffer. -/
inductive Credit where
  | slot
  | queue (core : Nat) (urgent : Bool)
  | far (coreid : Nat) (urgent : Bool)
  | pods
  deriving DecidableEq, Repr

/-- Why a frame is parked, and what its instruction still owes (R70). Where nothing is owed the instruction executes
again. -/
inductive Park where
  | remote  (ilen : Nat) (pend : List Nat) (fin : Then)
  | reply   (slot : Nat) (gb : BitVec 5) (n : BitVec 3)
  | credit (want : Credit)
  | engine (queue : Bool) (since : Nat)     -- queue: the job queue, else the command FIFO; the step in which it parked
  | barrier (d : BitVec 5) (any : Bool) (bars : List BarRef)
  | job     (d : BitVec 5) (id : Nat)
  | claim   (d : BitVec 5) (slot : Nat) (gen : BitVec 20)
  | waita   (d : BitVec 5) (expected : Word) (addr : Nat) (full : Bool) (since : Nat)
  | hbar    (b : HbarKey)
  | coll    (id : Nat)
  | fault
  | trapped (cause : BitVec 8) (eval : Word)
  | convert (oid : BitVec 40)
  | locks (oid : BitVec 40) (from_ : BitVec 16) (trig : Option (Nat × Nat))    -- a converter takes the locks of its object (R152)
  | abandoned                                -- a trap has ended the wait; the kernel disposes of the frame (R69, R159)
  deriving DecidableEq, Repr

/-- An entry of an inbound queue (R74): the message, its arrival time and place in the order of arrival, where it came
from, and whether its reply token has been used (DEFER, R360). -/
structure QEntry where
  msg     : Msg
  arrival : Nat
  serial  : Nat
  origin  : Origin
  used    : Bool
  deriving DecidableEq, Repr

/-- What a frame that waits in place waits for (R72). -/
inductive Wait where
  | release (reach : Nat)        -- acknowledgements within the reach, and the frame's buffered stores
  | acks (reach : Nat)           -- acknowledgements within the reach
  | sending (reach : Nat) (drain : Bool)   -- the release of a SEND or of a scoped store, which heave-to ends (R418, R424)
  | drained (addr n : Nat)       -- the frame's buffered stores to some bytes (R443)
  | ending (e : Option QEntry)   -- the frame's buffered stores, at whose end the activation ends (R360, R361)
  | halted                       -- the supervisor frame after HALT (R367)
  | room                         -- a free store-buffer entry
  | entering                     -- the instruction's remaining stores (R451)
  | ack (rid : Nat)
  | pushing (rid : Nat)          -- the addition to a barrier of another device that precedes a push (R195)
  | group (g : Nat)              -- no collective of the group in flight
  | tile (t upto : Nat)          -- no job of the core on the tile that was accepted before the wait began
  | bank (b : Nat)               -- no unfinished lut8 job of the core on the bank
  | loading (b : Nat)            -- no MMLDT of the core at work on the bank
  | watermark (oid : BitVec 40) (lo hi : Nat)
  | translation (die pasid page : Nat) (write : Bool)
  | resync (g : Nat) (d : BitVec 5) (pos : Nat)    -- the member that has been asked for the table (R258)
  | restored                     -- a resynchronisation abandoned at the halt, until its partition is restored (R355)
  | pageRequests
  | updates (home : Nat)         -- barrier updates of the core under way to a home (R217, R334)
  | migration (ctx : Nat) (oid : BitVec 40) (page : Nat)   -- a page under migration (R111)
  | install (reach : Nat)      -- the release of a switch by MINST (R148, R384)
  | table (m : BitVec 24)        -- stores to the constant table of a version of a module that is to go (R107, R158)
  | purge (m : BitVec 24) (own : Option Nat)   -- a hard purge of a module: this frame's, with its count, or another's
  deriving DecidableEq, Repr

/-- A store that is to enter the memory order (R99, R123): its flat address, its bytes, the capability it carries, if
any, the object, and for a paged object the offset in it, by which the store finds the page's frame when it is performed
(R111, R114). -/
structure PStore where
  frame : Nat
  ctx   : Nat
  oid   : BitVec 40
  addr  : Nat
  bytes : List Byte
  cap   : Option Cap
  paged : Option Nat
  deriving DecidableEq, Repr

/-- An unacknowledged posted access (R124): its number and the smallest scope code whose instance holds its home. -/
structure Posted where
  rid   : Nat
  reach : Nat
  atomic : Bool
  deriving DecidableEq, Repr

/-- What an activation runs for (R83, R152, R271). -/
inductive ActKind where
  | message
  | converter (oid : BitVec 40) (layout : BitVec 16)   -- its object, and the layout of the version it runs for
  | upcall (kind : Nat)
  deriving DecidableEq, Repr

/-- One activation (R83): its message, its tenant and its reply token as dispatched. -/
structure Activation where
  kind  : ActKind
  ctx   : Nat
  entry : Option QEntry
  token : Cap
  used  : Bool
  dtime : Nat
  deriving DecidableEq, Repr

/-- A precise trap that has been raised and not been disposed of (R267); later tells that it is taken when its STOPPED
frame is restored (R159). -/
structure TrapRec where
  cause : BitVec 8
  eval  : Word
  taken : Bool
  pk    : Bool
  later : Bool
  deriving DecidableEq, Repr

/-- An entry that a SEND has reserved and not used yet (R74, R416): of an inbound queue of this device, of one of another
device, of the inter-pod transmit buffer. -/
inductive Entry where
  | near (core : Nat) (urgent : Bool)
  | far (coreid : Nat) (urgent : Bool)
  | pods
  deriving DecidableEq, Repr

/-- An exterior route (R232): pod, position and COREID bits 11 to 0. -/
structure Route where
  pod  : Nat
  pos  : Nat
  core : Nat
  deriving DecidableEq, Repr

/-- Where a message goes: a core of this device, another device, or another pod (R413). -/
inductive Dest where
  | core (n : Nat)
  | device (coreid : Nat)
  | pod (r : Route) (oid : BitVec 40)
  deriving DecidableEq, Repr

/-- A message that a SEND without a reply has accepted and that leaves once the frame's stores before it have drained (R126,
R417): the frame, how many of those stores are still in the buffer. -/
structure Outgoing where
  frame : Nat
  left  : Nat
  dest  : Dest
  msg   : Msg
  deriving DecidableEq, Repr

/-- What restore returns a STOPPED frame to (R281, R282). -/
structure Saved where
  prior   : FState
  arrived : Bool
  deriving DecidableEq, Repr

/-- One register frame (R66, R84, R140, R178). -/
structure Frame where
  g       : Vector Word 32
  c       : Vector Cap 16
  v       : Vector VReg 32
  k       : Vector Lane 8
  pc      : BitVec 32
  ver     : BitVec 8
  modid   : BitVec 24
  cvt     : Bool
  status  : Word
  dlnext  : Word
  clprio  : Word
  qrowlen : Word
  barrot  : Word
  rstat   : Word
  clstat  : Word
  amoerr  : Word
  frec    : Word
  fctx0   : Word
  fctx1   : Word
  state   : FState
  ready   : Nat
  park    : Option Park
  wait    : Option Wait
  entering : List PStore
  txSlot  : Option (Nat × BitVec 16)      -- the reply slot that its SEND has taken, with SLOTSEQ (R71, R75, R414)
  txEntry : Option Entry                  -- the queue entry that its SEND has reserved
  relStores : Bool                        -- a release fence holds its later stores behind those in the buffer (R126)
  posted  : List Posted
  act     : Option Activation
  trap    : Option TrapRec
  saved   : Option Saved
  faultSeq : BitVec 32
  pauseTo : Nat
  deriving DecidableEq, Repr

/-- A reply slot (R75): busy, for which frame, the COREID its message went to (none for another pod), whether its reply is
to be discarded, and until when its NACK is awaited (R310). -/
structure Slot where
  busy    : Bool
  seq     : BitVec 16
  frame   : Nat
  dest    : Option Nat
  discard : Bool
  due     : Option Nat
  deriving DecidableEq, Repr

/-- What an engine has read of its operands: bytes and tags by operand and object offset, the pieces that requests to other
homes are to bring, and the sectors that wait in a fault queue (R93, R287). -/
structure Intake where
  got  : List (Nat × Nat × List Byte × List Nat)
  sent : List (Nat × Nat × Nat)          -- number of the request, operand, offset
  held : List (Nat × Nat)                -- operand, sector
  jam  : Option (Nat × Nat)              -- the die whose fault queue had no room for a fault, and the records it takes (R276)
  deriving DecidableEq, Repr

/-- A matrix job (R183), with its progress. -/
structure Job where
  id    : Nat
  uid   : Nat                           -- rises with acceptance
  core  : Nat
  ctx   : Nat
  fctx0 : Word
  m     : Nat
  n     : Nat
  k     : Nat
  w     : Word
  capA  : Cap
  capAs : Cap
  capB  : Cap
  capBs : Cap
  bank  : Bool
  failed : Bool
  intake : Intake
  blocks : List Nat                     -- output blocks that have been added (R186, R191)
  deriving DecidableEq, Repr

/-- What a copy request asks for (R193, R198, R209). -/
inductive CopyKind where
  | plain
  | gather (rows : List (Nat × Nat)) (rowlen : Nat)     -- lane and index
  | media
  deriving DecidableEq, Repr

/-- A copy request (R192): what it names and which of its sectors have been performed or wait in a fault queue. -/
structure CopyReq where
  id     : Nat
  core   : Nat
  frame  : Nat
  ctx    : Nat
  kind   : CopyKind
  src    : Cap
  dst    : Cap
  word   : Word
  bar    : Cap
  bank   : Bool
  done   : List Nat
  held   : List Nat
  written : List (Nat × List Byte)        -- what the sectors of a DIGEST request wrote
  intake : Intake                         -- by sector; for a media job by operand
  wsent  : List (Nat × Nat)               -- writes to other homes not yet acknowledged: number, sector
  ending : Nat                            -- 0 at work; 1 its digest or result is on its way; 2 waits in a fault queue with it; 3 aborted
  result : Option (Nat × Nat)             -- OUTLEN and JSTAT of a media job
  deriving DecidableEq, Repr

/-- Upcalls and converters that wait for a free urgent frame (R152, R271). -/
inductive Start where
  | converter (ctx : Nat) (oid : BitVec 40) (modid : BitVec 24) (ver : BitVec 8) (from_ : BitVec 16)
      (trig : Option (Nat × Nat))       -- core and frame of the first touch
  | frameFault (ctx : Nat) (frame : Nat) (seq : BitVec 32) (g1 g2 g3 g4 : Word) (inUpcall : Bool)
  | memory (ctx die index : Nat) (seq : BitVec 32) (g1 g2 g3 g4 : Word)
  | page (ctx : Nat) (g1 g2 g3 : Word)
  | trap (ctx : Nat) (frame : Nat) (seq : BitVec 32) (g1 g2 g3 : Word)
  deriving DecidableEq, Repr

/-- A machine event that waits for the supervisor frame (R267, R286): LINKFAIL or MACHINE, EVAL and the frame. -/
structure MachEvent where
  link  : Bool
  eval  : Word
  frame : Nat
  deriving DecidableEq, Repr

/-- A queue entry that a SEND of another device has reserved (R74): the COREID of its core or service hart, the queue, and the time at
which the entry returns where its partition has been retired (R310). -/
structure Promise where
  src    : Nat
  urgent : Bool
  due    : Option Nat
  deriving DecidableEq, Repr

/-- One core (R2, R66, R74, R75, R84, R123, R177, R192, R266). -/
structure Core where
  frames   : Vector Frame 11
  dslack   : Word
  fupc     : Word
  epc      : Word
  ecause   : Word
  eval     : Word
  sstatus  : Word
  uquota   : Word
  uwin     : Word                       -- UQUOTA as the running window took it (R85, R382)
  t1       : Word
  t2       : Word
  t3       : Word
  normalQ  : List QEntry
  urgentQ  : List QEntry
  promised : List Promise
  serial   : Nat
  slots    : List (Nat × Slot)
  buffer   : List PStore
  deleting : List (Nat × Nat × BitVec 40)      -- deletions that are not complete: frame, context, object (R107)
  outgoing : List Outgoing
  handling : Bool
  kernelRuns : Bool            -- the built-in kernel is to act on the trap taken (log 6)
  events   : List MachEvent
  poison   : List Poison
  starts   : List Start
  faultSeq : BitVec 32
  born     : Nat                        -- the device's cycles at the core's reset
  winStart : Nat
  winCount : Nat
  exhausted : Bool
  nextJob  : BitVec 8
  records  : List (Nat × Option Int)    -- job id; its status once it has ended
  tiles    : List (Nat × Lane)
  lut      : List (Nat × BitVec 19)
  fifo     : List CopyReq
  balanceAt : Nat
  deriving DecidableEq, Repr

/-- A watermark register and what has been filled (R205, R206). -/
structure Channel where
  arm   : Bool
  w     : Nat
  oid   : BitVec 40
  ctx   : Nat
  rbase : Nat
  rlen  : Nat
  filled : List (Nat × Nat)
  deriving DecidableEq, Repr

/-- What a bank of a cluster's writable control stores holds since a supervisor window wrote it: the matrix engine's or the copy
unit's, the bank, its bytes; one without an entry holds the vendor's microcode (R184, R208). -/
structure Store where
  matrix : Bool
  bank   : Bool
  bytes  : List Byte
  deriving DecidableEq, Repr

/-- One cluster: its copy unit, matrix engine and WAITA monitors (R177, R192, R205, R208, R443). -/
structure Cluster where
  owner    : Option Nat
  accepted : List CopyReq
  turn     : Nat
  copyBank : Bool
  matBank  : Bool
  stores   : List Store
  channels : List (Nat × Channel)
  jobs     : List Job
  lastCore : Nat
  running  : Option Job
  monitors : List (Nat × Nat)           -- core, frame
  errors   : List Nat                   -- FTIMEs of the corrected errors of the last hour (R317)
  worn     : Bool                       -- a code store or a register frame has had an uncorrectable error (R286, R317)
  free     : Nat                        -- FTIME from which it may be bound (R310)
  deriving DecidableEq, Repr

/-- What a fault-queue record holds back (R275). -/
inductive Held where
  | request (r : Request)
  | copy (cluster id : Nat) (sectors : List Nat)
  | matrix (cluster : Nat) (core id : Nat) (part : Nat) (sectors : List Nat)
  | media (die id : Nat) (part : Nat) (sectors : List Nat)
  | member (req coll ctx : Nat) (oid : BitVec 40) (base len : Nat) (data : Option (List Byte))
  | nothing
  deriving DecidableEq, Repr

/-- A fault-queue record (R275). -/
structure FRec where
  index : Nat
  seq   : BitVec 32
  ctx   : Nat
  oid   : BitVec 40
  kind  : Nat
  agent : Nat
  state : Nat
  off   : Nat
  req   : Nat
  len   : Nat
  ret   : Bool
  smask : Word
  page  : Nat                     -- host page for kind 2
  held  : Held
  deriving DecidableEq, Repr

/-- One memory controller's hotness sketch (R114 to R116). -/
structure Sketch where
  counts : List (Nat × Nat)             -- row * 4096 + index
  cands  : List (Nat × List Nat)        -- tenant slot; candidate keys
  totals : List (Nat × Nat)
  since  : Nat                          -- FTIME at which the interval began
  deriving DecidableEq, Repr

/-- A translation that the host granted or refused (R112): PASID, host page, what it allows, and whether it answers a
request for write access. -/
structure Trans where
  pasid : Nat
  page  : Nat                     -- the first of a range of pages, at most 2 MiB
  count : Nat
  read  : Bool
  write : Bool
  forWrite : Bool
  deriving DecidableEq, Repr

/-- One die: fault queue, sketches, address translation cache, media engines (R112, R114, R209, R275). -/
structure Die where
  faultq  : List FRec
  faultSeq : BitVec 32
  sketches : List (Nat × Sketch)
  slotsOf : List (Nat × Nat)            -- context; tenant slot
  hotrec  : List (Nat × BitVec 40)      -- context; its record object
  ats     : List Trans
  asked   : List (Nat × Nat × Bool)     -- translations requested and not completed: PASID, page, write
  mediaQ  : List CopyReq
  media   : List CopyReq
  spares  : Nat                         -- spare clusters brought into service (R2, R317)
  channels : List (Nat × Nat)           -- HBM channels that a spare has replaced: stack, channel (R317)
  deriving DecidableEq, Repr

/-- A module version (R139). -/
structure Version where
  ver      : BitVec 8
  layout   : BitVec 16
  code     : List Byte
  handlers : List (BitVec 32)
  entries  : List (Nat × BitVec 32)
  convs    : List (Nat × BitVec 32)
  lives    : List (Nat × BitVec 32 × BitVec 32 × BitVec 16 × BitVec 8)
  consts   : List Nat                   -- recorded slots
  table    : BitVec 40
  deriving DecidableEq, Repr

/-- A module's resident versions (R138, R144): the other version is staged or the exuvia. -/
structure Module where
  imago   : Option Version
  other   : Option Version
  exuvia  : Bool
  purging : Bool                        -- a hard purge waits for its frames (R159)
  deriving DecidableEq, Repr

/-- A conversion that runs or waits for its frame (R152, R153). -/
structure Conv where
  oid     : BitVec 40
  core    : Nat
  frame   : Option Nat            -- the converter's frame, once it has started
  waiting : List Request          -- far requests behind the conversion (R151)
  deriving DecidableEq, Repr

/-- An object lock (R81): object, stripe, holder's core and frame, and the lender a converter borrowed it from. -/
structure Lock where
  oid    : BitVec 40
  stripe : Nat
  core   : Nat
  frame  : Nat
  lender : Option (Nat × Nat)
  deriving DecidableEq, Repr

/-- The context states of R300, in the order QUERY reports them. -/
inductive CtxState where
  | created | bound | running | paused | evicted | gone
  deriving DecidableEq, Repr

/-- The stages of the pre-emption ladder (R280). -/
inductive Stage where
  | reef | heaveTo | halt
  deriving DecidableEq, Repr

/-- What the ladder was started for (R280, R304, R307). -/
inductive Why where
  | slice | pause | migrate
  deriving DecidableEq, Repr

/-- A ladder at work: its stage, when it started, what for, the commands that wait for it, and T1, T2 and T3 as they
stood at its start (R280, R382). -/
structure Ladder where
  stage : Stage
  start : Nat
  why   : Why
  tags  : List Word
  t1    : Nat
  t2    : Nat
  t3    : Nat
  deriving DecidableEq, Repr

/-- A valid policy (R301). -/
structure Policy where
  t1 : BitVec 32
  t2 : BitVec 32
  t3 : BitVec 32
  flags : BitVec 32
  pauseMax : Nat
  sliceMin : Nat
  sliceMax : Nat
  clMin : Nat
  clMax : Nat
  peers : List Nat
  groups : List (Nat × Bool × List Nat)
  routes : List Route
  dests : List (List Byte)
  agmask : Word
  devid : List Byte
  digest : List Byte
  deriving DecidableEq, Repr

/-- A migration in progress (R309): the interval in µs and the buffer of the snapshots, when the last one began and what it wrote, if
one has been taken, whether a session with the destination stands, and once FINAL has begun the buffer of the delta and the
command's tag. -/
structure Migration where
  interval : Nat
  addr     : Nat
  len      : Nat
  last     : Nat
  image    : Option (List Byte)
  keyed    : Bool
  final    : Option (Nat × Nat × Word)
  deriving DecidableEq, Repr

/-- What an image holds (R308): its bytes as they were written, and what RESTORE rebuilds from it: cores, clusters,
memory cells and tags of the partition's tiers and pages, its page frames, its fault-queue records by die. -/
structure Snapshot where
  bytes    : List Byte
  cores    : List (Nat × Core)
  clusters : List (Nat × Cluster)
  mem      : List Host.Cell
  tags     : List Nat
  keys     : List Nat
  pages    : List Nat
  records  : List (Nat × FRec)
  deriving DecidableEq, Repr

/-- A teardown whose retirement claim is undecided or whose clusters are not yet free (R310). -/
structure Teardown where
  tag   : Word
  tries : Nat
  te    : Nat
  slot  : Option Nat
  gen   : BitVec 8
  vf    : Nat
  mask  : List Nat
  retry : Option Nat
  struck : Bool                    -- the partition has been struck, and the retirement proposed
  done  : Bool
  deriving DecidableEq, Repr

/-- A tenant's context (R300 to R310), with its modules (R138), locks (R81) and root windows (R106, R278). -/
structure Context where
  state    : CtxState
  policy   : Policy
  handle   : Word
  queue    : Word
  image    : Word
  vf       : Nat
  pasid    : BitVec 20
  keyid    : BitVec 8
  gen      : BitVec 8                -- the VF generation that CONTEXT generated (R302)
  key      : Nat                     -- the key that KEYID selects, and the image key beside it, by number (R118, R302)
  clusters : List Nat
  tableOid : BitVec 40
  tableBase : Nat
  tableLen : Nat
  tableSpan : Nat                    -- bytes of the table object, page maps behind the descriptors included
  pageOid  : BitVec 40
  windows  : List Cap
  refs     : List (BitVec 40)        -- reference-state objects that a media job has filled (R211)
  modules  : List (Nat × Module)
  locks    : List Lock
  convs    : List Conv
  ladder   : Option Ladder
  stopped  : Bool
  struck   : Bool                    -- a strike has reset it and it has not run since (R229)
  slice    : Nat
  sliceAt  : Nat
  pausedAt : Nat
  migration : Option Migration
  dirty    : List Nat                 -- page frames written since the last snapshot began
  imageSeq : Nat
  saved    : Option Snapshot         -- the image of an evicted context
  teardown : Option Teardown
  deriving DecidableEq, Repr

/-- The state of a host message consumed from a ring (R298): its ticket, packet and what has happened to it. -/
structure Ticket where
  n      : Nat
  seq    : BitVec 32
  oid    : BitVec 40
  rq     : Bool
  holds  : Bool                    -- holds a completion reservation
  stage  : Nat                     -- 0 queued, 1 dispatched, 2 ended
  dtime  : Nat
  deriving DecidableEq, Repr

/-- A submission ring (R294). -/
structure Ring where
  rbase : Word
  rsize : BitVec 32
  rctl  : BitVec 32
  tail  : BitVec 32
  head  : BitVec 32
  cbase : Word
  csize : BitVec 32
  chead : BitVec 32
  ctail : BitVec 32
  rstate : BitVec 32
  maddr : Word
  mark  : Nat
  phase : Bool
  reserved : Nat
  next  : Nat
  tickets : List Ticket
  marks : List (Nat × Nat × BitVec 32)   -- ticket bound, index, SEQ
  fences : List (Nat × BitVec 32 × BitVec 40)
  deriving DecidableEq, Repr

inductive Tdi where
  | unlocked | locked | run | error
  deriving DecidableEq, Repr

/-- A virtual function (R292, R293, R302, R310): generation and whether a context has given it one, TDI state, IDE key and rings. -/
structure Vf where
  gen   : BitVec 8
  drawn : Bool
  tdi   : Tdi
  ide   : Option Nat
  rings : List (Nat × Ring)
  deriving DecidableEq, Repr

/-- A claim group on this device (R241, R242, R251). -/
structure Group where
  owner   : Option Nat
  members : List Nat
  grant   : Bool
  window  : Nat
  desc    : Word
  stale   : Bool
  values  : List (Word × Word × Nat)     -- key, value, effect time
  deriving DecidableEq, Repr

inductive ClaimState where
  | free | announced | resolved
  deriving DecidableEq, Repr

/-- A claim slot (R253). -/
structure ClaimSlot where
  gen       : BitVec 20
  state     : ClaimState
  ann       : Announcement
  outcome   : Nat
  objections : List (Nat × Nat)          -- position, reason
  rivals    : List Announcement          -- competing claims that outrank it (R256)
  muted     : Bool                       -- its proposer's partition, of this device, has been struck (R261)
  deriving DecidableEq, Repr

/-- A hardware barrier (R88, R90): enrolled cores, enrolled devices at pod scope, arrivals of the episode. -/
structure Hbar where
  cores   : List Nat
  devices : List Nat
  arrived : List Nat
  deriving DecidableEq, Repr

/-- An address group (R226). -/
structure AGroup where
  members : List Nat
  record  : Cap
  ctx     : Nat
  deriving DecidableEq, Repr

/-- A collective in flight (R227, R228). -/
structure Coll where
  core  : Nat
  frame : Nat
  ctx   : Nat
  op    : Nat                          -- SUB
  ty    : Nat
  d     : BitVec 5
  cd    : Cap
  cs    : Cap
  group : Nat
  members : List Nat
  record : Cap
  t0    : Nat
  absent : List Nat
  got   : List (Nat × List Byte)
  ended : Option Nat                   -- FTIME at which the last member answered or was declared absent (R238)
  deriving DecidableEq, Repr

inductive LinkState where
  | up | fenced | down
  deriving DecidableEq, Repr

/-- A fabric port (R216, R217, R219, R220): lanes lost, state, of the two directions the group counter and the number of the key, how
often the keys were derived again, flits of a group not yet complete, the groups sent that the peer has not accepted, by group counter,
the first group to be sent again after retraining and whether its tag failed there, the flits that wait for the port or for a credit of
their class, and the classes without a credit. -/
structure Link where
  lanesLost : Nat
  state   : LinkState
  counter : Nat
  received : Nat
  epoch   : Nat
  epochIn : Nat
  derived : Nat
  partialGroup : List Flit
  replay  : List (Nat × List Flit)
  resend  : Option (Nat × Bool)
  waiting : List Flit
  dry     : List Nat
  idle    : Nat                        -- FTIME of the last idle flit sent
  deriving DecidableEq, Repr

/-- The datagram state of a device pair (R233): the last SEQ sent, the highest received in order, those received beyond
it, and the datagrams not acknowledged with the time of their last sending. -/
structure Peer where
  sent    : Nat
  seen    : Nat
  beyond  : List Nat
  unacked : List (Datagram × Nat)
  deriving DecidableEq, Repr

/-- A page request in flight (R278). -/
structure PageReq where
  ctx   : Nat
  core  : Nat
  vf    : Nat
  pasid : Nat
  page  : Nat
  write : Bool
  value : Word
  deriving DecidableEq, Repr

/-- A memory whose corrected errors are counted, or a lane of a fabric port (R285, R316): by core, cluster, die and channel, port
and lane. -/
inductive MemUnit where
  | tcm (core : Nat)
  | pad (cluster : Nat)
  | code (cluster : Nat)
  | accumulators (core : Nat)
  | lut (core : Nat)
  | frames (core : Nat)
  | stacked (die : Nat)
  | faultQueue (die : Nat)
  | hbm (die channel : Nat)
  | lane (port lane : Nat)
  deriving DecidableEq, Repr

/-- The power states of R318, off, and the shutdown of R316. -/
inductive Power where
  | off | p0 | p1 | p2 | recovery | shutdown
  deriving DecidableEq, Repr

/-- Who sends a packet of the fabric, as its flits name it (R219): COREID of the core or service hart, and the tenant's VF
generation. -/
structure Via where
  src : Nat
  gen : BitVec 8
  deriving DecidableEq, Repr

/-- What leaves the device: to other devices of the pod, to other pods, to the host. -/
inductive Packet where
  | request (r : Request) (pos : Nat)
  | value (from_ : Via) (kind : Nat) (r : Nat) (core frame : Nat) (v : RVal)     -- kind: KIND of R221
  | acknowledge (from_ : Via) (r : Nat) (core frame : Nat)
  | notice (from_ : Via) (r : Nat) (core frame : Nat) (oid : BitVec 40) (n : Notice)
  | message (dest : Nat) (m : Msg)
  | reply (from_ : Via) (dest : Nat) (r : Reply)
  | hostReply (from_ : Via) (pos sender : Nat) (seq : BitVec 16) (st dtime : Nat) (words : List Word)
  | hostStage (from_ : Via) (pos sender : Nat) (seq : BitVec 16) (stage dtime : Nat)
  | announcement (a : Announcement)
  | objection (o : Objection)
  | arrive (from_ : Via) (b : HbarKey)
  | memberRead (gen : BitVec 8) (pos req coll : Nat) (oid : BitVec 40) (base len : Nat)
  | memberWrite (gen : BitVec 8) (pos req coll : Nat) (oid : BitVec 40) (base : Nat) (data : List Byte)
  | memberAnswer (from_ : Via) (req coll : Nat) (absent : Bool) (data : List Byte)
  | datagram (wire : List Byte) (d : Datagram)     -- its payload, and what it carries
  | translate (pasid page : Nat) (write : Bool)
  | invalidated (pasid page : Nat)
  | pageRequest (pasid : Nat) (addr : Nat) (write : Bool)
  | busRead (rid : Nat) (addr size : Nat)
  | busWrite (rid : Nat) (addr : Nat) (bytes : List Byte)
  | flush (core frame : Nat)
  | reservation (from_ : Via) (coreid : Nat) (urgent granted : Bool)
  | interrupt (vf vector : Nat)
  | response (tag : Word) (st : Int) (r0 r1 r2 : Word)
  | attestation (index : Nat) (block signature certificate : List Byte)
  | functions (total first stride pfVectors vfVectors : Nat)      -- what PF configuration space says of the functions (R292)
  | barData (vf offset : Nat) (bytes : List Byte)      -- vf 0: the PF's BAR
  | spdm (bytes : List Byte)
  | machineNotice (from_ : Via) (core : Nat) (eval : Word)       -- an uncorrectable error that a collective of another device's core met (R286)
  | poisonNotice (port group : Nat)
  | resend (port : Nat) (flits : List Flit)
  | idle (port : Nat)
  | tableRequest (group pos : Nat)
  | tdi (vf : Nat) (st : Tdi)
  deriving DecidableEq, Repr

/-- What the agenda lets happen next: an event of the table, the delivery of a message under way, the turn of a core, a write of the
host to its own memory, the root's gift of a capability or of a module's first version to a tenant's runtime (log 35), the kernel's
enrolment of a hardware barrier, another device's reservation of a queue entry (R74), its answer to a message of a host ring (R298), an
access of the host to a BAR (R293, R303) or a reading of PF configuration space (R292), a secured SPDM session that opens or closes
(R292), a path that has returned, the second link of a fixed path that is down (R218), what the other
end of a link says of a flit, of a group or of its credits (R217, R219, R220), what a bus device answers to a request of another device's
core (R113), a write of the root to a control store (R208), an error that a memory corrects on an access (R285), a reading of a ring
oscillator (R316), or an uncorrectable error that befalls a byte of memory or of a code store, or is met in a memory that no address names
(R286; log 4). -/
inductive Turn where
  | event (i : Instr)
  | deliver (n : Nat)
  | issue (core : Nat)
  | hostWrite (pasid addr : Nat) (bytes : List Byte)
  | grant (core frame : Nat) (r : BitVec 4) (i : Nat)
  | grantModule (core frame : Nat) (r : BitVec 4) (m : BitVec 24)
  | firstVersion (ctx : Nat) (m : BitVec 24) (image : List Byte)
  | enrol (b : HbarKey) (cores devices : List Nat)
  | reserve (core : Nat) (urgent : Bool) (src : Nat)
  | ringReply (vf ring : Nat) (seq : BitVec 16) (st dtime : Nat) (words : List Word)
  | ringStage (vf ring : Nat) (seq : BitVec 16) (stage dtime : Nat)
  | host (i : Instr)
  | pathReturns (pos : Nat)
  | resendAsked (port group i : Nat)
  | tagFailed (port group : Nat)
  | accepted (port group : Nat)
  | credit (port cls : Nat) (spent : Bool)
  | secondDown (dst : Nat)
  | busAnswer (rid : Nat) (bytes : List Byte)
  | bankWrite (cluster : Nat) (matrix bank : Bool) (bytes : List Byte)
  | barRead (vf offset size : Nat) (tenant : Bool)
  | pfWrite (offset : Nat) (bytes : List Byte)
  | pfRead (offset size : Nat)
  | configRead
  | session (secured : Bool)
  | upset (addr : Nat)
  | corrected (u : MemUnit)
  | uncorrected (u : MemUnit) (core : Nat)
  | oscillator (die i value : Nat)
  | upsetCode (cluster : Nat) (m : BitVec 24) (ver : BitVec 8) (off : Nat)
  deriving DecidableEq, Repr

/-- The device. -/
structure State where
  -- the model's own
  core     : Nat
  frame    : Nat
  agenda   : List Turn
  inflight : List Instr
  arrived  : List (Nat × Nat)                     -- requests under way that their homes hold, by issuer and number (R111, R222)
  busWaits : List (Nat × Request)                 -- requests of other devices that a bus device is to answer, by number (R113, R222)
  outbox   : List Packet
  engineTurn : Bool
  rotor    : Nat
  steps    : Nat
  fresh    : Nat
  nextId   : Nat
  kernelCode : List Byte
  kernelVector : BitVec 32
  pageOwner : List (Nat × Nat)                    -- page frame; the context that maps it
  -- the machine's
  pos      : Nat
  ftime    : Nat
  ftimeErr : Int
  cycles   : Nat
  power    : Power
  mem      : List Host.Cell
  tags     : List Nat
  keys     : List (Nat × Nat)                     -- 64-byte block of the encrypted tiers; the key it was written under (R118)
  bad      : List Nat
  badCode  : List (Nat × Nat × Nat × Nat)         -- cluster, module, version, code offset (R286)
  retired  : List Nat                             -- locations that have reported an uncorrectable error (R286)
  scrubAt  : Nat
  corrected : List (MemUnit × Nat)                -- corrected errors by memory and lane (R316)
  oscillators : List (Nat × Nat × Nat)            -- die, ring oscillator, what it was recorded at (R316)
  cores    : List (Nat × Core)
  clusters : List (Nat × Cluster)
  dies     : List (Nat × Die)
  contexts : List (Nat × Context)
  vfs      : List (Nat × Vf)
  hbars    : List (HbarKey × Hbar)
  groups   : List (Nat × Group)
  claims   : List (Nat × ClaimSlot)
  early    : List Objection                       -- objections whose announcement has not come yet (R243)
  refused  : List (Announcement × Nat)            -- announcements that took no slot here, and why (R253, R256)
  halyardLost : Bool
  declared : List (Nat × Nat)                     -- position, FTIME of the declaration
  unreachable : List Nat
  barWaits : List Request                         -- waiters of other devices (R334)
  discarded : List Request                        -- far stores behind a failed conversion whose records wait for room (R155, R276)
  eventMsgs : List (Nat × Msg)                    -- event messages that wait for a queue entry (R260)
  agroups  : List (Nat × AGroup)
  colls    : List (Nat × Coll)
  links    : List (Nat × Link)
  txbuf    : List (Nat × Nat × PodEntry)          -- pod, position, entry
  peers    : List (Nat × Peer)                    -- pod * 1024 + position
  pod      : Nat
  pageReqs : List PageReq
  routes   : List (Nat × Nat)                     -- device whose fixed path is down; the port its traffic moved to (R218)
  moves    : List (Nat × Nat)                     -- devices whose traffic is about to move, and to which port (R218)
  met      : List (Nat × Nat × Nat × BitVec 40)   -- what a core has dispatched, received or performed: core, KIND, source, object (R221)
  tainted  : List (Nat × Poison)                  -- core; poisoned messages that it has not met yet (R221)
  framed   : Nat                                  -- what leaves the device that has been put into flits (R219)
  pageDone : List PageReq                         -- answered Success; the records that wait for the page are being replayed (R278)
  pageLate : List (PageReq × Nat)                 -- answered, with the code, while the context is EVICTED (R278, R308)
  mbcmd    : List (Nat × Byte)                    -- the command block, as software has written it (R303)
  command  : Option (List Byte)                   -- the command that the root has taken
  busy     : Bool
  usedImages : List Word                          -- handles of images of other devices that have been restored (R305)
  linkIde  : Option Nat                           -- the key of the link's IDE stream (R292)
  secured  : Bool                                 -- a secured SPDM session stands (R292)
  bootKeys : Option (List Byte × List Byte)       -- the public identity and alias keys that the boot derived (R311)
  response : Option (Word × Int × Word × Word × Word)
  slotA    : List Byte                            -- firmware images in flash (R313)
  slotB    : List Byte
  slotSelect : Nat
  booted   : Option Nat
  secCounter : Nat
  spareRoot : Bool
  retiredGens : List (Nat × Nat × Nat × Nat)      -- source position, cluster, generation; until when (R310)
  retireAsked : Option Nat                        -- the member that the root has asked for the retirement group's table (R259)
  retire   : Group                                -- the retirement group (R259)
  deriving DecidableEq, Repr

/-- The general, vector, capability and mask registers of a clear frame (R83). -/
def Frame.clear : Frame where
  g := Vector.replicate 32 0
  c := Vector.replicate 16 Cap.null
  v := Vector.replicate 32 (Vector.replicate 32 0)
  k := Vector.replicate 8 0
  pc := 0
  ver := 0
  modid := 0
  cvt := false
  status := 0
  dlnext := 0
  clprio := 0
  qrowlen := 0
  barrot := 0
  rstat := 0
  clstat := 0
  amoerr := 0
  frec := 0
  fctx0 := 0x100          -- OF = 1 (R178)
  fctx1 := 0x3F8000003F800000
  state := .free
  ready := 0
  park := none
  wait := none
  entering := []
  txSlot := none
  txEntry := none
  relStores := false
  posted := []
  act := none
  trap := none
  saved := none
  faultSeq := 0
  pauseTo := 0

/-- A core after its reset (R84, R85, R266, R280). -/
def Core.reset : Core where
  frames := Vector.replicate 11 Frame.clear
  dslack := 100000
  fupc := 0
  epc := 0
  ecause := 0
  eval := 0
  sstatus := 0
  uquota := 53760025      -- WINDOW 210,000 at bit 8, PCT 25
  uwin := 53760025
  t1 := 50000
  t2 := 20000
  t3 := 1000000
  normalQ := []
  urgentQ := []
  promised := []
  serial := 0
  slots := []
  buffer := []
  deleting := []
  outgoing := []
  handling := false
  kernelRuns := false
  events := []
  poison := []
  starts := []
  faultSeq := 0
  born := 0
  winStart := 0
  winCount := 0
  exhausted := false
  nextJob := 0
  records := []
  tiles := []
  lut := []
  fifo := []
  balanceAt := 0

/-- A cluster that no context owns (R120, R205). -/
def Cluster.reset : Cluster where
  owner := none
  accepted := []
  turn := 0
  copyBank := false
  matBank := false
  stores := []
  channels := []
  jobs := []
  lastCore := 7
  running := none
  monitors := []
  errors := []
  worn := false
  free := 0

def Die.reset : Die := ⟨[], 0, [], [], [], [], [], [], [], 0, []⟩

/-- A ring after reset (R294): every register 0. -/
def Ring.reset : Ring := ⟨0, 0, 0, 0, 0, 0, 0, 0, 0, 0, 0, 0, true, 0, 0, [], [], []⟩

def Vf.reset : Vf := ⟨0, false, .unlocked, none, []⟩

/-- A claim group that no partition owns (R241, R242). -/
def Group.reset : Group := ⟨none, [], false, 8000, 0, false, []⟩

def ClaimSlot.reset : ClaimSlot := ⟨0, .free, ⟨0, 0, 0, 0, 0, 0, 0, [], []⟩, 0, [], [], false⟩

def Link.reset : Link := ⟨0, .up, 0, 0, 0, 0, 0, [], [], none, [], [], 0⟩

/-- A policy with nothing granted, and a context that holds nothing. -/
def Policy.empty : Policy := ⟨0, 0, 0, 0, 0, 0, 0, 0, 0, [], [], [], [], 0, [], []⟩

def Context.empty : Context where
  state := .gone
  policy := Policy.empty
  handle := 0
  queue := 0
  image := 0
  vf := 0
  pasid := 0
  keyid := 0
  gen := 0
  key := 0
  clusters := []
  tableOid := 0
  tableBase := 0
  tableLen := 0
  tableSpan := 0
  pageOid := 0
  windows := []
  refs := []
  modules := []
  locks := []
  convs := []
  ladder := none
  stopped := false
  struck := false
  slice := 0
  sliceAt := 0
  pausedAt := 0
  migration := none
  dirty := []
  imageSeq := 0
  saved := none
  teardown := none

/-- The device right after reset. -/
def State.reset : State where
  core := 0
  frame := 10
  agenda := []
  inflight := []
  arrived := []
  busWaits := []
  outbox := []
  engineTurn := false
  rotor := 0
  steps := 0
  fresh := 0
  nextId := 0
  kernelCode := []
  kernelVector := 0
  pageOwner := []
  pos := 0
  ftime := 0
  ftimeErr := 0
  cycles := 0
  power := .off
  mem := []
  tags := []
  keys := []
  bad := []
  badCode := []
  retired := []
  scrubAt := 0
  corrected := []
  oscillators := []
  cores := []
  clusters := []
  dies := []
  contexts := []
  vfs := []
  hbars := []
  groups := []
  claims := []
  early := []
  refused := []
  halyardLost := false
  declared := []
  unreachable := []
  barWaits := []
  discarded := []
  eventMsgs := []
  agroups := []
  colls := []
  links := []
  txbuf := []
  peers := []
  pod := 0
  pageReqs := []
  routes := []
  moves := []
  met := []
  tainted := []
  framed := 0
  pageDone := []
  pageLate := []
  mbcmd := []
  command := none
  busy := false
  usedImages := []
  linkIde := none
  secured := false
  bootKeys := none
  response := none
  slotA := []
  slotB := []
  slotSelect := 0
  booted := none
  secCounter := 0
  spareRoot := false
  retiredGens := []
  retireAsked := none
  retire := Group.reset

end Sys2Proof.Machine
end

