-- ==== Sys2Proof/Machine/Ops.lean ====
section
/-! DEFINITION. The named operations over registers, frames, cores and memory, through which every instruction acts;
taking a trap (R267) and returning from one (R268); how a check that fails ends an instruction. -/
namespace Sys2Proof.Machine

/-! ### Maps -/

/-- The value of key k in a map. -/
def look {α : Type} : List (Nat × α) → Nat → Option α
  | [], _ => none
  | (i, v) :: m, k => if i = k then some v else look m k

/-- A map with key k set to v; the keys stay in rising order. -/
def put {α : Type} : List (Nat × α) → Nat → α → List (Nat × α)
  | [], k, v => [(k, v)]
  | (i, w) :: m, k, v =>
    if k < i then (k, v) :: (i, w) :: m
    else if k = i then (k, v) :: m
    else (i, w) :: put m k v

/-- A map without key k. -/
def drop {α : Type} (m : List (Nat × α)) (k : Nat) : List (Nat × α) := m.filter (fun p => p.1 ≠ k)

/-- A set of numbers in rising order with n put in. -/
def insertNat : List Nat → Nat → List Nat
  | [], n => [n]
  | i :: m, n => if n < i then n :: i :: m else if n = i then i :: m else i :: insertNat m n

/-- The bits hi to lo of a number (R9). -/
def bitsOf (w hi lo : Nat) : Nat := w / 2 ^ lo % 2 ^ (hi + 1 - lo)

/-- Bits hi to lo of a number replaced. -/
def setField (b hi lo v : Nat) : Nat := b - bitsOf b hi lo * 2 ^ lo + v % 2 ^ (hi + 1 - lo) * 2 ^ lo

/-! ### Cores, clusters, dies, contexts -/

/-- The core with COREID bits 11 to 0 = n. -/
def State.coreAt (s : State) (n : Nat) : Core := (look s.cores n).getD Core.reset

def State.setCore (s : State) (n : Nat) (c : Core) : State := { s with cores := put s.cores n c }

/-- Frame f of a core (R66). -/
def Core.frameAt (c : Core) (f : Nat) : Frame := (c.frames[f]?).getD Frame.clear

def Core.setFrame (c : Core) (f : Nat) (fr : Frame) : Core := { c with frames := c.frames.setIfInBounds f fr }

def State.frameAt (s : State) (n f : Nat) : Frame := (s.coreAt n).frameAt f

def State.setFrame (s : State) (n f : Nat) (fr : Frame) : State := s.setCore n ((s.coreAt n).setFrame f fr)

/-- The frame whose instruction is executed. -/
def State.cur (s : State) : Frame := s.frameAt s.core s.frame

def State.setCur (s : State) (fr : Frame) : State := s.setFrame s.core s.frame fr

def State.curCore (s : State) : Core := s.coreAt s.core

def State.setCurCore (s : State) (c : Core) : State := s.setCore s.core c

/-- The cluster and the die of a core (R7). -/
def clusterOf (core : Nat) : Nat := core / 8 % 512

def dieOf (core : Nat) : Nat := core / 1024 % 4

def State.clusterAt (s : State) (n : Nat) : Cluster := (look s.clusters n).getD Cluster.reset

def State.setCluster (s : State) (n : Nat) (c : Cluster) : State := { s with clusters := put s.clusters n c }

def State.dieAt (s : State) (n : Nat) : Die := (look s.dies n).getD Die.reset

def State.setDie (s : State) (n : Nat) (d : Die) : State := { s with dies := put s.dies n d }

def State.ctxAt (s : State) (n : Nat) : Context := (look s.contexts n).getD Context.empty

def State.setCtx (s : State) (n : Nat) (c : Context) : State := { s with contexts := put s.contexts n c }

/-- The tenant a core belongs to (R120); 0 for a core that belongs to none. -/
def State.ctxOf (s : State) (core : Nat) : Nat := ((s.clusterAt (clusterOf core)).owner).getD 0

/-- The cores of a partition in ascending COREID order (R79). -/
def Context.cores (c : Context) : List Nat :=
  c.clusters.flatMap (fun k => (List.range 8).map (fun i => 8 * k + i))

def State.vfAt (s : State) (n : Nat) : Vf := (look s.vfs n).getD Vf.reset

def State.setVf (s : State) (n : Nat) (v : Vf) : State := { s with vfs := put s.vfs n v }

def State.ringAt (s : State) (vf r : Nat) : Ring := (look (s.vfAt vf).rings r).getD Ring.reset

def State.setRing (s : State) (vf r : Nat) (x : Ring) : State :=
  s.setVf vf { s.vfAt vf with rings := put (s.vfAt vf).rings r x }

def State.groupAt (s : State) (g : Nat) : Group :=
  if g = 64 then s.retire else (look s.groups g).getD Group.reset

def State.setGroup (s : State) (g : Nat) (x : Group) : State :=
  if g = 64 then { s with retire := x } else { s with groups := put s.groups g x }

def State.claimAt (s : State) (n : Nat) : ClaimSlot := (look s.claims n).getD ClaimSlot.reset

def State.setClaim (s : State) (n : Nat) (x : ClaimSlot) : State := { s with claims := put s.claims n x }

def State.linkAt (s : State) (n : Nat) : Link := (look s.links n).getD Link.reset

def State.setLink (s : State) (n : Nat) (x : Link) : State := { s with links := put s.links n x }

/-- COREID bits 21 to 0 of a core of this device (R7). -/
def State.coreid (s : State) (n : Nat) : Nat := s.pos * 4096 + n

/-- A packet leaves the device. -/
def State.emit (s : State) (p : Packet) : State := { s with outbox := s.outbox ++ [p] }

/-- A message gets under way inside the device. -/
def State.post (s : State) (i : Instr) : State := { s with inflight := s.inflight ++ [i] }

/-- A free value and the state in which the next one differs (log 5). -/
def State.freeValue (s : State) : Word × State := (Config.freeWord s.fresh, { s with fresh := s.fresh + 1 })

/-! ### Registers (R34) -/

/-- A general register; g0 reads zero. -/
def Frame.gpr (fr : Frame) (r : BitVec 5) : Word := if r = 0 then 0 else fr.g[r.toNat]'r.isLt

/-- A write of a general register; a write of g0 is discarded. -/
def Frame.setGpr (fr : Frame) (r : BitVec 5) (v : Word) : Frame :=
  if r = 0 then fr else { fr with g := fr.g.set r.toNat v r.isLt }

/-- A capability register; c0 is the null capability. -/
def Frame.cap (fr : Frame) (r : BitVec 4) : Cap := if r = 0 then Cap.null else fr.c[r.toNat]'r.isLt

def Frame.setCap (fr : Frame) (r : BitVec 4) (v : Cap) : Frame :=
  if r = 0 then fr else { fr with c := fr.c.set r.toNat v r.isLt }

def Frame.vreg (fr : Frame) (r : BitVec 5) : VReg := fr.v[r.toNat]'r.isLt

def Frame.setVreg (fr : Frame) (r : BitVec 5) (v : VReg) : Frame :=
  { fr with v := fr.v.set r.toNat v r.isLt }

/-- A mask register; k0 reads all ones. -/
def Frame.mask (fr : Frame) (r : BitVec 3) : Lane := if r = 0 then BitVec.allOnes 32 else fr.k[r.toNat]'r.isLt

/-- A write of a mask register; k0 is never written. -/
def Frame.setMask (fr : Frame) (r : BitVec 3) (v : Lane) : Frame :=
  if r = 0 then fr else { fr with k := fr.k.set r.toNat v r.isLt }

/-- The next instruction of a frame (R32). -/
def Frame.advance (fr : Frame) (n : Nat) : Frame := { fr with pc := fr.pc + BitVec.ofNat 32 n }

/-! ### Memory: bytes at flat addresses (R92, R108) -/

/-- What an address that is not listed reads as (log 2). -/
def unlisted : Byte := 0

/-- The canonical form: addresses strictly rising, no entry equal to what an unlisted address reads as. -/
def memWf : List Host.Cell → Bool
  | [] => true
  | (a, b) :: m =>
    decide (b ≠ unlisted) && (match m with | [] => true | (a', _) :: _ => decide (a < a')) && memWf m

/-- One byte. -/
def memGet : List Host.Cell → Nat → Byte
  | [], _ => unlisted
  | (i, b) :: m, a => if a = i then b else if a < i then unlisted else memGet m a

/-- One byte written; the canonical form is kept. -/
def memSet : List Host.Cell → Nat → Byte → List Host.Cell
  | [], a, v => if v = unlisted then [] else [(a, v)]
  | (i, b) :: m, a, v =>
    if a < i then (if v = unlisted then (i, b) :: m else (a, v) :: (i, b) :: m)
    else if a = i then (if v = unlisted then m else (i, v) :: m)
    else (i, b) :: memSet m a v

/-- The bytes bs written from address a up. -/
def memPut : List Host.Cell → Nat → List Byte → List Host.Cell
  | m, _, [] => m
  | m, a, b :: bs => memPut (memSet m a b) (a + 1) bs

/-- The n bytes from address a up. -/
def memBytes (m : List Host.Cell) (a n : Nat) : List Byte := (List.range n).map (fun i => memGet m (a + i))

/-- The little-endian value of the n bytes from address a up (R9). -/
def State.readNat (s : State) (a n : Nat) : Nat := leNat (memBytes s.mem a n)

/-- The granules that the n bytes from a up touch (R99). -/
def granules (a n : Nat) : List Nat :=
  if n = 0 then [] else (List.range ((a + n - 1) / 16 - a / 16 + 1)).map (fun i => a / 16 + i)

/-- Bytes are written and the tags of the granules they touch cleared; with a capability the granule's tag becomes the
capability's (R99). -/
def State.writeBytes (s : State) (a : Nat) (bs : List Byte) (cap : Option Cap) : State :=
  let cleared := s.tags.filter (fun g => !(granules a bs.length).contains g)
  { s with
    mem := memPut s.mem a bs
    tags := match cap with
      | some c => if c.tag then insertNat cleared (a / 16) else cleared
      | none => cleared }

/-- The capability as 16 bytes (R96): the low dword at the lower address. -/
def capNat (c : Cap) : Nat :=
  c.len.toNat + 2 ^ 36 * (c.base.toNat + 2 ^ 36 * (c.oid.toNat + 2 ^ 40 * (c.kind.toNat + 2 ^ 8 * c.rights.toNat)))

def capOf (tag : Bool) (n : Nat) : Cap where
  tag := tag
  rights := BitVec.ofNat 8 (bitsOf n 127 120)
  kind := BitVec.ofNat 8 (bitsOf n 119 112)
  oid := BitVec.ofNat 40 (bitsOf n 111 72)
  base := BitVec.ofNat 36 (bitsOf n 71 36)
  len := BitVec.ofNat 36 (bitsOf n 35 0)

/-- A flat address that does not exist, for an offset outside the memory that a descriptor names (log 77). -/
def noAddr (off : Nat) : Nat := 2 ^ 46 + off

/-- The flat address of a place in each tier: die memory, TCM, scratchpad, host memory by PASID, the PCI Express bus
(log 9). -/
def dieAddr (die local_ : Nat) : Nat := if local_ < 2 ^ 40 then die * 2 ^ 40 + local_ else noAddr local_

def tcmAddr (core off : Nat) : Nat := if off < 2 ^ 17 then 2 ^ 43 + core * 2 ^ 17 + off else noAddr off

def padAddr (cluster off : Nat) : Nat := if off < 2 ^ 21 then 2 ^ 44 + cluster * 2 ^ 21 + off else noAddr off

def hostAddr (pasid va : Nat) : Nat := 2 ^ 100 + pasid * 2 ^ 64 + va

def busAddr (a : Nat) : Nat := 2 ^ 90 + a

/-- The ranges of die-local physical addresses that exist (R108). -/
def localExists (a : Nat) : Bool :=
  decide (a < 0x80000000 ∨ (0x1000000000 ≤ a ∧ a < 0x2800000000))

/-- Whether a flat address exists (R92, R108). -/
def addrExists (a : Nat) : Bool :=
  if a < 2 ^ 42 then localExists (a % 2 ^ 40)
  else if a < 2 ^ 43 then false
  else if a < 2 ^ 44 then decide (a - 2 ^ 43 < 4096 * 2 ^ 17 ∧ (a - 2 ^ 43) / 2 ^ 20 % 128 < 96)
  else if a < 2 ^ 45 then decide (a - 2 ^ 44 < 512 * 2 ^ 21 ∧ (a - 2 ^ 44) / 2 ^ 21 % 128 < 96)
  else decide (2 ^ 90 ≤ a)

/-- The n bytes from a flat address up exist in one memory. -/
def spanExists (a n : Nat) : Bool :=
  let e := a + n - 1
  addrExists a && (n = 0 || (addrExists e &&
    (if a < 2 ^ 42 then a / 2 ^ 40 = e / 2 ^ 40
     else if a < 2 ^ 44 then a / 2 ^ 17 = e / 2 ^ 17
     else if a < 2 ^ 45 then a / 2 ^ 21 = e / 2 ^ 21
     else true)))

/-- The tier of a flat address (R92), as MACHINE's EVAL gives it. -/
def tierOf (a : Nat) : Nat :=
  if a < 2 ^ 42 then (if a % 2 ^ 40 < 0x80000000 then 2 else 3)
  else if a < 2 ^ 44 then 0 else if a < 2 ^ 45 then 1 else 4

/-- EVAL of MACHINE (R265): the tier and the die-local address or the offset within TCM or scratchpad. -/
def machineEval (a : Nat) : Word :=
  BitVec.ofNat 64 (tierOf a * 2 ^ 60 +
    (if a < 2 ^ 42 then a % 2 ^ 40 else if a < 2 ^ 44 then (a - 2 ^ 43) % 2 ^ 17 else (a - 2 ^ 44) % 2 ^ 21))

/-- An uncorrectable error among the n bytes from a up (R286). -/
def State.badAt (s : State) (a n : Nat) : Option Nat := s.bad.find? (fun x => decide (a ≤ x ∧ x < a + n))

/-! ### Trap causes (R265) -/

def ILLEGAL : BitVec 8 := 0x01
def PRIV : BitVec 8 := 0x02
def CAPTAG : BitVec 8 := 0x03
def CAPKIND : BitVec 8 := 0x04
def CAPBOUND : BitVec 8 := 0x05
def CAPRIGHT : BitVec 8 := 0x06
def ALIGN : BitVec 8 := 0x07
def STRAGGLER : BitVec 8 := 0x08
def LAYOUT : BitVec 8 := 0x09
def CONVFAIL : BitVec 8 := 0x0A
def BADTOKEN : BitVec 8 := 0x0B
def LATEOBJ : BitVec 8 := 0x0C
def AMOUNSUP : BitVec 8 := 0x0D
def REMOTEERR : BitVec 8 := 0x0E
def TRAPCODE : BitVec 8 := 0x10
def BKPTCODE : BitVec 8 := 0x11
def RESYNC : BitVec 8 := 0x12
def MACHINE : BitVec 8 := 0x13
def LINKFAIL : BitVec 8 := 0x14

/-- EVAL of CAPRIGHT (R450). -/
def rightEval (reason missing : Nat) : Word := BitVec.ofNat 64 (reason * 256 + missing)

/-! ### Taking a trap (R267) and returning (R268) -/

/-- EPC in link-value form (R141, R266). -/
def linkValue (ver : BitVec 8) (modid : BitVec 24) (off : BitVec 32) : Word := ver ++ modid ++ off

/-- Trap entry of a frame of core n (R267 steps 1 and 2): EPC, ECAUSE, EVAL and SSTATUS are written, KILL and SKIP are
cleared, and the supervisor frame becomes READY at the kernel's trap vector. -/
def State.enterTrap (s : State) (n f : Nat) (t : TrapRec) : State :=
  let c := s.coreAt n
  let fr := c.frameAt f
  let c := c.setFrame f { fr with trap := some { t with taken := true } }
  let sup := c.frameAt 10
  let c := c.setFrame 10 { sup with state := .ready, ready := s.ftime, pc := s.kernelVector, wait := none, park := none }
  s.setCore n { c with
    epc := linkValue fr.ver fr.modid fr.pc
    ecause := zext64 t.cause
    eval := t.eval
    sstatus := BitVec.ofNat 64 (f * 65536 + (if t.pk then 256 else 0))
    handling := true
    kernelRuns := true }

/-- A wait in place whose instruction ends before a stop, a purge or a trap from outside takes the frame (R331, R361,
R384, R392, R451). -/
def endsFirst : Option Wait → Bool
  | some .entering => true
  | some (.ack _) => true
  | some (.pushing _) => true
  | some (.ending _) => true
  | some (.purge _ (some _)) => true
  | some (.install _) => true
  | _ => false

/-- The frame of least number with a trap raised and not yet taken (R267 step 3); one that a hard purge raised in a
STOPPED frame waits for its restore (R159). -/
def Core.pendingTrap (c : Core) : Option (Nat × TrapRec) :=
  (List.range 11).findSome? (fun f =>
    let fr := c.frameAt f
    match fr.trap with
    | some t => if t.taken || t.later || endsFirst fr.wait then none else some (f, t)
    | none => none)

/-- A machine event's entry (R265, R267 step 4): EPC is 0 and TFRAME is 15 when no frame is named. -/
def State.enterEvent (s : State) (n : Nat) (e : MachEvent) : State :=
  let c := s.coreAt n
  let sup := c.frameAt 10
  let c := c.setFrame 10 { sup with state := .ready, ready := s.ftime, pc := s.kernelVector, wait := none, park := none }
  s.setCore n { c with
    epc := 0
    ecause := zext64 (if e.link then LINKFAIL else MACHINE)
    eval := e.eval
    sstatus := BitVec.ofNat 64 (e.frame * 65536)
    handling := true
    kernelRuns := true }

/-- The supervisor frame is busy with a trap or an event; one that waits after HALT takes the next (R367). -/
def Core.busy (c : Core) : Bool := c.handling && decide ((c.frameAt 10).wait ≠ some .halted)

/-- The supervisor frame takes the next trap or machine event of core n, when it is not handling one. -/
def State.takeNext (s : State) (n : Nat) : State :=
  let c := s.coreAt n
  if c.busy then s
  else match c.pendingTrap with
    | some (f, t) => s.enterTrap n f t
    | none =>
      match c.events with
      | e :: es => (s.setCore n { c with events := es }).enterEvent n e
      | [] => s

/-- A frame's trap is recorded: it stops issuing and stays in its state (R69). Its wait in place, if any, is abandoned with
what its instruction had gathered, but for one that ends first (R267 step 1, R65). -/
def Frame.trapped (fr : Frame) (cause : BitVec 8) (eval : Word) (pk : Bool) : Frame :=
  { fr with
    trap := some ⟨cause, eval, false, pk, false⟩
    wait := if endsFirst fr.wait then fr.wait else none
    park := match fr.park with
      | some _ => if fr.state = .parked ∨ fr.state = .stopped then some .abandoned else none
      | none => none }

/-- The reply slot and the entry that a frame's SEND holds are given back (R414, R418). -/
def State.dropSending (s : State) (n f : Nat) : State :=
  let c := s.coreAt n
  let fr := c.frameAt f
  let slots := match fr.txSlot with
    | some (i, seq) => put c.slots i ⟨false, seq, f, none, false, none⟩
    | none => c.slots
  s.setCore n { c.setFrame f { fr with txSlot := none, txEntry := none } with slots := slots }

/-- A location that has reported an uncorrectable error is retired (R286): it reports no more, and is replaced at the next
reassignment (log 75). -/
def State.retireAt (s : State) (a : Nat) : State := { s with bad := s.bad.filter (fun x => decide (x ≠ a)), retired := insertNat s.retired a }

/-- A precise trap of frame f of core n is raised and, when the supervisor frame is free, taken at once (R265, R267).
A trap of the supervisor frame itself is taken at once (log 15). -/
def State.raise (s : State) (n f : Nat) (cause : BitVec 8) (eval : Word) : State :=
  let s := if endsFirst (s.frameAt n f).wait then s else s.dropSending n f
  let s := s.setFrame n f ((s.frameAt n f).trapped cause eval false)
  if f = 10 then s.enterTrap n 10 ⟨cause, eval, false, false, false⟩ else s.takeNext n

/-- The monitor entry that a frame's WAITA holds frees (R443). -/
def State.freeMonitor (s : State) (n f : Nat) : State :=
  let k := clusterOf n
  let c := s.clusterAt k
  s.setCluster k { c with monitors := c.monitors.filter (fun q => decide (q ≠ (n, f))) }

/-- A collective whose frame no longer waits for it runs on without it (R378). -/
def State.orphan (s : State) (n f : Nat) : State :=
  { s with colls := s.colls.map (fun p => if p.2.core = n ∧ p.2.frame = f then (p.1, { p.2 with frame := 15 }) else p) }

/-- What a frame's instruction was waiting for is given up. -/
def State.abandon (s : State) (n f : Nat) : State := ((s.freeMonitor n f).orphan n f).dropSending n f

/-- A trap that abandons the wait of a PARKED frame, which stays PARKED (R69, R159, R266 PK). -/
def State.raiseParked (s : State) (n f : Nat) (cause : BitVec 8) (eval : Word) : State :=
  let s := s.abandon n f
  (s.setFrame n f ((s.frameAt n f).trapped cause eval true)).takeNext n

/-- A machine event of core n (R267 step 4). -/
def State.machine (s : State) (n : Nat) (link : Bool) (eval : Word) (frame : Nat) : State :=
  let c := s.coreAt n
  (s.setCore n { c with events := c.events ++ [⟨link, eval, frame⟩] }).takeNext n

/-- A cluster has had an uncorrectable error that its memories' addresses do not name (R317). -/
def State.wearCluster (s : State) (c : Nat) : State := s.setCluster c { s.clusterAt c with worn := true }

/-- The machine event of an uncorrectable error, which retires its location (R265, R286). -/
def State.memoryError (s : State) (n a : Nat) : State := (s.retireAt a).machine n false (machineEval a) 15

/-! ### What comes for the cores of an evicted context -/

/-- The evicted context that keeps a core in its image (R308). -/
def State.keeper (s : State) (n : Nat) : Option (Nat × Snapshot × Core) :=
  s.contexts.findSome? (fun p =>
    if p.2.state = .evicted then p.2.saved.bind (fun i => (look i.cores n).map (fun c => (p.1, i, c))) else none)

/-- The cores that images keep. -/
def State.storedCores (s : State) : List Nat :=
  s.contexts.flatMap (fun p => if p.2.state = .evicted then (p.2.saved.map (fun i => i.cores.map (·.1))).getD [] else [])

/-- What happens to core n: where it stands in the image of an evicted context it happens to the core there, to be found at the
restore (R281, R355, R372). -/
def State.onCore (s : State) (n : Nat) (g : State → State) : State :=
  match s.keeper n with
  | none => g s
  | some (k, img, c) =>
    let cl := clusterOf n
    let t := g ((s.setCore n c).setCluster cl { (look img.clusters cl).getD Cluster.reset with owner := some k })
    let img := { img with
      cores := put img.cores n (t.coreAt n)
      clusters := if (look img.clusters cl).isSome then put img.clusters cl { t.clusterAt cl with owner := (s.clusterAt cl).owner } else img.clusters }
    { t.setCtx k { t.ctxAt k with saved := some img } with cores := put t.cores n (s.coreAt n), clusters := put t.clusters cl (s.clusterAt cl) }

/-! ### Poisoned messages (R221) -/

/-- A poison record is about what KIND, source and object name. The source of a value, which names no object, is not known where it
arrives, nor is that of what the members of a collective send. -/
def poisonAbout (p : Poison) (kind src : Nat) (oid : BitVec 40) : Bool :=
  decide (p.kind = kind ∧ p.oid = oid) && (decide (kind = 3 ∨ kind = 6 ∨ kind = 8 ∨ (kind = 7 ∧ oid = 0)) || decide (p.src = src))

/-- A poisoned message that is about to be met. -/
def State.isTainted (s : State) (n kind src : Nat) (oid : BitVec 40) : Bool :=
  s.tainted.any (fun q => decide (q.1 = n ∨ kind = 8) && poisonAbout q.2 kind src oid)

/-- A core has dispatched a message, received a reply or a value, or performed a request; where it was poisoned, the core is
told. -/
def State.meet (s : State) (n kind src : Nat) (oid : BitVec 40) : State :=
  let s : State := { s with met := if s.met.contains (n, kind, src, oid) then s.met else s.met ++ [(n, kind, src, oid)] }
  match s.tainted.find? (fun q => decide (q.1 = n ∨ kind = 8) && poisonAbout q.2 kind src oid) with
  | some q => ({ s with tainted := s.tainted.erase q } : State).post (.poisonNotice n q.2)
  | none => s

/-! ### How an instruction ends -/

/-- A page fault of a frame's own access (R272). -/
structure PageFault where
  oid    : BitVec 40
  off    : Nat
  acc    : Acc
  host   : Bool
  write  : Bool
  denied : Bool
  hva    : Nat
  deriving DecidableEq, Repr

/-- The ways in which an instruction does not complete here: a precise trap, a page fault, a conversion, parking, a
wait in place, a translation to ask for, an address that does not exist, an uncorrectable error. -/
inductive Stop where
  | trap (cause : BitVec 8) (eval : Word)
  | page (f : PageFault)
  | convert (oid : BitVec 40) (home : Nat) (from_ : BitVec 16)
  | park (p : Park)
  | wait (w : Wait)
  | hole (addr : Nat)
  | bad (addr : Nat)
  deriving DecidableEq, Repr

abbrev Res (α : Type) := Except Stop α

/-- A wait that a stopped frame does not keep: its instruction begins again after restore (R337, R386, R402, R418,
R444). -/
def restarts : Park → Bool
  | .credit _ => true
  | .engine _ _ => true
  | .barrier _ _ _ => true
  | .waita _ _ _ _ _ => true
  | .remote _ _ (.tests _ _) => true       -- a BARANY, which tests the levels again (R337)
  | _ => false

/-- The ladder stops a frame that is PARKED, or parks on the way, with full state (R281); a WAITA's monitor entry
frees. -/
def State.stopParked (s : State) (n f : Nat) (p : Park) : State :=
  let fr := s.frameAt n f
  if restarts p then
    let s := (s.freeMonitor n f).dropSending n f
    s.setFrame n f { s.frameAt n f with state := .stopped, park := none, wait := none, saved := some ⟨.ready, false⟩ }
  else s.setFrame n f { fr with state := .stopped, park := some p, wait := none, saved := some ⟨.parked, false⟩ }

/-- Heave-to is pending for the partition of a core (R280, R281). -/
def State.heavePending (s : State) (n : Nat) : Bool :=
  match (s.ctxAt (s.ctxOf n)).ladder with
  | some l => l.stage ≠ .reef
  | none => false

/-- The frame parks (R70); a heave-to that is pending stops it there (R281). -/
def State.parkFrame (s : State) (n f : Nat) (p : Park) : State :=
  if s.heavePending n && f < 10 then s.stopParked n f p
  else s.setFrame n f { s.frameAt n f with state := .parked, park := some p, wait := none }

/-- ACC of R272. -/
def accCode : Acc → Nat
  | .load => 1 | .store => 2 | .atomic => 3 | .vload => 4 | .vstore => 5 | .cldc => 6 | .cstc => 7

/-- The frame parks in FAULT and its upcall is queued with the record of R272 (R271). -/
def State.pageFault (s : State) (n f : Nat) (p : PageFault) : State :=
  let c := s.coreAt n
  let fr := c.frameAt f
  let seq := c.faultSeq + 1
  let g1 := BitVec.ofNat 64 (p.oid.toNat + 2 ^ 40 * accCode p.acc +
    2 ^ 48 * (bitOf p.host + 2 * bitOf p.write + 4 * bitOf p.denied) + 2 ^ 56 * f)
  let inUp := match fr.act with
    | some a => (match a.kind with | .upcall _ => true | _ => false)
    | none => false
  let st := Start.frameFault (s.ctxOf n) f seq g1 (BitVec.ofNat 64 p.off) (linkValue fr.ver fr.modid fr.pc)
    (if p.host then BitVec.ofNat 64 p.hva else 0) inUp
  let c := c.setFrame f { fr with faultSeq := seq }
  (s.setCore n { c with faultSeq := seq, starts := c.starts ++ [st] }).parkFrame n f .fault

/-- A first touch that needs a converter (R151, R152): the frame parks, and a conversion that is not yet under way is
queued at the object's home. -/
def State.touch (s : State) (n f : Nat) (oid : BitVec 40) (home : Nat) (from_ : BitVec 16) : State :=
  let k := s.ctxOf n
  let x := s.ctxAt k
  let fr := s.frameAt n f
  let s := s.parkFrame n f (.convert oid)
  if x.convs.any (fun v => v.oid = oid) then s
  else
    let s := s.setCtx k { x with convs := x.convs ++ [⟨oid, home, none, []⟩] }
    let c := s.coreAt home
    s.setCore home { c with starts := c.starts ++ [.converter k oid fr.modid fr.ver from_ (some (n, f))] }

/-- A die asks the host for a translation (R112), once until the host has answered. -/
def State.askTranslation (s : State) (die pasid page : Nat) (write : Bool) : State :=
  let d := s.dieAt die
  if d.asked.any (fun q => decide (q.1 = pasid ∧ q.2.1 = page)) then s
  else (s.setDie die { d with asked := d.asked ++ [(pasid, page, write)] }).emit (.translate pasid page write)

/-- A wait in place (R72); one for a `.sys` release has the host port flush the frame's PCI Express writes (R125). -/
def State.waitHere (s : State) (n f : Nat) (w : Wait) : State :=
  let s := s.setFrame n f { s.frameAt n f with wait := some w, state := .running }
  match w with
  | .translation die pasid page write => s.askTranslation die pasid page write
  | .release 7 => s.emit (.flush n f)
  | .acks 7 => s.emit (.flush n f)
  | .sending 7 _ => s.emit (.flush n f)
  | _ => s

/-- How a check that fails ends the instruction of frame f of core n. -/
def State.stop (s : State) (n f : Nat) : Stop → Host.Outcome State Fault Refusal
  | .trap cause eval => .next (s.raise n f cause eval)
  | .page p => .next (s.pageFault n f p)
  | .convert oid home from_ => .next (s.touch n f oid home from_)
  | .park p => .next (s.parkFrame n f p)
  | .wait w => .next (s.waitHere n f w)
  | .hole a => .fault (.hole a)
  | .bad a => .next ((s.retireAt a).raise n f MACHINE (machineEval a))

/-- An instruction's end: the state it makes, or how the check that failed ends it. -/
def State.finish (s : State) (r : Res State) : Host.Outcome State Fault Refusal :=
  match r with
  | .ok t => .next t
  | .error e => s.stop s.core s.frame e

end Sys2Proof.Machine
end

