-- ==== Sys2Proof/Machine/Objects.lean ====
section
/-! DEFINITION. Objects: descriptors (R103), homes (R79, R105), page maps (R108), the versions that frames run in
(R138 to R142), and the checks made on every access through a capability (R101, R151). -/
namespace Sys2Proof.Machine

/-- A descriptor (R103), and for the object table itself the address at which it lies whole (R106; log 12). -/
structure Desc where
  xbase  : Nat
  pasid  : Nat
  keyid  : Nat
  layout : BitVec 16
  owner  : BitVec 24
  tier   : Nat
  hotrec : Bool
  pw     : Bool
  hb     : Bool
  pin    : Bool
  imm    : Bool
  hmode  : Nat
  scnt   : Nat
  home   : Nat
  slist  : Nat
  pmap   : Nat
  size   : Nat
  live   : Bool
  oid    : BitVec 40
  whole  : Option Nat
  pageReg : Bool
  deriving DecidableEq, Repr

/-- The fields of a descriptor's 64 bytes (R103, R104). -/
def descOf (w : Nat) : Desc where
  xbase := bitsOf w 511 448
  pasid := bitsOf w 447 428
  keyid := bitsOf w 427 420
  layout := BitVec.ofNat 16 (bitsOf w 419 404)
  owner := BitVec.ofNat 24 (bitsOf w 403 380)
  tier := bitsOf w 379 376
  hotrec := bitsOf w 372 372 = 1
  pw := bitsOf w 371 371 = 1
  hb := bitsOf w 370 370 = 1
  pin := bitsOf w 369 369 = 1
  imm := bitsOf w 368 368 = 1
  hmode := bitsOf w 367 366
  scnt := bitsOf w 365 354
  home := bitsOf w 353 332
  slist := bitsOf w 319 256
  pmap := bitsOf w 255 192
  size := bitsOf w 191 156
  live := bitsOf w 40 40 = 1
  oid := BitVec.ofNat 40 (bitsOf w 39 0)
  whole := none
  pageReg := false

/-- Where descriptor i of a context lies (R106). -/
def Context.descAddr (x : Context) (i : Nat) : Nat := dieAddr 0 (x.tableBase + 64 * i)

/-- The root's own objects: the object table (R106) and the page-request register (R278). -/
def Context.rootDesc (x : Context) (oid : BitVec 40) (page : Bool) : Desc :=
  { descOf 0 with
    oid := oid, live := true, owner := 0, tier := if page then 4 else 3,
    size := if page then 16 else x.tableSpan,
    whole := if page then none else some (dieAddr 0 x.tableBase), pageReg := page }

/-! ### Encryption of the stacked SRAM and HBM tiers (R118, R119) -/

/-- The region where the root keeps a tenant's object table, page maps behind the descriptors included (R106; log 12). -/
def Context.inTable (x : Context) (a : Nat) : Bool :=
  decide (dieAddr 0 x.tableBase ≤ a ∧ a < dieAddr 0 x.tableBase + max x.tableSpan (64 * x.tableLen))

/-- A 64-byte block of the encrypted tiers stands under a tenant's key: one that was written under it or, until it has been written
under any, one of the tenant's table. -/
def State.mine (s : State) (x : Context) (b : Nat) : Bool :=
  match look s.keys b with
  | some q => decide (q = x.key)
  | none => x.inTable (64 * b)

/-- One byte as it reads under a tenant's key; no other memory than the stacked SRAM and HBM tiers is encrypted. -/
def State.ctxByte (s : State) (x : Context) (a : Nat) : Byte :=
  if 2 ^ 42 ≤ a || s.mine x (a / 64) then memGet s.mem a
  else Config.garble x.key a (memBytes s.mem (a / 64 * 64) 64)

/-- The n bytes from an address up as they read under a tenant's key. -/
def State.ctxBytes (s : State) (x : Context) (a n : Nat) : List Byte := (List.range n).map (fun i => s.ctxByte x (a + i))

/-- Their little-endian value (R9). -/
def State.ctxNat (s : State) (x : Context) (a n : Nat) : Nat := leNat (s.ctxBytes x a n)

/-- One byte as a tenant reads it. -/
def State.plainByte (s : State) (k a : Nat) : Byte := s.ctxByte (s.ctxAt k) a

/-- The n bytes from an address up as a tenant reads them. -/
def State.plain (s : State) (k a n : Nat) : List Byte := s.ctxBytes (s.ctxAt k) a n

/-- The blocks that n bytes from an address up touch. -/
def blocksAt (a n : Nat) : List Nat :=
  if n = 0 then [] else (List.range ((a + n - 1) / 64 - a / 64 + 1)).map (fun i => a / 64 + i)

/-- The blocks of a range of bytes are under a key from now on. -/
def State.keyRange (s : State) (key a n : Nat) : State :=
  let bs := blocksAt a n
  match bs.head?, bs.getLast? with
  | some lo, some hi => { s with
      keys := s.keys.filter (fun p => decide (p.1 < lo)) ++ bs.map (fun b => (b, key)) ++ s.keys.filter (fun p => decide (hi < p.1)) }
  | _, _ => s

/-- A block that stands under another key holds, for the tenant that now writes a part of it, what it read there. -/
def State.rekey (s : State) (x : Context) (a n b : Nat) : State :=
  if s.mine x b = true ∨ (a ≤ 64 * b ∧ 64 * b + 64 ≤ a + n) then s
  else
    let old := memBytes s.mem (64 * b) 64
    { s with mem := memPut s.mem (64 * b) ((List.range 64).map (fun i => Config.garble x.key (64 * b + i) old)) }

/-- The blocks that a tenant's write touches come under its key (R118). -/
def State.encrypt (s : State) (k a n : Nat) : State :=
  let x := s.ctxAt k
  if 2 ^ 42 ≤ a || (blocksAt a n).all (s.mine x) then s
  else ((blocksAt a n).foldl (fun s b => s.rekey x a n b) s).keyRange x.key a n

/-! ### Descriptors -/

/-- Descriptor(OID) of R101: none where the table holds none. -/
def State.descAt (s : State) (x : Context) (oid : BitVec 40) : Option Desc :=
  if x.tableLen = 0 then none
  else if oid = x.tableOid then some (x.rootDesc oid false)
  else if oid = x.pageOid then some (x.rootDesc oid true)
  else if oid = 0 ∨ x.tableLen ≤ oid.toNat then none
  else some (descOf (s.ctxNat x (x.descAddr oid.toNat) 64))

/-- The object when it is live (R101). -/
def State.liveAt (s : State) (x : Context) (oid : BitVec 40) : Option Desc :=
  match s.descAt x oid with
  | some d => if d.live then some d else none
  | none => none

/-- The hash of R79. -/
def homeHash (oid : BitVec 40) : Nat := oid.toNat * 0x9E3779B97F4A7C15 % 2 ^ 64 / 2 ^ 32

/-- The stripe that holds an offset (R79); 0 for an object that is not striped. -/
def Desc.stripe (d : Desc) (off : Nat) : Nat := if d.hmode = 2 then off / 65536 else 0

/-- The home of a stripe, COREID bits 21 to 0 (R79, R105). The reserved HMODE 3 takes the explicit HOME, and never makes the object
far or exterior, which the spec does not say (log 89). -/
def State.homeOf (s : State) (x : Context) (d : Desc) (stripe : Nat) : Nat :=
  if d.whole.isSome then s.pos * 4096
  else if d.hmode = 1 then
    let p := x.cores
    s.pos * 4096 + (p[homeHash d.oid % p.length]?).getD 0
  else if d.hmode = 2 then s.ctxNat x (dieAddr 0 (d.slist + 4 * (stripe % d.scnt))) 4 % 2 ^ 22
  else d.home

/-- A far object's home lies on another device (R105). -/
def State.far (s : State) (d : Desc) : Bool := d.whole.isNone && !d.pageReg && d.hmode = 0 && d.home / 4096 ≠ s.pos

/-- An exterior object's route lies in another pod (R232). -/
def State.exterior (s : State) (d : Desc) : Bool :=
  d.whole.isNone && !d.pageReg && d.hmode = 0 && d.home / 4096 = s.pos && decide (96 ≤ d.home / 8 % 128)

/-- The address of a page-map entry (R108; log 9). -/
def pageEntryAddr (d : Desc) (page : Nat) : Nat := dieAddr 0 (d.pmap + 8 * page)

/-- A page-map entry (R108). -/
structure PageEntry where
  v     : Bool
  mig   : Bool
  ptier : Nat
  die   : Nat
  frame : Nat
  zero  : Bool
  deriving DecidableEq, Repr

def pageEntryOf (w : Nat) : PageEntry where
  v := bitsOf w 63 63 = 1
  mig := bitsOf w 62 62 = 1
  ptier := bitsOf w 61 60
  die := bitsOf w 25 24
  frame := bitsOf w 23 0
  zero := bitsOf w 59 26 = 0

def State.pageEntry (s : State) (x : Context) (d : Desc) (page : Nat) : PageEntry :=
  pageEntryOf (s.ctxNat x (pageEntryAddr d page) 8)

/-- Where the bytes at an object offset lie, for an agent on a die (R92, R93). -/
inductive Place where
  | here (addr : Nat) (paged : Option (BitVec 40 × Nat))
  | migrating (addr : Nat)                        -- MIG = 1: loads go on, stores wait (R111)
  | remote (home : Nat) (oid : BitVec 40)
  | host (pasid va : Nat)
  | bus (addr : Nat)
  | register
  | unmapped
  deriving DecidableEq, Repr

/-- A descriptor whose TIER is one of the reserved codes 5 to 15, or 4 without HB and PW, is taken as paged through PMAP, which the
spec does not say (log 88). -/
def State.placeOf (s : State) (x : Context) (d : Desc) (off die : Nat) : Place :=
  if d.pageReg then .register
  else match d.whole with
  | some a => if die = 0 then .here (a + off) none else .remote (s.pos * 4096) d.oid
  | none =>
    if d.pw then .bus (d.xbase + off)
    else if d.hb then .host d.pasid (d.xbase + off)
    else if s.far d then .remote d.home (BitVec.ofNat 40 d.xbase)
    else
      let h := s.homeOf x d (d.stripe off)
      if dieOf h ≠ die then .remote h d.oid
      else if d.tier = 0 then .here (tcmAddr (h % 4096) (d.pmap + off)) none
      else if d.tier = 1 then .here (padAddr (clusterOf h) (d.pmap + off)) none
      else
        let e := s.pageEntry x d (off / 65536)
        if !e.v then .unmapped
        else if e.mig then .migrating (dieAddr e.die (e.frame * 65536 + off % 65536))
        else .here (dieAddr e.die (e.frame * 65536 + off % 65536)) (some (d.oid, off / 65536))

/-! ### Versions -/

/-- The resident versions of a module, the staged one included. -/
def Context.moduleAt (x : Context) (m : BitVec 24) : Module := (look x.modules m.toNat).getD ⟨none, none, false, false⟩

def Context.setModule (x : Context) (m : BitVec 24) (y : Module) : Context :=
  { x with modules := put x.modules m.toNat y }

/-- The imago of a module (R138). -/
def Context.imago (x : Context) (m : BitVec 24) : Option Version := (x.moduleAt m).imago

/-- The version of a module that has a number and is the imago or the exuvia (R143). -/
def Context.entered (x : Context) (m : BitVec 24) (ver : BitVec 8) : Option Version :=
  let y := x.moduleAt m
  match y.imago with
  | some v => if v.ver = ver then some v else
      (match y.other with
       | some w => if y.exuvia ∧ w.ver = ver then some w else none
       | none => none)
  | none => none

/-- EXU of VCTX: the version is the module's exuvia (R140). -/
def Context.isExuvia (x : Context) (m : BitVec 24) (ver : BitVec 8) : Bool :=
  let y := x.moduleAt m
  y.exuvia && (match y.other with | some w => w.ver = ver | none => false)

/-- The version a frame runs in (R140). -/
def State.versionOf (s : State) (core : Nat) (fr : Frame) : Option Version :=
  (s.ctxAt (s.ctxOf core)).entered fr.modid fr.ver

/-- VCTX (R140); the supervisor frame reads 0. -/
def State.vctx (s : State) (core f : Nat) : Word :=
  let fr := s.frameAt core f
  if f = 10 then 0
  else BitVec.ofNat 64 (fr.ver.toNat * 2 ^ 56 + fr.modid.toNat * 2 ^ 32 +
    2 * bitOf ((s.ctxAt (s.ctxOf core)).isExuvia fr.modid fr.ver) + bitOf fr.cvt)

/-- The layout of a frame's version (R139). -/
def State.layoutOf (s : State) (core : Nat) (fr : Frame) : BitVec 16 :=
  match s.versionOf core fr with
  | some v => v.layout
  | none => 0

/-- EVAL of LAYOUT, CONVFAIL and an access's STRAGGLER (R151). -/
def layoutEval (version object : BitVec 16) : Word := BitVec.ofNat 64 (version.toNat * 65536 + object.toNat)

/-! ### The checks of R101 and R151 -/

def rightR : BitVec 8 := 1
def rightW : BitVec 8 := 2
def rightS : BitVec 8 := 4
def rightC : BitVec 8 := 8
def rightI : BitVec 8 := 16
def rightO : BitVec 8 := 32
def rightM : BitVec 8 := 64
def rightK : BitVec 8 := 128

/-- The agent that an instruction names for an access: a frame, the copy unit of its cluster, or another engine
(R93). -/
inductive Agent where
  | frame | copyUnit | engine
  deriving DecidableEq, Repr

/-- ReachRefused of R101: an exterior object; tier 0 for an agent that does not reach it; the root's register for
an engine; host-backed and kind 6 objects where the instruction refuses them. -/
def State.reachRefused (s : State) (core : Nat) (d : Desc) (who : Agent) (noHost : Bool) : Bool :=
  s.exterior d ||
  (d.tier = 0 && d.whole.isNone && !d.hb && !d.pw &&
    (match who with
     | .frame => s.far d || decide (d.home % 4096 ≠ core)
     | .copyUnit => s.far d || decide (clusterOf d.home ≠ clusterOf core)
     | .engine => true)) ||
  (d.pageReg && who ≠ .frame) ||
  (noHost && (d.hb || d.pw || d.pageReg))

/-- The checks on the capability alone, in the order of R101, up to the bounds. Answers the offset in the object. -/
def capCheck (c : Cap) (off : Int) (size align : Nat) (need : BitVec 8) (kinds : List Nat) : Res Nat :=
  if c.tag = false then .error (.trap CAPTAG 0)
  else if !kinds.contains c.kind.toNat then .error (.trap CAPKIND 0)
  else if need &&& ~~~c.rights ≠ 0 then .error (.trap CAPRIGHT (rightEval 0 (need &&& ~~~c.rights).toNat))
  else
    let a : Int := c.base.toNat + off
    if a % align ≠ 0 then .error (.trap ALIGN (BitVec.ofInt 64 a))
    else if off < 0 ∨ (c.len.toNat : Int) < off + size then .error (.trap CAPBOUND (BitVec.ofInt 64 off))
    else .ok a.toNat

/-- Access of R101 up to the choice of the home: the object's descriptor and the offset within it. -/
def State.access (s : State) (core : Nat) (c : Cap) (off : Int) (size align : Nat) (need : BitVec 8)
    (kinds : List Nat) (who : Agent) (noHost : Bool) : Res (Desc × Nat) :=
  match capCheck c off size align need kinds with
  | .error e => .error e
  | .ok a =>
    match s.liveAt (s.ctxAt (s.ctxOf core)) c.oid with
    | none => .error (.trap CAPTAG 0)
    | some d =>
      if s.reachRefused core d who noHost then .error (.trap CAPKIND 0)
      else if need &&& rightW ≠ 0 ∧ d.imm then .error (.trap CAPRIGHT (rightEval 1 0))
      else .ok (d, a)

/-- LayoutCheck of R151 for an object of this device; a far object is checked at its home. The supervisor frame, whose VCTX names no
version, makes no check, which the spec does not say (log 90). -/
def State.layoutCheck (s : State) (core f : Nat) (c : Cap) (d : Desc) : Res Unit :=
  let fr := s.frameAt core f
  let own := match fr.act with
    | some a => (match a.kind with | .converter o _ => o = d.oid | _ => false)
    | none => false
  if c.kind ≠ 1 ∨ f = 10 ∨ s.far d ∨ d.whole.isSome ∨ d.pageReg then .ok ()
  else if fr.cvt && own then .ok ()
  else if d.owner ≠ fr.modid then .ok ()
  else
    let x := s.ctxAt (s.ctxOf core)
    let lv := s.layoutOf core fr
    if d.layout = lv then .ok ()
    else if lv < d.layout then .error (.trap STRAGGLER (layoutEval lv d.layout))
    else
      match s.versionOf core fr with
      | none => .error (.trap LAYOUT (layoutEval lv d.layout))
      | some v =>
        match look v.convs d.layout.toNat with
        | none => .error (.trap LAYOUT (layoutEval lv d.layout))
        | some _ => .error (.convert d.oid (s.homeOf x d 0 % 4096) d.layout)

end Sys2Proof.Machine
end

