-- ==== Sys2Proof/Machine/Operands.lean ====
section
/-! DEFINITION. The operand forms: immediates, 32-bit variants, shift amounts, branch targets, memory offsets, guarded
lanes; and the ways a register result ends an instruction. -/
namespace Sys2Proof.Machine

/-- The result of an operation at 64 bits, or with W32 at 32 bits of the low halves, sign-extended (R37, R170). -/
def atWidth (w : BitVec 1) (f64 : Word → Word → Word) (f32 : Lane → Lane → Lane) (a b : Word) : Word :=
  if w = 1 then (f32 (a.setWidth 32) (b.setWidth 32)).signExtend 64 else f64 a b

/-- SignExtend(IMM12, 12) (R38). -/
def imm12 (i : BitVec 12) : Word := i.signExtend 64

/-- The target of a branch with a signed offset in halfwords (R35, R41). -/
def target {n : Nat} (pc : BitVec 32) (off : BitVec n) : BitVec 32 := pc + BitVec.ofInt 32 (2 * off.toInt)

/-- The byte offset of an M-format access: OFF10 signed, times the size (R40). -/
def off10 (o : BitVec 10) (size : Nat) : Int := o.toInt * size

/-- The size in bytes that SZ gives (R40, R57). -/
def sizeOf2 (z : BitVec 2) : Nat := 2 ^ z.toNat

/-- The loaded bytes as a register value: zero- or sign-extended (R371). -/
def extendLoad (size : Nat) (signed : Bool) (v : Nat) : Word :=
  if signed then
    (if size = 1 then (BitVec.ofNat 8 v).signExtend 64 else if size = 2 then (BitVec.ofNat 16 v).signExtend 64
     else if size = 4 then (BitVec.ofNat 32 v).signExtend 64 else BitVec.ofNat 64 v)
  else BitVec.ofNat 64 (v % 2 ^ (8 * size))

/-- The index register of an MX access, as a signed byte offset (R40, R101). -/
def indexOff (fr : Frame) (g : BitVec 5) : Int := (fr.gpr g).toInt

/-- Whether lane l is guarded by mask register k: k0 selects all lanes (R55). -/
def Frame.guards (fr : Frame) (k : BitVec 3) (l : Nat) : Bool := (fr.mask k).getLsbD l

/-- A vector whose guarded lanes are f's and whose other lanes are kept (R171). -/
def Frame.lanewise (fr : Frame) (k : BitVec 3) (old : VReg) (f : Nat → Lane) : VReg :=
  Vector.ofFn (fun i => if fr.guards k i.val then f i.val else old[i])

/-- Lane l of a vector. -/
def lane (v : VReg) (l : Nat) : Lane := (v[l]?).getD 0

/-- The instruction writes a general register and the frame goes on. -/
def State.writeG (s : State) (d : BitVec 5) (v : Word) (len : Nat) : State :=
  s.setCur ((s.cur.setGpr d v).advance len)

def State.writeC (s : State) (d : BitVec 4) (v : Cap) (len : Nat) : State :=
  s.setCur ((s.cur.setCap d v).advance len)

def State.writeV (s : State) (d : BitVec 5) (v : VReg) (len : Nat) : State :=
  s.setCur ((s.cur.setVreg d v).advance len)

/-- The instruction changes nothing but the pc. -/
def State.skip (s : State) (len : Nat) : State := s.setCur (s.cur.advance len)

/-- The instruction jumps. -/
def State.jump (s : State) (pc : BitVec 32) : State := s.setCur { s.cur with pc := pc }

/-- Status(v) of R11: the status is written and the frame goes on. -/
def State.status (s : State) (d : BitVec 5) (v : Int) (len : Nat) : State := s.writeG d (Sys2Proof.status v) len

/-- The link value of a call (R141, R345); the supervisor frame's carries VER 0 and MODID 0 (R346). -/
def State.link (s : State) : Word :=
  let fr := s.cur
  if s.frame = 10 then linkValue 0 0 (fr.pc + 4) else linkValue fr.ver fr.modid (fr.pc + 4)

/-- The capability of a version's constant table that frames get in c3: rights R and C, and LEN 4,096 (R150). -/
def tableCap (v : Version) : Cap := ⟨true, rightR ||| rightC, 1, v.table, 0, 4096⟩

/-- A frame enters a version at an offset (R142). -/
def Frame.enter (fr : Frame) (m : BitVec 24) (v : Version) (pc : BitVec 32) : Frame :=
  { fr with ver := v.ver, modid := m, pc := pc, c := fr.c.set 3 (tableCap v) }

end Sys2Proof.Machine
end

