-- ==== Sys2Proof/Machine/Flags.lean ====
section
/-! DEFINITION. The Goane has no flags register. What takes its place: the conditions of branches and comparisons
(R41, R419), and the fields of the status registers that the device writes: STATUS (R84), CLSTAT (R251) and AMOERR
(R224). -/
namespace Sys2Proof.Machine

/-- The conditions of BCC (R338): EQ, NE, LT, GE signed, LTN, GEN unsigned. -/
def condEq (a b : Word) : Bool := a == b
def condNe (a b : Word) : Bool := a != b
def condLt (a b : Word) : Bool := a.slt b
def condGe (a b : Word) : Bool := !a.slt b
def condLtn (a b : Word) : Bool := a.ult b
def condGen (a b : Word) : Bool := !a.ult b

/-- A condition as a value, 1 or 0 (R419). -/
def boolWord {n : Nat} (b : Bool) : BitVec n := if b then 1 else 0

/-- STATUS at the start of an activation (R84): late, urgent, stateless, reply wanted. -/
def statusAt (late urgent sl rq : Bool) : Word :=
  BitVec.ofNat 64 (bitOf late + 2 * bitOf urgent + 4 * bitOf sl + 8 * bitOf rq)

/-- STATUS after an MTS, which changes OVD only (R84). -/
def statusMts (old new : Word) : Word := (old &&& ~~~1) ||| (new &&& 1)

/-- CLSTAT (R251). -/
def clstatAt (valid stale : Bool) : Word := BitVec.ofNat 64 (bitOf valid + 2 * bitOf stale)

/-- AMOERR after one more failure with a code (R224): CODE and OBJID are the first failure's, COUNT saturates. -/
def amoerrAdd (old : Word) (code : Nat) (oid : BitVec 40) : Word :=
  let count := bitsOf old.toNat 63 48
  if count = 0 then BitVec.ofNat 64 (2 ^ 48 + code * 2 ^ 44 + oid.toNat)
  else BitVec.ofNat 64 ((min (count + 1) 0xFFFF) * 2 ^ 48 + old.toNat % 2 ^ 48)

end Sys2Proof.Machine
end

