-- ==== Sys2Proof/Machine/Float.lean ====
section
/-! DEFINITION. The floating formats (R166 to R168) as exact numbers with one rounding (R171 to R173), and the
transcendental functions (R176), computed by enclosures that are refined until both ends round to the same value. -/
namespace Sys2Proof.Machine

/-- A floating value: NaN, an infinity, or (-1)^neg m 2^e. -/
inductive Fp where
  | nan
  | inf (neg : Bool)
  | num (neg : Bool) (m : Nat) (e : Int)
  deriving DecidableEq, Repr

/-- A format (R166): widths of exponent and fraction, bias, the encoding of the greatest finite magnitude, the encoding
of infinity if there is one, the canonical NaN if there is one, and the least magnitude encoding that is a NaN. -/
structure Fmt where
  ew   : Nat
  fw   : Nat
  bias : Int
  top  : Nat
  inf  : Option Nat
  nan  : Option Nat
  nanFrom : Nat
  deriving DecidableEq, Repr

def f32 : Fmt := ⟨8, 23, 127, 0x7F7FFFFF, some 0x7F800000, some 0x7FC00000, 0x7F800001⟩
def f16 : Fmt := ⟨5, 10, 15, 0x7BFF, some 0x7C00, some 0x7E00, 0x7C01⟩
def bf16 : Fmt := ⟨8, 7, 127, 0x7F7F, some 0x7F80, some 0x7FC0, 0x7F81⟩
def e4m3 : Fmt := ⟨4, 3, 7, 0x7E, none, some 0x7F, 0x7F⟩
def e5m2 : Fmt := ⟨5, 2, 15, 0x7B, some 0x7C, some 0x7E, 0x7D⟩
def e2m1 : Fmt := ⟨2, 1, 1, 7, none, none, 8⟩
def e8m10 : Fmt := ⟨8, 10, 127, 0x3FBFF, none, some 0x3FE00, 0x3FC00⟩

/-- Rounding modes (R59). -/
inductive Rm where
  | rne | rtz | rdn | rup
  deriving DecidableEq, Repr

def rmOf (r : BitVec 2) : Rm := if r = 0 then .rne else if r = 1 then .rtz else if r = 2 then .rdn else .rup

/-- The value of an encoding (R166). -/
def Fmt.value (t : Fmt) (bits : Nat) : Fp :=
  let neg := bitsOf bits (t.ew + t.fw) (t.ew + t.fw) = 1
  let mag := bits % 2 ^ (t.ew + t.fw)
  if t.nanFrom ≤ mag then .nan
  else if t.inf = some mag then .inf neg
  else
    let e := mag / 2 ^ t.fw
    let f := mag % 2 ^ t.fw
    if e = 0 then .num neg f (1 - t.bias - t.fw) else .num neg (2 ^ t.fw + f) (e - t.bias - t.fw)

/-- m 2^e in units of 2^q, rounded to an integer (R173 step 2). -/
def roundUnits (rm : Rm) (neg : Bool) (m : Nat) (e q : Int) : Nat :=
  if q ≤ e then m * 2 ^ (e - q).toNat
  else
    let d := (q - e).toNat
    let n := m / 2 ^ d
    let r := m % 2 ^ d
    let up := match rm with
      | .rne => decide (2 ^ d < 2 * r ∨ (2 * r = 2 ^ d ∧ n % 2 = 1))
      | .rtz => false
      | .rdn => neg && decide (r ≠ 0)
      | .rup => !neg && decide (r ≠ 0)
    if up then n + 1 else n

/-- The magnitude encoding nearest to m 2^e under a mode, on the subnormal grid where needed; it may lie above the
format's greatest. -/
def Fmt.magnitude (t : Fmt) (rm : Rm) (neg : Bool) (m : Nat) (e : Int) : Nat :=
  if m = 0 then 0
  else
    let low := 1 - t.bias - t.fw
    let q := max (m.log2 + e - t.fw) low
    ((q - low).toNat) * 2 ^ t.fw + roundUnits rm neg m e q

/-- The sign bit of a format. -/
def Fmt.signBit (t : Fmt) (neg : Bool) : Nat := if neg then 2 ^ (t.ew + t.fw) else 0

/-- The NaN that an operation writes (R168, R173). -/
def Fmt.canonical (t : Fmt) : Nat := t.nan.getD 0

/-- What an overflow gives (R173 step 3). -/
def Fmt.overflow (t : Fmt) (sat neg : Bool) : Nat :=
  if sat then t.signBit neg + t.top
  else match t.inf, t.nan with
    | some i, _ => t.signBit neg + i
    | none, some n => n
    | none, none => t.signBit neg + t.top

/-- A mode that rounds toward zero for a sign (R173 step 3). -/
def towardZero (rm : Rm) (neg : Bool) : Bool :=
  match rm with
  | .rne => false
  | .rtz => true
  | .rdn => !neg
  | .rup => neg

/-- A value rounded once to a format. -/
def Fmt.round (t : Fmt) (rm : Rm) (sat : Bool) : Fp → Nat
  | .nan => t.canonical
  | .inf neg => t.overflow sat neg
  | .num neg m e =>
    let g := t.magnitude rm neg m e
    if g ≤ t.top then t.signBit neg + g
    else if towardZero rm neg then t.signBit neg + t.top
    else t.overflow sat neg

/-- RoundRNE(x, f32). -/
def lane32 (x : Fp) : Lane := BitVec.ofNat 32 (f32.round .rne false x)

def fpOf (x : Lane) : Fp := f32.value x.toNat

/-! ### Exact operations with IEEE special values (R171) -/

def Fp.neg : Fp → Fp
  | .nan => .nan
  | .inf n => .inf !n
  | .num n m e => .num (!n) m e

/-- The exact sum; an exact zero sum is +0 unless both addends are -0. -/
def Fp.add : Fp → Fp → Fp
  | .nan, _ => .nan
  | _, .nan => .nan
  | .inf a, .inf b => if a = b then .inf a else .nan
  | .inf a, _ => .inf a
  | _, .inf b => .inf b
  | .num a m e, .num b n g =>
    let l := min e g
    let x : Int := (if a then -1 else 1) * (m * 2 ^ (e - l).toNat) + (if b then -1 else 1) * (n * 2 ^ (g - l).toNat)
    if x = 0 then .num (a && b) 0 l else .num (decide (x < 0)) x.natAbs l

/-- The exact product. -/
def Fp.mul : Fp → Fp → Fp
  | .nan, _ => .nan
  | _, .nan => .nan
  | .inf a, .inf b => .inf (a != b)
  | .inf a, .num b m _ => if m = 0 then .nan else .inf (a != b)
  | .num a m _, .inf b => if m = 0 then .nan else .inf (a != b)
  | .num a m e, .num b n g => .num (a != b) (m * n) (e + g)

/-- Less than, of values that are not NaN; the zeros are equal. -/
def Fp.lt : Fp → Fp → Bool
  | .nan, _ => false
  | _, .nan => false
  | .inf a, .inf b => a && !b
  | .inf a, .num _ _ _ => a
  | .num _ _ _, .inf b => !b
  | .num a m e, .num b n g =>
    let l := min e g
    decide ((if a then -1 else 1) * ((m * 2 ^ (e - l).toNat : Nat) : Int) <
      (if b then -1 else 1) * ((n * 2 ^ (g - l).toNat : Nat) : Int))

def Fp.isNan : Fp → Bool
  | .nan => true
  | _ => false

def addF (a b : Lane) : Lane := lane32 ((fpOf a).add (fpOf b))
def subF (a b : Lane) : Lane := lane32 ((fpOf a).add (fpOf b).neg)
def mulF (a b : Lane) : Lane := lane32 ((fpOf a).mul (fpOf b))
/-- a times b plus d, or minus it plus d, rounded once (R434). -/
def fmaF (neg : Bool) (a b d : Lane) : Lane :=
  let p := (fpOf a).mul (fpOf b)
  lane32 ((if neg then p.neg else p).add (fpOf d))

/-- An order in which -0 stands before +0 (R172). -/
def orderF (x : Lane) : Int := if x.getLsbD 31 then -1 - (x.toNat % 2 ^ 31 : Nat) else (x.toNat : Int)

/-- VMIN and VMAX of f32 (R172). -/
def minF (a b : Lane) : Lane :=
  if (fpOf a).isNan || (fpOf b).isNan then 0x7FC00000 else if orderF b < orderF a then b else a
def maxF (a b : Lane) : Lane :=
  if (fpOf a).isNan || (fpOf b).isNan then 0x7FC00000 else if orderF a < orderF b then b else a

/-! ### Conversions (R173) -/

/-- A value rounded to an integer and clamped to the bounds. -/
def toBounds (rm : Rm) (lo hi : Int) : Fp → Int
  | .nan => 0
  | .inf neg => if neg then lo else hi
  | .num neg m e =>
    let n : Int := roundUnits rm neg m e 0
    max lo (min hi (if neg then -n else n))

/-- The formats of VCVT by their codes (R59), with the two integer types apart. -/
def fmtOf (c : BitVec 3) : Fmt :=
  if c = 0 then f32 else if c = 3 then bf16 else if c = 4 then f16 else if c = 5 then e4m3
  else if c = 6 then e5m2 else e2m1

/-- An integer as an exact value. -/
def fpInt (i : Int) : Fp := .num (decide (i < 0)) i.natAbs 0

/-- One lane of VCVT: t destination, u source (R173, R59). With equal formats R59's copy takes the whole lane, the bits of a NaN and
those above a narrow format included: the model's choice between R59 and R173 (log 100). -/
def convertLane (sat : Bool) (t u : BitVec 3) (rm : Rm) (a : Lane) : Lane :=
  if t = u then a
  else
    let x := if u = 1 then fpInt a.toInt else if u = 2 then fpInt a.toNat
      else (fmtOf u).value (a.toNat % 2 ^ (1 + (fmtOf u).ew + (fmtOf u).fw))
    if t = 1 then BitVec.ofInt 32 (toBounds rm (-2147483648) 2147483647 x)
    else if t = 2 then BitVec.ofInt 32 (toBounds rm 0 4294967295 x)
    else BitVec.ofNat 32 ((fmtOf t).round rm sat x)

/-! ### Transcendental functions (R176)

Fixed-point numbers with p fractional bits. Each function answers a value and a bound on its error, in units of the
last place. -/

/-- The powers z^(2k+1)/(2k+1) of an arctangent of 1/n, summed with alternating signs (p fractional bits). -/
def atanSum : Nat → Nat → Nat → Nat → Bool → Int
  | 0, _, _, _, _ => 0
  | fuel + 1, t, n2, k, neg =>
    if t = 0 then 0
    else (if neg then -((t / k : Nat) : Int) else ((t / k : Nat) : Int)) + atanSum fuel (t / n2) n2 (k + 2) (!neg)

def atanInv (p n : Nat) : Int := atanSum p (2 ^ p / n) (n * n) 1 false

/-- Pi with p fractional bits, off by less than 1 unit (Machin's formula with 64 guard bits). -/
def piFix (p : Nat) : Nat := ((16 * atanInv (p + 64) 5 - 4 * atanInv (p + 64) 239) / 2 ^ 64).toNat

/-- The sum of t r/k + t r^2/(k (k+1)) ... : the exponential series of r from a term on. -/
def expSum (p r : Nat) : Nat → Nat → Nat → Nat
  | 0, _, _ => 0
  | fuel + 1, t, k => if t = 0 then 0 else t + expSum p r fuel (t * r / 2 ^ p / k) (k + 1)

/-- The alternating series of sine or cosine: t - t r^2/(k (k+1)) + ... -/
def trigSum (p r2 : Nat) : Nat → Nat → Nat → Bool → Int
  | 0, _, _, _ => 0
  | fuel + 1, t, k, neg =>
    if t = 0 then 0
    else (if neg then -(t : Int) else (t : Int)) + trigSum p r2 fuel (t * r2 / 2 ^ p / (k * (k + 1))) (k + 2) (!neg)

/-- The series of the area hyperbolic tangent: z + z^3/3 + ... -/
def atanhSum (p z2 : Nat) : Nat → Nat → Nat → Nat
  | 0, _, _ => 0
  | fuel + 1, t, k => if t = 0 then 0 else t / k + atanhSum p z2 fuel (t * z2 / 2 ^ p) (k + 2)

/-- ln 2 with p fractional bits: 2 atanh(1/3). -/
def ln2Fix (p : Nat) : Nat := 2 * atanhSum (p + 64) (2 ^ (p + 64) / 9) (p + 64) (2 ^ (p + 64) / 3) 1 / 2 ^ 64

/-- Both ends of an enclosure, in units of 2^e, round to one f32. -/
def enclosed (v err : Int) (e : Int) : Option Lane :=
  let num (x : Int) : Fp := .num (decide (x < 0)) x.natAbs e
  let a := lane32 (num (v - err))
  let b := lane32 (num (v + err))
  if a = b ∧ (decide (v - err < 0) = decide (v + err < 0)) then some a else none

/-- The first enclosure that decides, over rising precisions; the last one's middle otherwise. -/
def refine (f : Nat → Int × Int × Int) : List Nat → Lane
  | [] => 0
  | [p] => let (v, _, e) := f p; lane32 (.num (decide (v < 0)) v.natAbs e)
  | p :: ps => let (v, err, e) := f p
    match enclosed v err e with
    | some x => x
    | none => refine f ps

def precisions : List Nat := [256, 512, 1024, 2048]

/-- 2^x for x = i + f/2^k with 0 < f < 2^k: enclosure with p fractional bits. -/
def exp2At (i : Int) (f k p : Nat) : Int × Int × Int :=
  let r := f * ln2Fix p / 2 ^ k
  (expSum p r p (2 ^ p) 1, 2 * p, i - p)

/-- log2 of m 2^e: enclosure with p fractional bits. -/
def log2At (m : Nat) (e : Int) (p : Nat) : Int × Int × Int :=
  let l := m.log2
  let one := 2 ^ l
  let z := (m - one) * 2 ^ p / (m + one)
  let ln := 2 * atanhSum p (z * z / 2 ^ p) p z 1
  ((l + e) * 2 ^ p + (ln * 2 ^ p / ln2Fix p : Nat), 8 * p, -p)

/-- Sine or cosine of the positive number m 2^e: reduced exactly modulo a quarter turn. -/
def trigAt (cos : Bool) (m : Nat) (e : Int) (p : Nat) : Int × Int × Int :=
  -- x with p fractional bits, reduced with enough bits of pi
  let g := p + 160 + e.toNat + m.log2
  let half := piFix g / 2
  let x := if 0 ≤ e then m * 2 ^ e.toNat * 2 ^ g else m * 2 ^ g / 2 ^ (-e).toNat
  let q := x / half
  let r := x % half / 2 ^ (g - p)
  let r2 := r * r / 2 ^ p
  let s := trigSum p r2 p r 2 false
  let c := trigSum p r2 p (2 ^ p) 1 false
  let k := (q + (if cos then 1 else 0)) % 4
  (if k = 0 then s else if k = 1 then c else if k = 2 then -s else -c, 8 * p, -p)

/-- The quotient of two numbers with a sticky bit below it (R176 RCP). -/
def recip (neg : Bool) (m : Nat) (e : Int) : Lane :=
  let k := m.log2 + 64
  let q := 2 ^ k / m
  let r := 2 ^ k % m
  lane32 (.num neg (2 * q + (if r = 0 then 0 else 1)) (-e - k - 1))

/-- The square root with a sticky bit (R176). -/
def sqrtOf (m : Nat) (e : Int) : Lane :=
  let (m, e) := if e % 2 = 0 then (m, e) else (2 * m, e - 1)
  let n := m * 2 ^ 80
  let r := n.sqrt
  lane32 (.num false (2 * r + (if r * r = n then 0 else 1)) ((e - 80) / 2 - 1))

/-- The reciprocal square root with a sticky bit (R176): the root of 2^(200 - 2e)/m. -/
def rsqOf (m : Nat) (e : Int) : Lane :=
  let (m, e) := if e % 2 = 0 then (m, e) else (2 * m, e - 1)
  let n := 2 ^ 200 / m
  let r := n.sqrt
  lane32 (.num false (2 * r + (if r * r = n ∧ 2 ^ 200 % m = 0 then 0 else 1)) (-100 - e / 2 - 1))

/-- VFN (R176). -/
def vfnLane (fn : BitVec 4) (a : Lane) : Lane :=
  match fpOf a with
  | .nan => 0x7FC00000
  | .inf neg =>
    if fn = 0 then (if neg then 0x80000000 else 0)
    else if fn = 1 then (if neg then 0x7FC00000 else 0)
    else if fn = 2 ∨ fn = 4 then (if neg then 0x7FC00000 else 0x7F800000)
    else if fn = 3 then (if neg then 0 else 0x7F800000)
    else 0x7FC00000
  | .num neg m e =>
    if m = 0 then
      if fn = 0 ∨ fn = 1 then (if neg then 0xFF800000 else 0x7F800000)
      else if fn = 2 ∨ fn = 5 then a
      else if fn = 4 then 0xFF800000
      else 0x3F800000
    else if fn = 0 then recip neg m e
    else if fn = 1 then (if neg then 0x7FC00000 else rsqOf m e)
    else if fn = 2 then (if neg then 0x7FC00000 else sqrtOf m e)
    else if fn = 3 then
      if 8 ≤ m.log2 + e then (if neg then 0 else 0x7F800000)
      else
        -- x in units of 2^-k
        let k := (-e).toNat
        let x : Int := (if neg then -1 else 1) * (m * 2 ^ e.toNat : Nat)
        let i := x / 2 ^ k
        let f := (x % 2 ^ k).toNat
        if f = 0 then lane32 (.num false 1 i) else refine (exp2At i f k) precisions
    else if fn = 4 then
      if neg then 0x7FC00000
      else if m = 2 ^ m.log2 then lane32 (fpInt (m.log2 + e))
      else refine (log2At m e) precisions
    else if fn = 5 then
      let y := refine (trigAt false m e) precisions
      if neg then y ^^^ 0x80000000 else y
    else refine (trigAt true m e) precisions

end Sys2Proof.Machine
end

