-- ==== Sys2Proof/Machine/Activation.lean ====
section
/-! DEFINITION. Activations from their start to their end: waking parked frames (R69, R70), replies (R76 to R78, R405),
ring completions (R299), object locks (R81), notices (R223), fault-queue records (R275, R276), the end of an activation
(R78, R152 to R155, R359) and what the kernel does with a trap (R268, R269). -/
namespace Sys2Proof.Machine

/-! ### Frames -/

/-- The event a parked frame waits for arrives: the frame becomes READY with a new ready time (R69); a STOPPED frame
records it and becomes READY at restore (R281, R282). -/
def State.wake (s : State) (n f : Nat) (g : Frame → Frame) : State :=
  let fr := g (s.frameAt n f)
  match fr.saved with
  | some v => s.setFrame n f { fr with park := none, saved := some { v with arrived := true } }
  | none => s.setFrame n f { fr with state := .ready, ready := s.ftime, park := none }

/-- A frame that has collected every value executes its instruction again, which finds them (R388, R226); a STOPPED
frame starts over after restore. -/
def State.collected (s : State) (n f : Nat) (p : Park) : State :=
  let fr := s.frameAt n f
  match fr.saved with
  | some _ => s.wake n f id
  | none => s.setFrame n f { fr with state := .ready, ready := s.ftime, park := some p }

/-- A parked frame takes a precise trap at its instruction, and stays PARKED or STOPPED (R69, R223). -/
def State.wakeTrap (s : State) (n f : Nat) (cause : BitVec 8) (eval : Word) : State :=
  (s.setFrame n f ((s.frameAt n f).trapped cause eval false)).takeNext n

/-- The frames of this device, core and number. -/
def State.allFrames (s : State) : List (Nat × Nat) :=
  s.cores.flatMap (fun p => (List.range 11).map (fun f => (p.1, f)))

/-- The frames of a tenant's partition. -/
def State.framesOf (s : State) (k : Nat) : List (Nat × Nat) :=
  s.allFrames.filter (fun p => decide ((s.clusterAt (clusterOf p.1)).owner = some k))

/-! ### Bytes -/

/-- The n bytes of a number, little-endian (R9). -/
def natBytes (n w : Nat) : List Byte := leBytes n w

/-! ### Rings (R294 to R299) -/

/-- The flat address of a byte that a VF's DMA reaches (log 16). -/
def dmaAddr (vf a : Nat) : Nat := hostAddr (2 ^ 20 + vf) a

/-- The 128 bytes of a completion entry (R299). -/
def completionBytes (seq : BitVec 32) (ring kind st : Nat) (oid : BitVec 40) (time dtime : Nat) (words : List Word)
    (ph : Bool) : List Byte :=
  natBytes 4 seq.toNat ++ natBytes 1 ring ++ natBytes 1 kind ++ natBytes 2 st ++ natBytes 8 oid.toNat ++
    natBytes 8 time ++ natBytes 8 dtime ++
    ((List.range 8).flatMap (fun i => natBytes 8 (words.getD i 0).toNat)) ++ natBytes 31 0 ++ natBytes 1 (bitOf ph)

/-- The state and the cause in RSTATE (R294). -/
def ringState (st cause : Nat) : BitVec 32 := BitVec.ofNat 32 (st + 16 * cause)

/-- QErr of R297. -/
def State.ringError (s : State) (vf r c : Nat) : State :=
  let x := s.ringAt vf r
  (s.setRing vf r { x with rstate := ringState 2 c }).emit (.interrupt vf 16)

/-- A DMA of a ring, over n bytes from a flat address, that met an error: cause 5 (R297). The error is that of this one
transfer (log 78). -/
def State.dmaError (s : State) (vf r a n : Nat) : State :=
  ({ s with bad := s.bad.filter (fun b => decide (¬ (a ≤ b ∧ b < a + n))) } : State).ringError vf r 5

/-- The device writes the next completion entry and raises the ring's vector when IE = 1 (R299); the entry uses a
reservation. A DMA error on the write leaves the ring in QERR and writes no entry (R297; log 78). -/
def State.complete (s : State) (vf r : Nat) (seq : BitVec 32) (oid : BitVec 40) (kind st dtime : Nat)
    (words : List Word) : State :=
  let x := s.ringAt vf r
  let a := dmaAddr vf (x.cbase.toNat + 128 * x.ctail.toNat)
  if (s.badAt a 128).isSome then (s.setRing vf r { x with reserved := x.reserved - 1 }).dmaError vf r a 128
  else
  let s := s.writeBytes a (completionBytes seq r kind st oid s.ftime dtime words x.phase) none
  let t := x.ctail.toNat + 1
  let wrap := decide (x.csize.toNat ≤ t)
  let s := s.setRing vf r { x with
    ctail := if wrap then 0 else BitVec.ofNat 32 t
    phase := if wrap then !x.phase else x.phase
    reserved := x.reserved - 1 }
  if x.rctl.getLsbD 2 then s.emit (.interrupt vf r) else s

/-- A reservation is released without an entry (R298). -/
def State.releaseReservation (s : State) (vf r : Nat) : State :=
  let x := s.ringAt vf r
  s.setRing vf r { x with reserved := x.reserved - 1 }

/-- A ticket of a ring changes. -/
def State.onTicket (s : State) (vf r t : Nat) (g : Ticket → Ticket) : State :=
  let x := s.ringAt vf r
  s.setRing vf r { x with tickets := x.tickets.map (fun q => if q.n = t then g q else q) }

/-! ### Replies (R76 to R78) -/

/-- A message from a generation that has been retired, until 100 µs after T_e (R310 step 2; log 49). -/
def State.retiredMsg (s : State) (m : Msg) (o : Origin) : Bool :=
  match o with
  | .here => !m.host && s.retiredGens.any (fun q =>
      decide (q.1 = m.sender.toNat / 4096 ∧ q.2.1 = m.sender.toNat / 8 % 512 ∧ q.2.2.1 = m.gen.toNat ∧ s.ftime < q.2.2.2))
  | _ => false

/-- The completion entry of a host message (R298, R299): KIND 3 for one that ended unrun, else KIND 0. -/
def State.ringAnswer (s : State) (vf ring t dtime st : Nat) (words : List Word) : State :=
  let s := match (s.ringAt vf ring).tickets.find? (fun q => q.n = t) with
    | some q => s.complete vf ring q.seq q.oid (if st = 4 ∨ st = 5 then 3 else 0) st
        (if st = 4 ∨ st = 5 then 0 else dtime) words
    | none => s
  s.onTicket vf ring t (fun q => { q with holds := false })

/-- A core of this device as the sender of a packet, for a tenant (R219). -/
def State.via (s : State) (n k : Nat) : Via := ⟨s.coreid n, (s.vfAt (s.ctxAt k).vf).gen⟩

/-- The reply of a message, from core n, goes where its token leads: to a core of this device, to another device, over Ethernet to
another pod, or to the completion ring of a host ring. A reply bound for a retired reply slot is dropped, a NACK apart
(R310 step 2). -/
def State.sendReply (s : State) (n : Nat) (m : Msg) (o : Origin) (dtime st : Nat) (words : List Word) : State :=
  let r : Reply := ⟨m.slot, m.slotseq, st, words⟩
  match o with
  | .here =>
    if s.retiredMsg m o && st ≠ 2 then s
    else if m.sender.toNat / 4096 = s.pos then s.post (.replyArrival (m.sender.toNat % 4096) r)
    else s.emit (.reply (s.via n (s.ctxOf n)) m.sender.toNat r)
  | .handler => s
  | .device p => s.emit (.hostReply (s.via n (s.ctxOf n)) p m.sender.toNat m.slotseq st dtime words)
  | .pod p pos => { s with txbuf := s.txbuf ++ [(p, pos, ⟨m.sender.toNat, 0, some r, { m with payload := words }, none⟩)] }
  | .ring vf ring t => s.ringAnswer vf ring t dtime st words

/-- A message that is not to run any more and expects a reply is answered (R78, R283, R310); STRUCK is not written to a
host ring, whose reservation is released (R283). dtime is the FTIME of dispatch of a message that was dispatched (R299). -/
def State.answerUnrun (s : State) (n : Nat) (e : QEntry) (st dtime : Nat) : State :=
  match e.origin with
  | .ring vf ring t =>
    let holds := (s.ringAt vf ring).tickets.any (fun q => decide (q.n = t) && q.holds)
    if st = 4 ∨ st = 5 then s.sendReply n e.msg e.origin 0 st []
    else if st = 6 then
      let s := s.onTicket vf ring t (fun q => { q with holds := false })
      if holds then s.releaseReservation vf ring else s
    else if e.msg.rq && !e.used then s.sendReply n e.msg e.origin dtime st []
    else s
  | .device p =>
    if st = 4 ∨ st = 5 then s.sendReply n e.msg e.origin 0 st []
    else if st = 6 then s.emit (.hostStage (s.via n (s.ctxOf n)) p e.msg.sender.toNat e.msg.slotseq 3 0)
    else if e.msg.rq && !e.used then s.sendReply n e.msg e.origin dtime st []
    else s
  | _ => if e.msg.rq && !e.used then s.sendReply n e.msg e.origin dtime st [] else s

/-- The stage that a host message has reached (R298): 1 dispatched, 2 ended. The device whose ring it came from is told. -/
def State.ticketStage (s : State) (n : Nat) (o : Origin) (sender : BitVec 22) (seq : BitVec 16) (stage dtime : Nat) : State :=
  match o with
  | .device p => s.emit (.hostStage (s.via n (s.ctxOf n)) p sender.toNat seq stage dtime)
  | .ring vf ring t => s.onTicket vf ring t (fun q => { q with stage := stage, dtime := dtime })
  | _ => s

def State.stageOf (s : State) (n : Nat) (e : QEntry) (stage dtime : Nat) : State :=
  s.ticketStage n e.origin e.msg.sender e.msg.slotseq stage dtime

/-! ### Answers of a home (R222, R223) -/

/-- The service hart of a request's home as the sender of its answer. -/
def State.homeVia (s : State) (r : Request) : Via := s.via (r.home % 4096) r.ctx

/-- KIND of R221 of a request; 0 where the rule gives none (log 99). -/
def requestKind (op : ReqOp) : Nat :=
  match op with
  | .store _ => 4 | .storeCap _ => 4 | .amo _ _ _ _ => 5 | .write _ _ => 7
  | _ => 0

/-- KIND of R221 of what answers a request: a load's or an atomic's reply, or a sector. -/
def replyKind (op : ReqOp) : Nat :=
  match op with
  | .amo _ _ _ _ => 6
  | .read _ => 7
  | _ => 3

/-- A request of class 2, which keeps its order (R217): that of a frame, or of an engine for a barrier. -/
def orderedOp (r : Request) : Bool :=
  match r.op with
  | .read _ => decide (r.agent = 0)
  | .write _ _ => decide (r.agent = 0)
  | _ => true

/-- The frame number that stands for an engine of a core. -/
def engineFrame : Nat := 15

/-- A member access comes to the home of its first byte: the home core, issuer and number. -/
def State.memberArrival (s : State) (req coll ctx : Nat) (oid : BitVec 40) (base : Nat) : Option (Nat × Nat × Nat) :=
  (s.liveAt (s.ctxAt ctx) oid).map (fun d => (s.homeOf (s.ctxAt ctx) d (d.stripe base), req, coll))

/-- An access that comes to a home of this device: the home core, and the issuer and number by which it is known. The service hart
of a home performs these one at a time, in arrival order (R222, R227). -/
def State.arrivalAt (s : State) : Instr → Option (Nat × Nat × Nat)
  | .remoteRequest r => some (r.home, r.core, r.rid)
  | .memberRead req coll ctx oid base _ => s.memberArrival req coll ctx oid base
  | .memberWrite req coll ctx oid base _ => s.memberArrival req coll ctx oid base
  | _ => none

/-- An access has come to its home, which holds it. -/
def State.hasCome (s : State) (i : Instr) : Bool :=
  match s.arrivalAt i with
  | some (_, k) => s.arrived.contains k
  | none => false

/-- What is under way for an EVICTED context of this device waits until it is restored (R308, R331, R372; log 102): the accesses of
its cores, and what comes back for their engines. -/
def State.asleep (s : State) : Instr → Bool
  | .remoteRequest r => decide (r.core / 4096 = s.pos ∧ (s.ctxAt r.ctx).state = .evicted)
  | .remoteValue n f _ _ => decide (f = engineFrame) && (s.keeper n).isSome
  | .acknowledgement n f _ => decide (f = engineFrame) && (s.keeper n).isSome
  | .remoteNotice n f _ _ _ => decide (f = engineFrame) && (s.keeper n).isSome
  | _ => false

/-- An access that comes finds one before it that its home holds (R222). -/
def State.behind (s : State) (i : Instr) : Bool :=
  match s.arrivalAt i with
  | some (h, k) => !s.arrived.contains k &&
      s.inflight.any (fun j => s.hasCome j && !s.asleep j && decide ((s.arrivalAt j).map (·.1) = some h))
  | none => false

/-- An access has come to its home, or has been performed there. -/
def State.setCome (s : State) (i : Instr) (come : Bool) : State :=
  match s.arrivalAt i with
  | some (_, k) => { s with arrived := s.arrived.filter (fun q => decide (q ≠ k)) ++ (if come then [k] else []) }
  | none => s

/-- An access that its home holds stays first in line there (R222). -/
def State.hold (s : State) (i : Instr) : State := { s.setCome i true with inflight := i :: s.inflight }

/-- An access joins the line at its home. -/
def State.joinLine (s : State) (i : Instr) : State := (s.setCome i true).post i

def State.sendValue (s : State) (r : Request) (v : RVal) : State :=
  if r.core / 4096 = s.pos then s.post (.remoteValue (r.core % 4096) r.frame r.rid v)
  else s.emit (.value (s.homeVia r) (replyKind r.op) r.rid r.core r.frame v)

def State.sendAck (s : State) (r : Request) : State :=
  if r.core / 4096 = s.pos then s.post (.acknowledgement (r.core % 4096) r.frame r.rid)
  else s.emit (.acknowledge (s.homeVia r) r.rid r.core r.frame)

def State.sendNotice (s : State) (r : Request) (x : Notice) : State :=
  if r.core / 4096 = s.pos then s.post (.remoteNotice (r.core % 4096) r.frame r.rid r.name x)
  else s.emit (.notice (s.homeVia r) r.rid r.core r.frame r.name x)

/-! ### Fault queues (R275, R276) -/

/-- The record as four dwords (R275). -/
def FRec.words (r : FRec) : Word × Word × Word × Word :=
  (BitVec.ofNat 64 (r.oid.toNat + 2 ^ 40 * r.kind + 2 ^ 48 * r.agent + 2 ^ 56 * r.state),
   BitVec.ofNat 64 (r.off % 2 ^ 36 + 2 ^ 40 * (r.req % 2 ^ 22)),
   BitVec.ofNat 64 (r.len + 2 ^ 32 * bitOf r.ret),
   r.smask)

/-- The fault queue of a die holds no free record. -/
def State.queueFull (s : State) (die : Nat) : Bool := decide (256 ≤ (s.dieAt die).faultq.length)

/-- The lowest index that no record of a queue has. -/
def freeIndex (q : List FRec) : Nat := ((List.range 256).find? (fun i => q.all (fun r => decide (r.index ≠ i)))).getD 0

/-- A new record enters the fault queue of a die, and its upcall is queued (R276); home is the home core of the object
on this device. -/
def State.addRecord (s : State) (die home : Nat) (r : FRec) : State :=
  let d := s.dieAt die
  let seq := d.faultSeq + 1
  let r := { r with index := freeIndex d.faultq, seq := seq }
  let s := s.setDie die { d with faultq := d.faultq ++ [r], faultSeq := seq }
  let n := if r.req / 4096 = s.pos then r.req % 4096 else home % 4096
  let c := s.coreAt n
  let w := r.words
  s.setCore n { c with starts := c.starts ++ [.memory r.ctx die r.index seq w.1 w.2.1 w.2.2.1 w.2.2.2] }

/-- A record of a die's queue is freed. -/
def State.freeRecord (s : State) (die index : Nat) : State :=
  let d := s.dieAt die
  s.setDie die { d with faultq := d.faultq.filter (fun r => decide (r.index ≠ index)) }

/-- AGENT of R275 for a remote operation of a frame. -/
def agentOf : ReqOp → Nat
  | .load _ => 1 | .loadCap => 1 | .loadTable _ => 1 | .objver => 1
  | .store _ => 2 | .storeCap _ => 2
  | .amo _ _ _ _ => 3 | .barAdd _ => 3 | .barSub _ => 3 | .barArrive => 3
  | .barWait => 1 | .barTest => 1 | .barInit _ => 2 | .barAbort _ => 3 | .barDigest _ => 2
  | .check => 1 | .read _ => 1 | .write _ _ => 2

/-- The bytes that a remote operation covers. -/
def sizeOfOp : ReqOp → Nat
  | .load n => n | .loadCap => 16 | .loadTable _ => 16 | .objver => 8
  | .store b => b.length | .storeCap _ => 16
  | .amo _ w _ _ => if w then 8 else 4
  | .barAdd _ => 8 | .barSub _ => 8 | .barArrive => 8 | .barWait => 8 | .barTest => 8
  | .barInit _ => 12 | .barAbort _ => 8 | .barDigest _ => 64 | .check => 0
  | .read n => n | .write b _ => b.length

/-- The record of a remote request (R275). -/
def requestRec (r : Request) (kind state page : Nat) (held : Held) : FRec :=
  ⟨0, 0, r.ctx, r.oid, kind, if r.agent = 0 then agentOf r.op else r.agent, state, r.off, r.core, sizeOfOp r.op,
    r.returns && decide (r.agent = 0),
    if r.agent = 0 then 1 else BitVec.ofNat 64 (2 ^ ((r.off + sizeOfOp r.op - 1) / 256 - r.off / 256 + 1) - 1), page, held⟩

/-! ### Object locks (R81, R152) -/

/-- The holder of the lock of an object's stripe. -/
def Context.lockOf (x : Context) (oid : BitVec 40) (stripe : Nat) : Option Lock :=
  x.locks.find? (fun l => decide (l.oid = oid ∧ l.stripe = stripe))

/-- The locks that a frame holds go back to their lender, or are released. -/
def releaseLocks (ls : List Lock) (n f : Nat) : List Lock :=
  ls.filterMap (fun l =>
    if l.core = n ∧ l.frame = f then
      match l.lender with
      | some (c, g) => some { l with core := c, frame := g, lender := none }
      | none => none
    else
      match l.lender with
      | some (c, g) => if c = n ∧ g = f then some { l with lender := none } else some l
      | none => some l)

/-- The frame that runs or will run the conversion of an object ends it (R153 to R155): the frames parked behind it
become READY, or take CONVFAIL when it failed, and far requests behind it come again or fail. -/
def State.endConversion (s : State) (k : Nat) (oid : BitVec 40) (ok : Bool) : State :=
  let x := s.ctxAt k
  let far := (x.convs.filter (fun v => v.oid = oid)).flatMap (fun v => v.waiting)
  let tag := match s.descAt x oid with
    | some d => d.layout
    | none => 0
  let s := s.setCtx k { x with convs := x.convs.filter (fun v => v.oid ≠ oid) }
  let s := (s.framesOf k).foldl (fun s p =>
    let fr := s.frameAt p.1 p.2
    if fr.park = some (.convert oid) then
      if ok then s.wake p.1 p.2 id
      else s.wakeTrap p.1 p.2 CONVFAIL (layoutEval (s.layoutOf p.1 fr) tag)
    else s) s
  far.foldl (fun s r =>
    if ok then s.post (.remoteRequest r)
    else if r.returns then s.sendNotice r (.trap CONVFAIL (layoutEval r.layout tag))
    else { s with discarded := s.discarded ++ [r] }) s

/-- The records of far stores that a failed conversion has discarded enter the fault queues as these have room (R155, R276). -/
def State.recordDiscarded (s : State) : State :=
  s.discarded.foldl (fun s r =>
    if s.queueFull (dieOf (r.home % 4096)) then { s with discarded := s.discarded ++ [r] }
    else (s.addRecord (dieOf (r.home % 4096)) r.home (requestRec r 4 3 0 .nothing)).sendAck r) { s with discarded := [] }

/-! ### The end of an activation -/

/-- The frame has stores in its core's buffer, or a deletion that is not complete (R107). -/
def State.buffered (s : State) (core f : Nat) : Bool :=
  (s.coreAt core).buffer.any (fun p => decide (p.frame = f)) || (s.coreAt core).deleting.any (fun q => decide (q.1 = f))

/-- A FREE frame holds no activation. Its registers stand until the next dispatch clears them (R83). -/
def Frame.release (fr : Frame) : Frame :=
  { fr with state := .free, act := none, trap := none, park := none, wait := none, entering := [], saved := none,
            txSlot := none, txEntry := none }

/-- The conversion that a converter frame runs ends with it (R153 to R155); one that has failed before is not touched. -/
def State.converterEnds (s : State) (k n f : Nat) (oid : BitVec 40) (ok : Bool) : State :=
  if (s.ctxAt k).convs.any (fun v => decide (v.oid = oid ∧ v.core = n ∧ v.frame = some f)) then s.endConversion k oid ok else s

/-- The activation of a frame ends (R81, R153 to R155, R360): its locks go back, and the frame becomes FREE. ok tells that a
converter ended by CVTEND; ring, that of a host message whose activation this was (R298). -/
def State.endActivation (s : State) (n f : Nat) (ok : Bool) (ring : Option QEntry) : State :=
  let s := s.abandon n f
  let fr := s.frameAt n f
  match fr.act with
  | none => s.setFrame n f fr.release
  | some a =>
    let s := match ring with
      | some e => s.stageOf n e 2 a.dtime
      | none => s
    let x := s.ctxAt a.ctx
    let s := s.setCtx a.ctx { x with locks := releaseLocks x.locks n f }
    let s := s.setFrame n f fr.release
    match a.kind with
    | .converter oid _ => s.converterEnds a.ctx n f oid ok
    | _ => s

def Core.queue (c : Core) (urgent : Bool) : List QEntry := if urgent then c.urgentQ else c.normalQ

def Core.setQueue (c : Core) (urgent : Bool) (q : List QEntry) : Core :=
  if urgent then { c with urgentQ := q } else { c with normalQ := q }

/-- A queue in order of arrival with an entry put in. -/
def putEntry : List QEntry → QEntry → List QEntry
  | [], e => [e]
  | x :: q, e => if e.serial < x.serial then e :: x :: q else x :: putEntry q e

/-- The first half of End (R360): the message goes back to its queue, with its token, or the unused token is answered
NOREPLY (R78) and the queue entry is free. Answers the ring of a host message that has ended. -/
def State.closeMessage (s : State) (n f : Nat) (requeue : Bool) : State × Option QEntry :=
  match (s.frameAt n f).act with
  | none => (s, none)
  | some a =>
    match a.entry with
    | none => (s, none)
    | some e =>
      let e := { e with used := a.used || e.used }
      let s := s.setFrame n f { s.frameAt n f with act := some { a with entry := none } }
      if requeue && decide (a.kind = .message ∧ e.origin ≠ .handler) then
        let s := s.stageOf n e 0 0
        let c := s.coreAt n
        (s.setCore n (c.setQueue e.msg.u (putEntry (c.queue e.msg.u) e)), none)
      else (s.answerUnrun n e 1 a.dtime, some e)

/-- End of R360, for a frame's own DONE or DEFER and for an end by the kernel (R268): the message first, then, once the
frame's stores have drained (R361), the rest. -/
def State.endFrame (s : State) (n f : Nat) (requeue : Bool) : State :=
  let q := (s.abandon n f).closeMessage n f requeue
  if q.1.buffered n f then
    q.1.setFrame n f { q.1.frameAt n f with
      state := .running, trap := none, park := none, saved := none, wait := some (.ending q.2) }
  else q.1.endActivation n f false q.2

/-! ### The kernel and the trap whose registers are current (R267 to R269) -/

/-- The trap that the supervisor frame of core n handles: the frame TFRAME, when its trap has been taken. -/
def State.currentTrap (s : State) (n : Nat) : Option (Nat × TrapRec) :=
  let f := bitsOf (s.coreAt n).sstatus.toNat 19 16
  if (s.coreAt n).handling then
    match (s.frameAt n f).trap with
    | some t => if t.taken then some (f, t) else none
    | none => none
  else none

/-- The code byte stream that a frame fetches from (R33): its version's code, or the kernel image. -/
def State.codeOf (s : State) (n f : Nat) : Option (List Byte) :=
  if f = 10 then some s.kernelCode
  else match s.versionOf n (s.frameAt n f) with
    | some v => some v.code
    | none => none

/-- The length of the instruction at an offset of the code (R32). -/
def lengthAt (code : List Byte) (off : Nat) : Nat :=
  match code[off]? with
  | some b => if b.getLsbD 0 then 4 else 2
  | none => 4

/-- The handling of core n's trap or machine event is over: the supervisor frame waits for the next (R267, R268). -/
def State.endHandling (s : State) (n : Nat) : State :=
  let c := s.coreAt n
  let c := c.setFrame 10 { c.frameAt 10 with state := .free, trap := none, wait := none }
  (s.setCore n { c with handling := false, kernelRuns := false }).takeNext n

/-- A frame whose trap has been disposed of: a PARKED one is READY with a new ready time (R68), for a STOPPED one that comes
at its restore. -/
def Frame.resumed (fr : Frame) (now : Nat) : Frame :=
  { fr with
    trap := none
    park := none
    state := if fr.state = .parked then .ready else fr.state
    ready := if fr.state = .parked then now else fr.ready
    saved := fr.saved.map (fun _ => ⟨.ready, false⟩) }

/-- A frame resumes at a code offset of the version that EPC names (R268). -/
def State.resumeAt (s : State) (n f : Nat) (skip : Bool) : State :=
  let e := (s.coreAt n).epc
  let fr := (s.frameAt n f).resumed s.ftime
  let fr := { fr with ver := e.extractLsb' 56 8, modid := e.extractLsb' 32 24, pc := e.extractLsb' 0 32 }
  let s := s.setFrame n f fr
  if skip then
    let len := match s.codeOf n f with
      | some code => lengthAt code fr.pc.toNat
      | none => 4
    s.setFrame n f (fr.advance len)
  else s

/-- ERET of core n (R268). A supervisor frame that returns from a trap of its own goes on where it was (log 15). -/
def State.eret (s : State) (n : Nat) : State :=
  let st := (s.coreAt n).sstatus
  let f := bitsOf st.toNat 19 16
  match s.currentTrap n with
  | some (f, _) =>
    if f = 10 then s.resumeAt n 10 (st.getLsbD 0)
    else if st.getLsbD 1 then (s.endFrame n f false).endHandling n
    else (s.resumeAt n f (st.getLsbD 0)).endHandling n
  | none =>
    if (s.coreAt n).handling && st.getLsbD 1 && f < 10 then (s.endFrame n f false).endHandling n
    else s.endHandling n

/-- The version whose handler FUPC names (R271): the imago of its module. -/
def State.upcallVersion (s : State) (n : Nat) : Option (BitVec 24 × Version) :=
  let u := (s.coreAt n).fupc
  if u = 0 then none
  else match (s.ctxAt (s.ctxOf n)).imago (u.extractLsb' 32 24) with
    | some v => some (u.extractLsb' 32 24, v)
    | none => none

/-- A frame runs an upcall (R271). -/
def Frame.inUpcall (fr : Frame) : Bool :=
  match fr.act with
  | some a => (match a.kind with | .upcall _ => true | _ => false)
  | none => false

/-- Whether the kernel forwards the current trap of core n to the tenant runtime (R269). -/
def State.forwards (s : State) (n : Nat) : Bool :=
  match s.currentTrap n with
  | some (f, t) =>
    f < 10 && t.cause ≠ MACHINE && t.cause ≠ PRIV && !(s.frameAt n f).inUpcall &&
      (s.ctxAt (s.ctxOf n)).policy.flags.getLsbD 3 && (s.upcallVersion n).isSome
  | none => false

/-- The kernel forwards the current trap (R269): the frame parks in TRAPPED, or is STOPPED so where it is or heave-to is pending (R281),
the trap upcall is queued, and the handling ends. -/
def State.forwardTrap (s : State) (n : Nat) : State :=
  match s.currentTrap n with
  | some (f, t) =>
    let c := s.coreAt n
    let seq := c.faultSeq + 1
    let fr := c.frameAt f
    let fr := { fr with
      trap := none
      park := some (.trapped t.cause t.eval)
      faultSeq := seq
      state := if fr.state = .stopped || s.heavePending n then .stopped else .parked
      saved := if fr.saved.isSome || s.heavePending n then some ⟨.parked, false⟩ else none }
    let c := c.setFrame f fr
    let st := Start.trap (s.ctxOf n) f seq c.ecause c.epc c.eval
    (s.setCore n { c with faultSeq := seq, starts := c.starts ++ [st] }).endHandling n
  | none => s

/-- What the kernel does with the trap or machine event of core n when the model holds no kernel image (log 6): it
forwards the trap where R269 says so, and otherwise ends the activation as ERET with KILL does. -/
def State.kernelAct (s : State) (n : Nat) : State :=
  if s.forwards n then s.forwardTrap n
  else
    let f := bitsOf (s.coreAt n).sstatus.toNat 19 16
    if f < 10 then (s.endFrame n f false).endHandling n else s.endHandling n

end Sys2Proof.Machine
end

