-- ==== Sys2Proof/Machine/Port.lean ====
section
/-! DEFINITION. The memory ports of a die and the way to them: what a frame reads (R121 to R123), stores and the store
buffer (R123, R451), the rules for descriptors and page maps (R106 to R108, R111, R119), hotness (R114), releases
(R125), requests to other homes (R124, R222), translations (R112). -/
namespace Sys2Proof.Machine

/-! ### Reading -/

/-- The bytes bs from address a with the bytes pb from address pa laid over them. -/
def patch (a : Nat) (bs : List Byte) (pa : Nat) (pb : List Byte) : List Byte :=
  (List.range bs.length).map (fun i =>
    if pa ≤ a + i ∧ a + i < pa + pb.length then pb.getD (a + i - pa) 0 else bs.getD i 0)

/-- Where a buffered store goes now, and whether its page is migrating (R111). -/
def State.currentAddr (s : State) (p : PStore) : Nat × Bool :=
  match p.paged with
  | none => (p.addr, false)
  | some off =>
    match s.liveAt (s.ctxAt p.ctx) p.oid with
    | none => (p.addr, false)
    | some d =>
      let e := s.pageEntry (s.ctxAt p.ctx) d (off / 65536)
      if e.v then (dieAddr e.die (e.frame * 65536 + off % 65536), e.mig) else (p.addr, false)

/-- The n bytes from address a as frame f of core n reads them: its own buffered stores lie over the memory (R123), which is read
under its tenant's key (R118). -/
def State.readOwn (s : State) (core f a n : Nat) : List Byte :=
  (s.coreAt core).buffer.foldl
    (fun bs p => if p.frame = f then patch a bs (s.currentAddr p).1 p.bytes else bs) (s.plain (s.ctxOf core) a n)

/-- A store of a frame that is still in its core's buffer touches some bytes. -/
def State.ownBuffered (s : State) (core f a n : Nat) : Bool :=
  (s.coreAt core).buffer.any (fun p =>
    let b := (s.currentAddr p).1
    decide (p.frame = f ∧ b < a + n ∧ a < b + p.bytes.length))

/-- The tag of a granule as a frame reads it. -/
def State.tagOwn (s : State) (core f a : Nat) : Bool :=
  (s.coreAt core).buffer.foldl
    (fun t p => if p.frame = f ∧ (granules (s.currentAddr p).1 p.bytes.length).contains (a / 16) then
        (match p.cap with | some c => c.tag | none => false) else t) (s.tags.contains (a / 16))

/-- An address exists and holds no uncorrectable error, or the instruction ends (R286). -/
def State.sound (s : State) (a n : Nat) : Res Unit :=
  if !addrExists a then .error (.hole a)
  else match s.badAt a n with
    | some x => .error (.bad x)
    | none => .ok ()

/-! ### Hotness (R114) -/

/-- The memory controller that serves a die-local address: 0 stacked SRAM, 1 and 2 the HBM stacks (log 17). -/
def controllerOf (a : Nat) : Nat :=
  let l := a % 2 ^ 40
  if l < 0x80000000 then 0 else if l < 0x1C00000000 then 1 else 2

/-- The four multipliers of R114. -/
def sketchMul : Nat → Nat
  | 0 => 0x9E3779B97F4A7C15
  | 1 => 0xC2B2AE3D27D4EB4F
  | 2 => 0x165667B19E3779F9
  | _ => 0xD6E8FEB86659FD93

/-- The counter of a row that a key selects. -/
def sketchCell (row k : Nat) : Nat := row * 4096 + k * sketchMul row % 2 ^ 64 / 2 ^ 52

def Sketch.estimate (t : Sketch) (k : Nat) : Nat :=
  (List.range 4).foldl (fun m r => min m ((look t.counts (sketchCell r k)).getD 0)) 0xFFFF

/-- The key of least estimate in a candidate list. -/
def Sketch.least (t : Sketch) (ks : List Nat) : Option Nat :=
  ks.foldl (fun m k => match m with
    | none => some k
    | some b => if t.estimate k < t.estimate b then some k else some b) none

/-- One access under a key is counted (R114). -/
def Sketch.count (t : Sketch) (slot k : Nat) : Sketch :=
  let counts := (List.range 4).foldl (fun m r =>
    let c := sketchCell r k
    put m c (min ((look m c).getD 0 + 1) 0xFFFF)) t.counts
  let t := { t with counts := counts, totals := put t.totals slot ((look t.totals slot).getD 0 + 1) }
  let ks := (look t.cands slot).getD []
  if ks.contains k then t
  else if ks.length < 64 then { t with cands := put t.cands slot (ks ++ [k]) }
  else match t.least ks with
    | some b => if t.estimate b < t.estimate k
        then { t with cands := put t.cands slot (ks.map (fun q => if q = b then k else q)) } else t
    | none => t

/-- The controller that serves an access to a paged object counts it, when the object is not PIN and its tenant holds
a slot on the die (R114). -/
def State.served (s : State) (k : Nat) (oid : BitVec 40) (off a : Nat) : State :=
  match s.liveAt (s.ctxAt k) oid with
  | none => s
  | some d =>
    let die := a / 2 ^ 40
    match look (s.dieAt die).slotsOf k with
    | none => s
    | some slot =>
      if d.pin ∨ 16 ≤ slot ∨ a ≥ 2 ^ 42 ∨ d.whole.isSome then s
      else
        let ctl := controllerOf a
        let x := s.dieAt die
        let t := (look x.sketches ctl).getD ⟨[], [], [], 0⟩
        let key := slot * 2 ^ 60 + oid.toNat * 2 ^ 20 % 2 ^ 60 + off / 65536
        s.setDie die { x with sketches := put x.sketches ctl (t.count slot key) }

/-! ### Descriptors and page maps -/

/-- The descriptor that holds an address: its index, for a tenant's table (R106). -/
def Context.descIndex (x : Context) (a : Nat) : Option Nat :=
  let b := dieAddr 0 x.tableBase
  if b ≤ a ∧ a < b + 64 * x.tableLen then some ((a - b) / 64) else none

/-- The live paged objects of a tenant. -/
def State.pagedObjects (s : State) (x : Context) : List Desc :=
  (List.range x.tableLen).filterMap (fun i =>
    match s.liveAt x (BitVec.ofNat 40 i) with
    | some d => if (d.tier = 2 ∨ d.tier = 3) ∧ !d.hb ∧ !d.pw ∧ !s.far d ∧ d.whole.isNone ∧ !d.pageReg then some d else none
    | none => none)

/-- The page-map entries of a tenant's objects that n bytes from an address touch: object and page (R108). -/
def State.mapEntries (s : State) (x : Context) (a n : Nat) : List (Desc × Nat) :=
  if n = 0 then [] else
  (s.pagedObjects x).flatMap (fun d =>
    let b := dieAddr 0 d.pmap
    let pages := (d.size + 65535) / 65536
    let lo := (a - b) / 8
    let hi := (a + n - 1 - b) / 8
    if a + n ≤ b ∨ b + 8 * pages ≤ a then []
    else ((List.range (hi - lo + 1)).map (fun i => (d, lo + i))).filter (fun q => decide (q.2 < pages)))

/-- PTIER, DIE and FRAME lie in the ranges of R108, whatever V says (log 18). -/
def State.entryOk (s : State) (x : Context) (d : Desc) (page : Nat) (e : PageEntry) : Bool :=
  (if e.ptier = 0 then decide (e.frame < 0x8000)
   else decide (e.ptier = 1 ∧ 0x100000 ≤ e.frame ∧ e.frame < 0x280000)) &&
  decide (e.die = dieOf (s.homeOf x d (d.stripe (page * 65536))))

/-- The bits of a live descriptor that software may change (R107). -/
def liveBits (reefed : Bool) : Nat :=
  2 ^ 40 + 2 ^ 369 + 2 ^ 372 +
  (if reefed then (2 ^ 22 - 1) * 2 ^ 332 + 3 * 2 ^ 366 + (2 ^ 12 - 1) * 2 ^ 354 + (2 ^ 64 - 1) * 2 ^ 256 else 0)

/-- PASID and KEYID, which stores of software leave as they stand (R107). -/
def rootBits : Nat := (2 ^ 28 - 1) * 2 ^ 420

/-- A number with the bits of a mask taken from another one. -/
def mergeBits (n m mask : Nat) : Nat := (n &&& (2 ^ 512 - 1 - mask)) ||| (m &&& mask)

/-- The partition is reefed, stopped or not yet running (R80). -/
def State.reefed (s : State) (k : Nat) : Bool := (s.ctxAt k).ladder.isSome || (s.ctxAt k).stopped

/-- A store through a window into a descriptor or a page map (R106 to R108, R111): the rights and the rules, or
CAPRIGHT. The bytes are those of one element. Any store that changes none but the allowed bits may set or clear LIVE, FLAGS.PIN and
FLAGS.HOTREC: a byte store and an atomic like a `st.d.pkg` (DESIGN CHOICE, log 109). -/
def State.tableCheck (s : State) (core f : Nat) (c : Cap) (a : Nat) (bs : List Byte) : Res Unit :=
  let k := s.ctxOf core
  let x := s.ctxAt k
  if a ≥ 2 ^ 40 then .ok ()
  else
    match x.descIndex a with
    | some i =>
      if c.rights &&& rightO = 0 then .error (.trap CAPRIGHT (rightEval 0 rightO.toNat))
      else
        let b := x.descAddr i
        let ob := s.readOwn core f b 64
        let old := leNat ob
        let new := mergeBits (leNat (patch b ob a bs)) old rootBits
        if bitsOf old 40 40 = 1 then
          if (old ^^^ new) &&& (2 ^ 512 - 1 - liveBits (s.reefed k)) ≠ 0 then .error (.trap CAPRIGHT (rightEval 2 0))
          else .ok ()
        else if bitsOf new 40 40 = 1 ∧ (i = 0 ∨ bitsOf new 39 0 ≠ i) then .error (.trap CAPRIGHT (rightEval 2 0))
        else .ok ()
    | none =>
      (s.mapEntries x a bs.length).foldl (fun r q => do
        r
        if c.rights &&& rightO = 0 then .error (.trap CAPRIGHT (rightEval 0 rightO.toNat))
        else
          let b := pageEntryAddr q.1 q.2
          let ob := s.readOwn core f b 8
          let old := pageEntryOf (leNat ob)
          let new := pageEntryOf (leNat (patch b ob a bs))
          if !s.entryOk x q.1 q.2 new then .error (.trap CAPRIGHT (rightEval 3 0))
          else if q.1.pin ∧ old.v ∧ old.ptier = 0 ∧ new.v ∧ new.ptier = 1 then .error (.trap CAPRIGHT (rightEval 5 0))
          else .ok ()) (.ok ())

/-- The number of a page frame of the device. -/
def frameNo (e : PageEntry) : Nat := e.die * 2 ^ 24 + e.frame

/-- A frame is mapped by a tenant: its tags are clear (R119). What it holds stays as it is: under another key it is unreadable
(R118). -/
def State.takeFrame (s : State) (k : Nat) (e : PageEntry) : State :=
  let b := dieAddr e.die (e.frame * 65536)
  { s with
    tags := s.tags.filter (fun g => decide (g < b / 16 ∨ b / 16 + 4096 ≤ g))
    pageOwner := put s.pageOwner (frameNo e) k }

/-- Memory with the reset contents of a record object's three sections from an address up (R115): INTERVAL 1,000 µs, zero else. -/
def hotSections (m : List Host.Cell) (a : Nat) : List Host.Cell :=
  let clear := m.filter (fun c => decide (c.1 < a ∨ a + 3264 ≤ c.1))
  memPut (memPut (memPut clear (a + 16) (leBytes 4 1000)) (a + 1104) (leBytes 4 1000)) (a + 2192) (leBytes 4 1000)

/-- The reset contents of a record object are written, which no tag survives (R99). -/
def State.layHot (s : State) (a : Nat) : State :=
  { s with mem := hotSections s.mem a, tags := s.tags.filter (fun g => !(granules a 3264).contains g) }

/-- A record object has its reset contents when it becomes the record object of its die, and when the page that holds it is mapped
(R115; log 91). -/
def State.hotReset (s : State) (k : Nat) (d : Desc) : State :=
  match s.placeOf (s.ctxAt k) d 0 (dieOf (s.homeOf (s.ctxAt k) d 0 % 4096)) with
  | .here a _ =>
    (s.encrypt k a 3264).layHot a
  | _ => s

/-- What the store of a page-map entry does when it is performed (R109, R119, R277): the frame's tags, and the records
that wait for the page. -/
def State.entryStored (s : State) (k : Nat) (d : Desc) (page : Nat) (old : PageEntry) : State :=
  let new := s.pageEntry (s.ctxAt k) d page
  let fresh := new.v && (!old.v || (decide (frameNo new ≠ frameNo old) && !old.mig))
  let s := if fresh then s.takeFrame k new
    else if new.v then { s with pageOwner := put s.pageOwner (frameNo new) k } else s
  let s := if fresh && page = 0 && s.dies.any (fun p => decide (look p.2.hotrec k = some d.oid)) then s.hotReset k d else s
  if new.v then
    { s with dies := s.dies.map (fun p => (p.1, { p.2 with
        faultq := p.2.faultq.map (fun r =>
          if r.ctx = k ∧ r.oid = d.oid ∧ r.kind = 1 ∧ r.state = 1 ∧ r.page = page then { r with state := 2 } else r) })) }
  else s

/-- The pages that a map names when its object becomes live are mapped then (R119), also those of a map that stood unchanged while the
object was deleted and created again (DESIGN CHOICE, log 109). -/
def State.takePages (s : State) (k : Nat) (d : Desc) : State :=
  if (d.tier ≠ 2 ∧ d.tier ≠ 3) ∨ d.hb ∨ d.pw ∨ s.far d then s
  else (List.range ((d.size + 65535) / 65536)).foldl (fun s i =>
    let e := s.pageEntry (s.ctxAt k) d i
    if e.v then s.takeFrame k e else s) s

/-- An object is the record object of no die any more. -/
def State.dropHot (s : State) (k : Nat) (oid : BitVec 40) : State :=
  { s with dies := s.dies.map (fun p => (p.1, { p.2 with hotrec := p.2.hotrec.filter (fun q => decide (q ≠ (k, oid))) })) }

/-- What the store of a descriptor does when it is performed: the pages (R119) and HOTREC (R115) of a descriptor that becomes
live; of one that is deleted the end of its records, and the waits on a barrier whose object is deleted, of this device's
frames and of others (R334). -/
def State.descStored (s : State) (k i : Nat) (wasLive : Bool) : State :=
  let x := s.ctxAt k
  let d := descOf (s.ctxNat x (x.descAddr i) 64)
  let s := if d.live && !wasLive then
      (s.setCtx k { x with refs := x.refs.filter (fun o => decide (o ≠ d.oid)) }).takePages k d
    else s
  if d.live && !wasLive && d.hotrec then
    let die := dieOf (s.homeOf x d 0 % 4096)
    let y := s.dieAt die
    (s.setDie die { y with hotrec := put y.hotrec k d.oid }).hotReset k d
  else if wasLive && !d.live then
    let s := s.dropHot k (BitVec.ofNat 40 i)
    let mine (r : Request) : Bool := decide (r.ctx = k ∧ r.oid = BitVec.ofNat 40 i)
    let ws := s.barWaits.filter mine
    let s : State := ws.foldl (fun s r => s.sendNotice r .noobj) { s with barWaits := s.barWaits.filter (fun r => !mine r) }
    (s.framesOf k).foldl (fun s p =>
      match (s.frameAt p.1 p.2).park with
      | some (.barrier _ _ bars) =>
        if bars.any (fun b => decide (b.oid = BitVec.ofNat 40 i) && b.rid.isNone)
        then s.wakeTrap p.1 p.2 REMOTEERR (BitVec.ofNat 64 (i * 256 + 1)) else s
      | _ => s) s
  else s

/-- A write to a page marks it dirty for a migration (R309). -/
def State.markDirty (s : State) (a : Nat) : State :=
  if a ≥ 2 ^ 42 then s
  else
    let p := (a / 2 ^ 40) * 2 ^ 24 + a % 2 ^ 40 / 65536
    match look s.pageOwner p with
    | some k =>
      let x := s.ctxAt k
      if x.migration.isSome then s.setCtx k { x with dirty := insertNat x.dirty p } else s
    | none => s

/-- PASID and KEYID of a descriptor, which the root holds there while the object is live (R17, R107; log 26). -/
def rootField (x : Context) (w : Nat) : Nat :=
  if bitsOf w 40 40 = 1 then setField (setField w 447 428 x.pasid.toNat) 427 420 x.keyid.toNat
  else setField (setField w 447 428 0) 427 420 0

/-- PASID and KEYID of a descriptor become the root's; where that changes a byte, its granule loses its tag (R99, R107). -/
def State.rootWrite (s : State) (x : Context) (b : Nat) : State :=
  let w := s.ctxNat x b 64
  let r := rootField x w
  if r = w then s else s.writeBytes (b + 48) ((leBytes 64 r).drop 48) none

/-- Bytes are performed at the memory port: the one operation through which every store of software reaches memory.
PASID and KEYID of a descriptor are the root's (R107); tags follow R99; page maps and descriptors have their effects, where they still
stand under their tenant's key. -/
def State.performBytes (s : State) (a : Nat) (bs : List Byte) (cap : Option Cap) : State :=
  if a ≥ 2 ^ 40 then (s.writeBytes a bs cap).markDirty a
  else
    match s.contexts.findSome? (fun p => match p.2.descIndex a with | some i => some (p.1, i) | none => none) with
    | some (k, i) =>
      let x := s.ctxAt k
      let b := x.descAddr i
      let old := s.ctxNat x b 64
      let t := s.writeBytes a bs cap
      if !s.mine x (b / 64) then t.markDirty a
      else ((t.rootWrite x b).descStored k i (bitsOf old 40 40 = 1)).markDirty a
    | none =>
      let es := s.contexts.flatMap (fun p =>
        (s.mapEntries p.2 a bs.length).map (fun q => (p.1, q.1, q.2, s.pageEntry p.2 q.1 q.2)))
      es.foldl (fun s q => s.entryStored q.1 q.2.1 q.2.2.1 q.2.2.2) ((s.writeBytes a bs cap).markDirty a)

/-- A tenant's bytes are performed, under its key (R118). -/
def State.performFor (s : State) (k a : Nat) (bs : List Byte) (cap : Option Cap) : State :=
  (s.encrypt k a bs.length).performBytes a bs cap

/-- A buffered store is performed (R123). -/
def State.performStore (s : State) (p : PStore) : State :=
  let s := s.performFor p.ctx (s.currentAddr p).1 p.bytes p.cap
  match p.paged with
  | some off => s.served p.ctx p.oid off (s.currentAddr p).1
  | none => s

/-- A store that deletes a descriptor: the tenant and the object. -/
def State.deletes (s : State) (p : PStore) : Option (BitVec 40) :=
  if p.addr ≥ 2 ^ 40 then none
  else match (s.ctxAt p.ctx).descIndex p.addr with
    | none => none
    | some i =>
      let b := (s.ctxAt p.ctx).descAddr i
      let old := s.plain p.ctx b 64
      if bitsOf (leNat old) 40 40 = 1 ∧ bitsOf (leNat (patch b old p.addr p.bytes)) 40 40 = 0 then some (BitVec.ofNat 40 i) else none

/-- A core holds a store to an object, in its buffer or waiting to enter it (R107, R451). -/
def Core.storesTo (c : Core) (k : Nat) (oid : BitVec 40) : Bool :=
  let q (p : PStore) : Bool := decide (p.ctx = k ∧ p.oid = oid)
  c.buffer.any q || c.frames.any (fun fr => fr.entering.any q)

/-- A deletion comes after the accesses that looked the descriptor up before it: the stores that other cores hold (R107). -/
def State.deleteWaits (s : State) (core : Nat) (p : PStore) : Bool :=
  match s.deletes p with
  | none => false
  | some oid => s.cores.any (fun c => decide (c.1 ≠ core) && c.2.storesTo p.ctx oid)

/-- The deletions of a core whose stores have been performed, but not all those of the core itself that looked the object up before
(R107). -/
def State.stillDeleting (s : State) (n : Nat) (l : List (Nat × Nat × BitVec 40)) : State :=
  let c := s.coreAt n
  s.setCore n { c with deleting := l.filter (fun q => c.storesTo q.2.1 q.2.2) }

/-- Mint (R106): the capability that a CLDC through an object table window with right O makes at an offset, when the descriptor
there has the value w. -/
def Context.mint (x : Context) (w : Nat) (rights : BitVec 8) (a : Nat) : Option Cap :=
  let i := a / 64
  if x.tableLen ≤ i then none
  else
    let d := descOf w
    if !d.live then none
    else if a % 64 = 0 then
      let r := rights &&& ~~~(rightI ||| rightK)
      some ⟨true, if d.pw then r ||| rightM else r, if d.pw then 6 else 1, BitVec.ofNat 40 i, 0, BitVec.ofNat 36 d.size⟩
    else if a % 64 = 16 ∧ d.tier = 1 then
      some ⟨true, rights &&& (rightR ||| rightW), 4, BitVec.ofNat 40 i, 0, BitVec.ofNat 36 d.size⟩
    else none

/-! ### Releases (R125) -/

/-- The reach of a scope: 4 the die, 5 the package, 6 the pod, 7 every memory. -/
def reachOf (sc : Nat) : Nat := max sc 4

/-- Every posted access of the frame within the reach has been acknowledged. -/
def Frame.acked (fr : Frame) (reach : Nat) : Bool := fr.posted.all (fun p => decide (reach < p.reach))

/-- A release at a scope has nothing to wait for, buffered stores included. -/
def State.released (s : State) (core f reach : Nat) : Bool :=
  (s.frameAt core f).acked reach && !s.buffered core f

/-- Release(S) of an instruction: it waits in place until its earlier accesses are performed (R125). drain tells whether
the frame's buffered stores must have been performed; a store that enters the buffer comes after them anyhow. -/
def State.release (s : State) (core f sc : Nat) (drain : Bool) : Res Unit :=
  let r := reachOf sc
  if (s.frameAt core f).acked r && (!drain || !s.buffered core f) then .ok () else .error (.wait (.release r))

/-- The release of a SEND or of a store, which heave-to ends before the instruction (R418, R424). -/
def State.releaseSend (s : State) (core f sc : Nat) (drain : Bool) : Res Unit :=
  let r := reachOf sc
  if (s.frameAt core f).acked r && (!drain || !s.buffered core f) then .ok () else .error (.wait (.sending r drain))

/-- Stores that do not enter the buffer stay behind a release fence of the frame while stores before it are buffered
(R126). -/
def State.fenced (s : State) (core f : Nat) : Bool := (s.frameAt core f).relStores && s.buffered core f

/-- The smallest scope code that holds a core of this device and another core of the pod, from the die up (R125,
R127). -/
def State.enclosing (s : State) (core home : Nat) : Nat :=
  if home / 4096 ≠ s.pos then 6 else if dieOf (home % 4096) ≠ dieOf core then 5 else 4

/-! ### Requests (R124, R222) -/

/-- A request leaves a frame for a home: on this device, on another one, or to a device that cannot be reached
(R223). reach is that of the memory that it comes to, for the releases of the frame. Answers the request's number. -/
def State.requestFor (s : State) (n f home : Nat) (oid name : BitVec 40) (off : Nat) (op : ReqOp) (acc : Acc)
    (returns atomic : Bool) (reach : Nat) : State × Nat :=
  let fr := s.frameAt n f
  let rid := s.nextId
  let r : Request := ⟨rid, s.coreid n, f, s.ctxOf n, home, if f = 10 then 0 else fr.modid, fr.ver,
    s.layoutOf n fr, 0, oid, name, off, op, acc, returns⟩
  let s := { s with nextId := rid + 1 }
  let s := if returns then s
    else s.setFrame n f { fr with posted := fr.posted ++ [⟨rid, reach, atomic⟩] }
  let s := if home / 4096 = s.pos then s.post (.remoteRequest r)
    else if s.unreachable.contains (home / 4096) then s.post (.remoteNotice n f rid name .unreachable)
    else s.emit (.request r (home / 4096))
  (s, rid)

/-- A request to memory held at its home. -/
def State.request (s : State) (n f home : Nat) (oid name : BitVec 40) (off : Nat) (op : ReqOp) (acc : Acc)
    (returns atomic : Bool) : State × Nat :=
  s.requestFor n f home oid name off op acc returns atomic (s.enclosing n home)

/-! ### Translations of host memory (R112) -/

/-- What a die knows of a host page: none not asked, some false refused, some true granted. -/
def State.translation (s : State) (die pasid page : Nat) (write : Bool) : Option Bool :=
  match (s.dieAt die).ats.find? (fun t => decide (t.pasid = pasid ∧ t.page ≤ page ∧ page < t.page + t.count)) with
  | none => none
  | some t =>
    if write then (if t.write then some true else if t.forWrite || !t.read then some false else none)
    else some t.read

/-! ### Where an access of a frame goes -/

/-- The place of an access of a frame of core n, after the checks: a page fault, or a translation to wait for, ends the
instruction here (R110, R112, R271). -/
def State.locate (s : State) (n : Nat) (d : Desc) (off : Nat) (acc : Acc) (write : Bool) : Res Place :=
  let x := s.ctxAt (s.ctxOf n)
  match s.placeOf x d off (dieOf n) with
  | .unmapped => .error (.page ⟨d.oid, off, acc, false, write, false, 0⟩)
  | .host pasid va =>
    match s.translation (dieOf n) pasid (va / 4096) write with
    | none => .error (.wait (.translation (dieOf n) pasid (va / 4096) write))
    | some false => .error (.page ⟨d.oid, off, acc, true, write, true, va / 4096 * 4096⟩)
    | some true => .ok (.host pasid va)
  | p => .ok p

/-! ### Watermarks (R129, R207) -/

/-- A load of the bytes lo to hi - 1 of an object stalls under a watermark of the core's copy unit. -/
def State.stalled (s : State) (core : Nat) (oid : BitVec 40) (lo hi : Nat) : Bool :=
  (s.clusterAt (clusterOf core)).channels.any (fun p =>
    let ch := p.2
    let l := max lo ch.rbase
    let h := min hi (ch.rbase + ch.rlen)
    ch.arm && decide (ch.oid = oid ∧ ch.ctx = s.ctxOf core ∧ l < h ∧ ch.rbase + ch.w < h))

def State.watermark (s : State) (core : Nat) (oid : BitVec 40) (lo hi : Nat) : Res Unit :=
  if s.stalled core oid lo hi then .error (.wait (.watermark oid lo hi)) else .ok ()

/-! ### Stores of a frame -/

/-- What one store of a frame does once it is certain: it enters the buffer, leaves as a request, as one to host memory by the object's
home, or goes to the bus. -/
inductive StoreAct where
  | buffer (p : PStore)
  | request (home : Nat) (oid name : BitVec 40) (off : Nat) (op : ReqOp)
  | host (home : Nat) (oid : BitVec 40) (off : Nat) (bytes : List Byte)
  | bus (addr : Nat) (bytes : List Byte)
  deriving DecidableEq, Repr

def StoreAct.buffered : StoreAct → Option PStore
  | .buffer p => some p
  | _ => none

/-- The address that an access to memory of another die of this device reaches at its home. -/
def State.addrAtHome (s : State) (n : Nat) (d : Desc) (off home : Nat) : Option Nat :=
  if home / 4096 ≠ s.pos then none
  else match s.placeOf (s.ctxAt (s.ctxOf n)) d off (dieOf (home % 4096)) with
    | .here a _ => some a
    | .migrating a => some a
    | _ => none

/-- The action of one element's store, checks of descriptors and page maps included. One to host memory is for the object's home to
translate (R423). -/
def State.storeAct (s : State) (n f : Nat) (c : Cap) (d : Desc) (off : Nat) (bs : List Byte) (cap : Option Cap)
    (acc : Acc) : Res StoreAct := do
  let x := s.ctxAt (s.ctxOf n)
  let p ← (match s.placeOf x d off (dieOf n) with
    | .host pasid va => .ok (.host pasid va)
    | _ => s.locate n d off acc true : Res Place)
  match p with
  | .here a paged =>
    s.sound a bs.length
    s.tableCheck n f c a bs
    .ok (.buffer ⟨f, s.ctxOf n, d.oid, a, bs, cap, paged.map (fun _ => off)⟩)
  | .migrating a =>
    s.tableCheck n f c a bs
    .ok (.buffer ⟨f, s.ctxOf n, d.oid, a, bs, cap, some off⟩)
  | .remote h o =>
    match s.addrAtHome n d off h with
    | some a => s.tableCheck n f c a bs
    | none => .ok ()
    .ok (.request h o d.oid off (match cap with | some k => .storeCap k | none => .store bs))
  | .host _ _ => .ok (.host (s.homeOf x d (d.stripe off)) d.oid off bs)
  | .bus a => .ok (.bus a bs)
  | _ => .error (.trap CAPKIND 0)

/-- A PCI Express write of a frame is one of its posted accesses, which a `.sys` release waits for (R125). -/
def State.postBus (s : State) (n f : Nat) : State :=
  let fr := s.frameAt n f
  { s.setFrame n f { fr with posted := fr.posted ++ [⟨s.nextId, 7, false⟩] } with nextId := s.nextId + 1 }

/-- A write on the PCI Express bus, which the flushing read of a `.sys` release confirms (R113, R125). -/
def State.busWrite (s : State) (n f a : Nat) (bs : List Byte) : State := (s.postBus n f).emit (.busWrite s.nextId a bs)

/-- The stores of frame f of core n take effect, and those that the buffer has no room for enter one by one (R451). -/
def State.commitStores (s : State) (n f : Nat) (acts : List StoreAct) (acc : Acc) : State :=
  let s := acts.foldl (fun s a =>
    match a with
    | .buffer _ => s
    | .request h o m off op => (s.request n f h o m off op acc false false).1
    | .host h o off bs => (s.requestFor n f h o o off (.store bs) acc false false 7).1
    | .bus a bs => s.busWrite n f a bs) s
  let ps := acts.filterMap StoreAct.buffered
  let c := s.coreAt n
  let room := 16 - c.buffer.length
  let s := s.setCore n { c with buffer := c.buffer ++ ps.take room }
  if ps.length ≤ room then s
  else s.setFrame n f { s.frameAt n f with entering := ps.drop room, wait := some .entering }

/-- The buffer has room for the first of the stores, or the frame waits in place; a store that goes elsewhere stays behind a
release fence. -/
def State.room (s : State) (n f : Nat) (acts : List StoreAct) : Res Unit :=
  if s.fenced n f && acts.any (fun a => a.buffered.isNone) then .error (.wait (.release 0))
  else if (acts.filterMap StoreAct.buffered).isEmpty ∨ (s.coreAt n).buffer.length < 16 then .ok () else .error (.wait .room)

end Sys2Proof.Machine
end

