-- ==== Sys2Proof/Machine/Atomic.lean ====
section
/-! DEFINITION. Atomics (R130, R326 to R331, R347, R348). -/
namespace Sys2Proof.Machine

/-- One bf16 lane of FADDBF (R328). -/
def addBf (a b : Nat) : Nat := bf16.round .rne false ((bf16.value a).add (bf16.value b))

/-- Combine at width n (R328): the new value; OP 13 compares and swaps (R348). -/
def combineAt {n : Nat} (op : BitVec 5) (e old x : BitVec n) : BitVec n :=
  if op = 0 then old + x
  else if op = 1 then old &&& x
  else if op = 2 then old ||| x
  else if op = 3 then old ^^^ x
  else if op = 4 then (if x.slt old then x else old)
  else if op = 5 then (if old.slt x then x else old)
  else if op = 6 then (if x.ult old then x else old)
  else if op = 7 then (if old.ult x then x else old)
  else if op = 8 then x
  else if old = e then x else old

/-- Combine: integer operations at 32 or 64 bits, float operations at 32. -/
def combine (op : BitVec 5) (wide : Bool) (e old x : Word) : Word :=
  if wide then combineAt op e old x
  else
    let o : Lane := old.setWidth 32
    let y : Lane := x.setWidth 32
    if op = 9 then (addF o y).setWidth 64
    else if op = 10 then
      BitVec.ofNat 64 (addBf (o.toNat / 65536) (y.toNat / 65536) * 65536 + addBf (o.toNat % 65536) (y.toNat % 65536))
    else if op = 11 then (minF o y).setWidth 64
    else if op = 12 then (maxF o y).setWidth 64
    else (combineAt op (e.setWidth 32) o y : Lane).setWidth 64

/-- The size of an atomic (R46). -/
def atomicSize (wide : Bool) : Nat := if wide then 8 else 4

/-- The atomic at a memory port (R328 AtHome): the old value and the state with the new one. A value that does not
change is not written. -/
def State.atomicAt (s : State) (k a : Nat) (op : BitVec 5) (wide : Bool) (e x : Word) : Word × State :=
  let n := atomicSize wide
  let old : Word := BitVec.ofNat 64 (leNat (s.plain k a n))
  let e : Word := BitVec.ofNat 64 (e.toNat % 2 ^ (8 * n))
  if op = 13 ∧ old ≠ e then (old, s)
  else (old, s.performFor k a (leBytes n (combine op wide e old x).toNat) none)

/-- An atomic whose home is the frame's own core meets an uncorrectable error there (R286, R329): a MACHINE event of the core,
and for a frame that waits for the value REMOTEERR with reason 3. -/
def State.atomicBad (s : State) (nr : Bool) (oid : BitVec 40) (b : Nat) : State :=
  (if nr then s.skip 4 else s.raise s.core s.frame REMOTEERR (BitVec.ofNat 64 (oid.toNat * 256 + 3))).memoryError s.core b

/-- AMO and CAS of the frame whose instruction it is (R327, R328, R330, R348). -/
def State.amo (s : State) (sc : Nat) (nr wide : Bool) (op : BitVec 5) (x e : Word) (c : Cap) (d : BitVec 5) :
    Res State := do
  let n := atomicSize wide
  let (o, a) ← s.access s.core c 0 n n (rightR ||| rightW) [1] .frame true
  s.layoutCheck s.core s.frame c o
  let p ← s.locate s.core o a .atomic true
  let home := if s.far o then o.home else s.homeOf (s.ctxAt (s.ctxOf s.core)) o (o.stripe a)
  let e : Word := BitVec.ofNat 64 (e.toNat % 2 ^ (8 * n))
  let near ← match p with
    | .here addr _ => (do
        if addrExists addr then .ok () else .error (.hole addr)
        let old : Word := BitVec.ofNat 64 (leNat (s.readOwn s.core s.frame addr n))
        s.tableCheck s.core s.frame c addr (leBytes n (combine op wide e old x).toNat)
        .ok (some addr) : Res (Option Nat))
    | .migrating addr =>
      let old : Word := BitVec.ofNat 64 (leNat (s.readOwn s.core s.frame addr n))
      s.tableCheck s.core s.frame c addr (leBytes n (combine op wide e old x).toNat)
      if home = s.coreid s.core then .error (.wait (.migration (s.ctxOf s.core) o.oid (a / 65536))) else .ok (some 0)
    | .remote _ _ =>
      match s.addrAtHome s.core o a home with
      | some b => (do
          let old : Word := BitVec.ofNat 64 (leNat (s.plain (s.ctxOf s.core) b n))
          s.tableCheck s.core s.frame c b (leBytes n (combine op wide e old x).toNat)
          .ok none : Res (Option Nat))
      | none => .ok none
    | _ => .error (.trap CAPKIND 0)
  s.release s.core s.frame sc true
  match near with
  | some addr =>
    if home = s.coreid s.core then
      match s.badAt addr n with
      | some b => .ok (s.atomicBad nr o.oid b)
      | none =>
        let q := s.atomicAt (s.ctxOf s.core) addr op wide e x
        let t := q.2.served (s.ctxOf s.core) o.oid a addr
        .ok (if nr then t.skip 4 else t.writeG d q.1 4)
    else
      let q := s.request s.core s.frame home o.oid o.oid a (.amo op wide e x) .atomic (!nr) true
      if nr then .ok ((q.1.skip 4).waitHere s.core s.frame (.ack q.2))
      else .ok (q.1.parkFrame s.core s.frame (.remote 4 [q.2] (.atomic d wide)))
  | none =>
    let oid := match p with
      | .remote _ i => i
      | _ => o.oid
    let q := s.request s.core s.frame home oid o.oid a (.amo op wide e x) .atomic (!nr) true
    if nr then .ok (if sc = 0 then q.1.skip 4 else (q.1.skip 4).waitHere s.core s.frame (.ack q.2))
    else .ok (q.1.parkFrame s.core s.frame (.remote 4 [q.2] (.atomic d wide)))

/-- R328. -/
def execAmo (sc : BitVec 3) (n w : BitVec 1) (o b : BitVec 5) (c : BitVec 4) (d : BitVec 5) (s : State) :
    Host.Outcome State Fault Refusal :=
  s.finish (s.amo sc.toNat (n = 1) (w = 1) o (s.cur.gpr b) (s.cur.gpr d) (s.cur.cap c) d)

/-- R348. -/
def execCas (sc : BitVec 3) (w : BitVec 1) (b : BitVec 5) (c : BitVec 4) (d : BitVec 5) (s : State) :
    Host.Outcome State Fault Refusal :=
  s.finish (s.amo sc.toNat false (w = 1) 13 (s.cur.gpr b) (s.cur.gpr d) (s.cur.cap c) d)

end Sys2Proof.Machine
end

