-- ==== Sys2Proof/Machine/Barrier.lean ====
section
/-! DEFINITION. Memory barriers (R200 to R204, R334 to R337): their updates at the home, completion, the waiters, and
the five instructions. -/
namespace Sys2Proof.Machine

/-- A barrier is complete (R201). The number holds the low twelve bytes. -/
def barComplete (b : Nat) : Bool := decide (bitsOf b 47 0 = 0 ∧ bitsOf b 63 48 = bitsOf b 79 64)

def barErr (b : Nat) : Nat := bitsOf b 95 88

/-- An update, the phase apart (R200, R201, R335). -/
def barChange (b : Nat) : BarUpd → Nat
  | .add n =>
    let p := bitsOf b 47 0 + n
    if p < 2 ^ 48 then setField b 47 0 p else setField (setField b 47 0 (2 ^ 48 - 1)) 90 90 1
  | .sub n =>
    let p := bitsOf b 47 0
    if n ≤ p then setField b 47 0 (p - n) else setField (setField b 47 0 0) 89 89 1
  | .arrive =>
    let a := bitsOf b 63 48
    if a = bitsOf b 79 64 then setField b 88 88 1 else setField b 63 48 (a + 1)
  | .abortArrive n =>
    let p := bitsOf b 47 0
    let b := if n ≤ p then setField b 47 0 (p - n) else setField (setField b 47 0 0) 89 89 1
    let b := setField b 91 91 1
    let a := bitsOf b 63 48
    if a = bitsOf b 79 64 then setField b 88 88 1 else setField b 63 48 (a + 1)
  | .init n => n % 2 ^ 16 * 2 ^ 64
  | .err bit => setField b bit bit 1

/-- An update with the phase, which flips where a barrier becomes complete; not at BARINIT (R201). -/
def barUpdate (b : Nat) (u : BarUpd) : Nat :=
  let c := barChange b u
  let init := match u with
    | .init _ => true
    | _ => false
  if barComplete c && !barComplete b && !init then setField c 80 80 (1 - bitsOf c 80 80) else c

/-- The flat address of a barrier of this device: a live object in tier 1. -/
def State.barAddr (s : State) (k : Nat) (oid : BitVec 40) (off : Nat) : Option Nat :=
  let x := s.ctxAt k
  match s.liveAt x oid with
  | some d =>
    if d.tier = 1 ∧ !d.hb ∧ !d.pw ∧ !s.far d ∧ d.whole.isNone ∧ !d.pageReg then
      let a := padAddr (clusterOf (s.homeOf x d 0 % 4096)) (d.pmap + off)
      if addrExists a then some a else none
    else none
  | none => none

/-- An uncorrectable error in the low twelve bytes of a barrier (R286). -/
def State.barBad (s : State) (k : Nat) (oid : BitVec 40) (off : Nat) : Option Nat :=
  (s.barAddr k oid off).bind (fun a => s.badAt a 12)

/-- The core of a barrier's home. -/
def State.barHome (s : State) (k : Nat) (oid : BitVec 40) : Nat :=
  match s.liveAt (s.ctxAt k) oid with
  | some d => s.homeOf (s.ctxAt k) d 0 % 4096
  | none => 0

/-- The low twelve bytes of a barrier, where they can be read. -/
def State.barRead (s : State) (k : Nat) (oid : BitVec 40) (off : Nat) : Option Nat :=
  if (s.barBad k oid off).isSome then none else (s.barAddr k oid off).map (fun a => s.readNat a 12)

/-- The scan of BARANY (R203): the first selected barrier from BARROT on that is complete; hit names one that counts as
complete (R337). -/
def State.barScan (s : State) (k rot : Nat) (bars : List BarRef) (hit : Nat → Bool) : Option (Nat × Nat) :=
  (List.range 8).findSome? (fun i =>
    let n := (rot + i) % 8
    match bars.find? (fun b => decide (b.n = n)) with
    | none => none
    | some b =>
      match (if b.rid.isSome then none else s.barRead k b.oid b.off) with
      | some w => if barComplete w || hit n then some (n, barErr w) else none
      | none => if hit n then some (n, 0) else none)

/-- BARANY's result (R203). -/
def Frame.barAnyDone (fr : Frame) (d : BitVec 5) (n err : Nat) : Frame :=
  let fr := fr.setGpr d (BitVec.ofNat 64 (n + (if err ≠ 0 then 8 else 0)))
  { fr with barrot := BitVec.ofNat 64 ((n + 1) % 8) }.advance 4

/-- What a frame knows of a barrier: the level, and ERR (R203, R337). -/
def barWord (err : Nat) : Word := BitVec.ofNat 64 (1 + 2 * err)

/-- A waiting frame learns that one of its barriers has completed, with the ERR that stood then; BARANY runs its scan again, with that
one counted as complete (R337). -/
def State.barWake (s : State) (n f : Nat) (d : BitVec 5) (any : Bool) (bars : List BarRef) (hit : BarRef → Bool) (err : Nat) : State :=
  if any then
    match bars.find? hit with
    | some b => s.collected n f (.remote 4 [] (.tests [(b.n, barWord err)] []))
    | none => s
  else s.wake n f (fun fr => (fr.setGpr d (BitVec.ofNat 64 err)).advance 4)

/-- The frames and the other devices' waiters of a barrier that has just completed. A STOPPED frame keeps no result
(R337). -/
def State.barCompleted (s : State) (k : Nat) (oid : BitVec 40) (off err : Nat) : State :=
  let s := (s.framesOf k).foldl (fun s p =>
    let fr := s.frameAt p.1 p.2
    match fr.park with
    | some (.barrier d any bars) =>
      let hit (b : BarRef) : Bool := decide (b.oid = oid ∧ b.off = off) && b.rid.isNone
      if fr.saved.isNone && bars.any hit then s.barWake p.1 p.2 d any bars hit err else s
    | _ => s) s
  let mine (r : Request) : Bool := decide (r.ctx = k ∧ r.oid = oid ∧ r.off = off)
  let ws := s.barWaits.filter mine
  let s := { s with barWaits := s.barWaits.filter (fun r => !mine r) }
  ws.foldl (fun s r => s.sendValue r (.word (BitVec.ofNat 64 err))) s

/-- An update at the home (R201); a barrier that is gone is not updated, and one with an uncorrectable error is a machine event of its
home core (R286). -/
def State.updateBarrier (s : State) (k : Nat) (oid : BitVec 40) (off : Nat) (u : BarUpd) : State :=
  match s.barAddr k oid off with
  | none => s
  | some a =>
    match s.badAt a 12 with
    | some x => s.memoryError (s.barHome k oid) x
    | none =>
      let b := s.readNat a 12
      let c := barUpdate b u
      let s := s.performBytes a (leBytes 12 c) none
      let init := match u with
        | .init _ => true
        | _ => false
      if barComplete c && (!barComplete b || init) then s.barCompleted k oid off (barErr c) else s

/-- R201: an update that reaches a barrier of this device. -/
def execBarrierUpdate (ctx : Nat) (oid : BitVec 40) (off : Nat) (u : BarUpd) (s : State) :
    Host.Outcome State Fault Refusal :=
  .next (s.updateBarrier ctx oid off u)

/-! ### The instructions -/

/-- The check of a barrier capability (R203, R334): its object, the offset, the home core. -/
def State.barCheck (s : State) (c : Cap) : Res (Desc × Nat × Nat) := do
  let (o, a) ← s.access s.core c 0 32 32 (rightR ||| rightW) [4] .frame false
  if o.tier ≠ 1 ∨ o.hb ∨ o.pw ∨ o.pageReg ∨ o.whole.isSome then .error (.trap CAPKIND 0)
  else .ok (o, a, if s.far o then o.home else s.homeOf (s.ctxAt (s.ctxOf s.core)) o 0)

/-- An error under a barrier whose home is the frame's own core ends the instruction (R286). -/
def State.barSound (s : State) (o : Desc) (off home : Nat) : Res Unit :=
  match (if home = s.coreid s.core then s.barBad (s.ctxOf s.core) o.oid off else none) with
  | some x => .error (.bad x)
  | none => .ok ()

/-- A frame meets an error under a barrier of this device: at its own core it is the instruction's, at another one the service hart's
(R286). -/
def State.barBroken (s : State) (o : Desc) (home x : Nat) : State :=
  if home = s.coreid s.core then (s.retireAt x).raise s.core s.frame MACHINE (machineEval x)
  else (s.memoryError (home % 4096) x).raise s.core s.frame REMOTEERR (BitVec.ofNat 64 (o.oid.toNat * 256 + 3))

/-- The name that the home device has for an object (R105). -/
def State.nameAt (s : State) (d : Desc) : BitVec 40 := if s.far d then BitVec.ofNat 40 d.xbase else d.oid

/-- An update of a frame: at once when the home is its own core, else a posted request (R334). -/
def State.barPost (s : State) (o : Desc) (a home : Nat) (u : BarUpd) (op : ReqOp) : State :=
  if home = s.coreid s.core then s.updateBarrier (s.ctxOf s.core) o.oid a u
  else (s.request s.core s.frame home (s.nameAt o) o.oid a op .atomic false true).1

/-- R203: EXP from gA[15:0]. -/
def execBarinit (a : BitVec 5) (c : BitVec 4) (s : State) : Host.Outcome State Fault Refusal :=
  let n := s.cur.gpr a
  s.finish (do
    let (o, off, home) ← s.barCheck (s.cur.cap c)
    if n >>> 16 ≠ 0 then .error (.trap ILLEGAL n) else .ok ()
    s.barSound o off home
    .ok ((s.skip 4).barPost o off home (.init n.toNat) (.barInit n.toNat)))

/-- R335: a release at the enclosing scope of the home. -/
def execBararr (c : BitVec 4) (s : State) : Host.Outcome State Fault Refusal :=
  s.finish (do
    let (o, off, home) ← s.barCheck (s.cur.cap c)
    s.release s.core s.frame (s.enclosing s.core home) true
    s.barSound o off home
    .ok ((s.skip 4).barPost o off home .arrive .barArrive))

/-- R335: PEND grows by gA[47:0]. -/
def execBarpend (a : BitVec 5) (c : BitVec 4) (s : State) : Host.Outcome State Fault Refusal :=
  let n := s.cur.gpr a
  s.finish (do
    let (o, off, home) ← s.barCheck (s.cur.cap c)
    if n >>> 48 ≠ 0 then .error (.trap ILLEGAL n) else .ok ()
    s.release s.core s.frame (s.enclosing s.core home) true
    s.barSound o off home
    .ok ((s.skip 4).barPost o off home (.add n.toNat) (.barAdd n.toNat)))

/-- The remote operation is a barrier update. -/
def isBarUpdate : ReqOp → Bool
  | .barAdd _ => true | .barSub _ => true | .barArrive => true | .barInit _ => true
  | _ => false

/-- An update that this core has posted is on its way to a home: what comes after it to the same home waits, since one
core's requests to one home keep their order (R217, R334). -/
def State.barSettled (s : State) (home : Nat) : Res Unit :=
  let flying := s.inflight.any (fun i => match i with
    | .remoteRequest r => decide (r.core = s.coreid s.core ∧ r.home = home) && isBarUpdate r.op
    | _ => false)
  if flying then .error (.wait (.updates home)) else .ok ()

/-- The reference of one barrier of a wait; a barrier of another device is asked at its home (R334). -/
def State.barRef (s : State) (n : Nat) (q : Desc × Nat × Nat) : State × BarRef :=
  if s.far q.1 then
    let r := s.request s.core s.frame q.2.2 (s.nameAt q.1) q.1.oid q.2.1 .barWait .load true false
    (r.1, ⟨n, s.nameAt q.1, q.2.1, q.2.2, some r.2⟩)
  else (s, ⟨n, q.1.oid, q.2.1, q.2.2, none⟩)

/-- R203. -/
def execBarwait (c : BitVec 4) (d : BitVec 5) (s : State) : Host.Outcome State Fault Refusal :=
  s.finish (do
    let q ← s.barCheck (s.cur.cap c)
    s.barSettled q.2.2
    let k := s.ctxOf s.core
    match (if s.far q.1 then none else s.barBad k q.1.oid q.2.1) with
    | some x => .ok (s.barBroken q.1 q.2.2 x)
    | none =>
      let w := if s.far q.1 then none else s.barRead k q.1.oid q.2.1
      match w.filter barComplete with
      | some b => .ok (s.writeG d (BitVec.ofNat 64 (barErr b)) 4)
      | none =>
        let r := s.barRef 0 q
        .ok (r.1.parkFrame s.core s.frame (.barrier d false [r.2])))

/-- The capabilities c8 to c15 that a mask selects, checked in ascending order. -/
def State.barSelected (s : State) (m : BitVec 8) : Res (List (Nat × Desc × Nat × Nat)) :=
  ((List.range 8).filter (fun i => m.getLsbD i)).mapM (fun i => do
    let q ← s.barCheck (s.cur.cap (BitVec.ofNat 4 (8 + i)))
    .ok (i, q))

/-- What BARANY knows of its barriers: the level and ERR, by number, of those whose homes on other devices have been asked, and of the
one whose completion has woken it. -/
def Frame.barTests (fr : Frame) : List (Nat × Word) :=
  match fr.park with
  | some (.remote _ [] (.tests got _)) => got
  | _ => []

/-- The scan comes to a number before it finds a complete barrier (R203). -/
def scansFirst (rot : Nat) (found : Option (Nat × Nat)) (i : Nat) : Bool :=
  match found with
  | none => true
  | some (n, _) => decide ((i + 8 - rot) % 8 < (n + 8 - rot) % 8)

/-- The homes of some of BARANY's barriers are asked whether they are complete; what is known already is kept. -/
def State.askTests (s : State) (got : List (Nat × Word)) (qs : List (Nat × Desc × Nat × Nat)) : State :=
  let r := qs.foldl (fun (r : State × List (Nat × Nat)) q =>
    let t := r.1.request s.core s.frame q.2.2.2 (s.nameAt q.2.1) q.2.1.oid q.2.2.1 .barTest .load true false
    (t.1, r.2 ++ [(t.2, q.1)])) (s, [])
  r.1.parkFrame s.core s.frame (.remote 4 (r.2.map (·.1)) (.tests got r.2))

/-- R203, R204. -/
def execBarany (m : BitVec 8) (d : BitVec 5) (s : State) : Host.Outcome State Fault Refusal :=
  s.finish (do
    let qs ← s.barSelected m
    let _ ← qs.mapM (fun q => s.barSettled q.2.2.2)
    let k := s.ctxOf s.core
    let rot := bitsOf s.cur.barrot.toNat 2 0
    let got := s.cur.barTests
    let told (i : Nat) : Word := (look got i).getD 0
    let bars := qs.map (fun q => BarRef.mk q.1 q.2.1.oid q.2.2.1 q.2.2.2 (if s.far q.2.1 then some 0 else none))
    let found := s.barScan k rot bars (fun i => (told i).getLsbD 0)
    let early := qs.filter (fun q => scansFirst rot found q.1)
    let ask := early.filter (fun q => s.far q.2.1 && (look got q.1).isNone)
    let broken := early.findSome? (fun q => if s.far q.2.1 then none
      else (s.barBad k q.2.1.oid q.2.2.1).map (fun x => (q.2, x)))
    let s := s.setCur { s.cur with park := none }
    match broken with
    | some (q, x) => .ok (s.barBroken q.1 q.2.2 x)
    | none =>
      if !ask.isEmpty then .ok (s.askTests got ask)
      else match found with
      | some (n, e) =>
        let far := qs.any (fun q => decide (q.1 = n) && s.far q.2.1)
        .ok (s.setCur (s.cur.barAnyDone d n (if far then (told n).toNat / 2 else e)))
      | none =>
        let r := qs.foldl (fun (r : State × List BarRef) q =>
          let b := r.1.barRef q.1 q.2
          (b.1, r.2 ++ [b.2])) (s, [])
        .ok (r.1.parkFrame s.core s.frame (.barrier d true r.2)))

end Sys2Proof.Machine
end

