-- ==== Sys2Proof/Machine/Branch.lean ====
section
/-! DEFINITION. Branches, jumps, calls and returns (R41, R141 to R143, R338 to R346, R374, R407, R408, R446, R447). -/
namespace Sys2Proof.Machine

/-- BCC (R339): to the target when the condition holds, else to the next instruction. -/
def State.branch (s : State) (c : Bool) {n : Nat} (off : BitVec n) (len : Nat) : Host.Outcome State Fault Refusal :=
  .next (if c then s.jump (target s.cur.pc off) else s.skip len)

/-- R343. -/
def execBr (o : BitVec 25) (s : State) : Host.Outcome State Fault Refusal :=
  .next (s.jump (target s.cur.pc o))

/-- R61. -/
def execBr16 (o : BitVec 11) (s : State) : Host.Outcome State Fault Refusal :=
  .next (s.jump (target s.cur.pc o))

/-- R345. -/
def execCall (o : BitVec 25) (s : State) : Host.Outcome State Fault Refusal :=
  .next (s.setCur { s.cur.setGpr 31 s.link with pc := target s.cur.pc o })

/-- R338. -/
def execBeq (o : BitVec 12) (b a : BitVec 5) (s : State) : Host.Outcome State Fault Refusal :=
  s.branch (condEq (s.cur.gpr a) (s.cur.gpr b)) o 4

/-- R338. -/
def execBne (o : BitVec 12) (b a : BitVec 5) (s : State) : Host.Outcome State Fault Refusal :=
  s.branch (condNe (s.cur.gpr a) (s.cur.gpr b)) o 4

/-- R338. -/
def execBlt (o : BitVec 12) (b a : BitVec 5) (s : State) : Host.Outcome State Fault Refusal :=
  s.branch (condLt (s.cur.gpr a) (s.cur.gpr b)) o 4

/-- R338. -/
def execBge (o : BitVec 12) (b a : BitVec 5) (s : State) : Host.Outcome State Fault Refusal :=
  s.branch (condGe (s.cur.gpr a) (s.cur.gpr b)) o 4

/-- R338. -/
def execBltn (o : BitVec 12) (b a : BitVec 5) (s : State) : Host.Outcome State Fault Refusal :=
  s.branch (condLtn (s.cur.gpr a) (s.cur.gpr b)) o 4

/-- R338. -/
def execBgen (o : BitVec 12) (b a : BitVec 5) (s : State) : Host.Outcome State Fault Refusal :=
  s.branch (condGen (s.cur.gpr a) (s.cur.gpr b)) o 4

/-- R340. -/
def execBez (o : BitVec 6) (d : BitVec 5) (s : State) : Host.Outcome State Fault Refusal :=
  s.branch (condEq (s.cur.gpr d) 0) o 2

/-- R340. -/
def execBnz (o : BitVec 6) (d : BitVec 5) (s : State) : Host.Outcome State Fault Refusal :=
  s.branch (condNe (s.cur.gpr d) 0) o 2

/-- R374: the counter goes down by one and the loop goes on while it is not zero; g0 reads zero and never branches. -/
def execLoop (o : BitVec 12) (a : BitVec 5) (s : State) : Host.Outcome State Fault Refusal :=
  let fr := s.cur.setGpr a (s.cur.gpr a - 1)
  .next (if fr.gpr a ≠ 0 then s.setCur { fr with pc := target fr.pc o } else s.setCur (fr.advance 4))

/-- R345: an odd target raises ALIGN and the jump is not taken. -/
def execJr (a : BitVec 5) (s : State) : Host.Outcome State Fault Refusal :=
  let t := s.cur.gpr a
  s.finish (if t.getLsbD 0 then .error (.trap ALIGN (zext64 (t.setWidth 32))) else .ok (s.jump (t.setWidth 32)))

/-- R345: the target is read before g31 is written. -/
def execCallr (a : BitVec 5) (s : State) : Host.Outcome State Fault Refusal :=
  let t := s.cur.gpr a
  s.finish (if t.getLsbD 0 then .error (.trap ALIGN (zext64 (t.setWidth 32)))
    else .ok (s.setCur { s.cur.setGpr 31 s.link with pc := t.setWidth 32 }))

/-- RET of R408, through a link value: STRAGGLER when the version is neither imago nor exuvia, then ALIGN (R143). -/
def State.ret (s : State) (t : Word) : Res State :=
  let off : BitVec 32 := t.setWidth 32
  if s.frame = 10 then
    if t.getLsbD 0 then .error (.trap ALIGN (zext64 off)) else .ok (s.jump off)
  else
    let m := t.extractLsb' 32 24
    match (s.ctxAt (s.ctxOf s.core)).entered m (t.extractLsb' 56 8) with
    | none => .error (.trap STRAGGLER t)
    | some v =>
      if t.getLsbD 0 then .error (.trap ALIGN (zext64 off))
      else .ok (s.setCur (s.cur.enter m v off))

/-- R408. -/
def execRet (a : BitVec 5) (s : State) : Host.Outcome State Fault Refusal := s.finish (s.ret (s.cur.gpr a))

/-- R61: RET through g31. -/
def execRet16 (s : State) : Host.Outcome State Fault Refusal := s.finish (s.ret (s.cur.gpr 31))

/-- R447: a qualified call into the imago of the module. -/
def execXcall (i : BitVec 16) (m : BitVec 4) (s : State) : Host.Outcome State Fault Refusal :=
  let x := s.cur.cap m
  let md : BitVec 24 := x.oid.setWidth 24
  s.finish (
    if s.frame = 10 then .error (.trap PRIV 0)
    else if x.tag = false then .error (.trap CAPTAG 0)
    else if x.kind ≠ 2 then .error (.trap CAPKIND 0)
    else if x.rights &&& rightS = 0 then .error (.trap CAPRIGHT (rightEval 0 rightS.toNat))
    else
      match (s.ctxAt (s.ctxOf s.core)).imago md with
      | none => .error (.trap ILLEGAL (BitVec.ofNat 64 (md.toNat * 65536 + i.toNat)))
      | some v =>
        match look v.entries i.toNat with
        | none => .error (.trap ILLEGAL (BitVec.ofNat 64 (md.toNat * 65536 + i.toNat)))
        | some pc => .ok (s.setCur ((s.cur.setGpr 31 s.link).enter md v pc)))

end Sys2Proof.Machine
end

