-- ==== Sys2Proof/Machine/CapOps.lean ====
section
/-! DEFINITION. The capability operations (R42, R349 to R351). They only narrow, and work on registers alone. -/
namespace Sys2Proof.Machine

/-- RequireNarrowable of R350. -/
def narrowable (c : Cap) (kinds : List Nat) : Res Unit :=
  if c.tag = false then .error (.trap CAPTAG 0)
  else if !kinds.contains c.kind.toNat then .error (.trap CAPKIND 0)
  else .ok ()

/-- R350; c0 as destination: discarded. -/
def execCmov (a d : BitVec 4) (s : State) : Host.Outcome State Fault Refusal :=
  .next (s.writeC d (s.cur.cap a) 4)

/-- R350: the base moves up and the length shrinks by the increment. -/
def execCinc (b : BitVec 5) (a d : BitVec 4) (s : State) : Host.Outcome State Fault Refusal :=
  let c := s.cur.cap a
  let n := s.cur.gpr b
  s.finish (do
    narrowable c [1, 4, 6]
    if c.len.toNat < n.toNat then .error (.trap CAPBOUND n)
    else .ok (s.writeC d { c with base := c.base + n.setWidth 36, len := c.len - n.setWidth 36 } 4))

/-- R350. -/
def execCbnd (b : BitVec 5) (a d : BitVec 4) (s : State) : Host.Outcome State Fault Refusal :=
  let c := s.cur.cap a
  let n := s.cur.gpr b
  s.finish (do
    narrowable c [1, 4, 6]
    if c.len.toNat < n.toNat then .error (.trap CAPBOUND n)
    else .ok (s.writeC d { c with len := n.setWidth 36 } 4))

/-- R350: a mask with a bit above [7:0] raises ILLEGAL. -/
def execCperm (b : BitVec 5) (a d : BitVec 4) (s : State) : Host.Outcome State Fault Refusal :=
  let c := s.cur.cap a
  let n := s.cur.gpr b
  s.finish (do
    if n >>> 8 ≠ 0 then .error (.trap ILLEGAL n)
    else
      narrowable c [1, 2, 3, 4, 5, 6]
      .ok (s.writeC d { c with rights := c.rights &&& n.setWidth 8 } 4))

/-- The fields of CGET (R351). -/
def capField (c : Cap) (sel : BitVec 5) : Word :=
  if sel = 0 then zext64 c.oid else if sel = 1 then zext64 c.base else if sel = 2 then zext64 c.len
  else if sel = 3 then zext64 c.rights else if sel = 4 then zext64 c.kind else boolWord c.tag

/-- R350, R351. -/
def execCget (sel : BitVec 5) (a : BitVec 4) (d : BitVec 5) (s : State) : Host.Outcome State Fault Refusal :=
  .next (s.writeG d (capField (s.cur.cap a) sel) 4)

/-- R350: tags and bits are equal. -/
def execCeq (b a : BitVec 4) (d : BitVec 5) (s : State) : Host.Outcome State Fault Refusal :=
  .next (s.writeG d (boolWord (decide (s.cur.cap a = s.cur.cap b))) 4)

end Sys2Proof.Machine
end

