-- ==== Sys2Proof/Machine/Sha3.lean ====
section
/-! DEFINITION. SHA3-512 (FIPS 202), which the spec names for digests (R28, R197, R308, R312; log 21). The state is one number of 1,600
bits: lane (x, y) is its bits from 64 (x + 5 y) up, and five lanes of one y are a plane. -/
namespace Sys2Proof.Machine

/-- f x, with x evaluated before f is entered, so that an evaluation by the kernel works it out once. -/
def strict {α : Type} (x : Nat) (f : Nat → α) : α :=
  match x with
  | 0 => f 0
  | k + 1 => f (k + 1)

/-- A number repeated in each of the five planes. -/
def planes (p : Nat) : Nat := Nat.mul p (Nat.div (Nat.sub (Nat.pow 2 1600) 1) (Nat.sub (Nat.pow 2 320) 1))

/-- The lanes x < j of every plane. -/
def lanesBelow (j : Nat) : Nat := planes (Nat.sub (Nat.pow 2 (Nat.mul 64 j)) 1)

/-- Every plane turned: lane x is what lane x + k was, modulo 5. -/
def turned (k a : Nat) : Nat :=
  let m := lanesBelow (Nat.sub 5 k)
  Nat.lor (Nat.land (Nat.shiftRight a (Nat.mul 64 k)) m)
    (Nat.land (Nat.shiftLeft a (Nat.mul 64 (Nat.sub 5 k))) (Nat.xor m (lanesBelow 5)))

/-- The lanes of one plane, each rotated by one bit. -/
def rotatedByOne (p : Nat) : Nat :=
  let low := Nat.div (Nat.sub (Nat.pow 2 320) 1) (Nat.sub (Nat.pow 2 64) 1)
  Nat.lor (Nat.land (Nat.shiftLeft p 1) (Nat.xor (Nat.sub (Nat.pow 2 320) 1) low)) (Nat.land (Nat.shiftRight p 63) low)

/-- θ: to each lane the parities of two columns. -/
def theta (a : Nat) : Nat :=
  let plane (y : Nat) : Nat := Nat.mod (Nat.shiftRight a (Nat.mul 320 y)) (Nat.pow 2 320)
  strict (Nat.xor (plane 0) (Nat.xor (plane 1) (Nat.xor (plane 2) (Nat.xor (plane 3) (plane 4))))) fun c =>
    Nat.xor a (planes (Nat.xor (Nat.mod (turned 4 c) (Nat.pow 2 320)) (rotatedByOne (Nat.mod (turned 1 c) (Nat.pow 2 320)))))

/-- ρ and π along the walk (x, y) to (y, 2 x + 3 y): the t-th lane of it moves on by one place, rotated by t (t + 1) / 2. -/
def walk (a : Nat) : Nat → Nat → Nat → Nat → Nat → Nat
  | 0, _, _, _, acc => acc
  | n + 1, x, y, t, acc =>
    strict (Nat.mod (Nat.shiftRight a (Nat.mul 64 (Nat.add x (Nat.mul 5 y)))) (Nat.pow 2 64)) fun l =>
    strict (Nat.mod (Nat.div (Nat.mul t (Nat.add t 1)) 2) 64) fun r =>
    strict (Nat.mod (Nat.add (Nat.mul 2 x) (Nat.mul 3 y)) 5) fun z =>
    strict (Nat.add t 1) fun u =>
    strict (Nat.lor acc (Nat.shiftLeft
      (Nat.lor (Nat.mod (Nat.shiftLeft l r) (Nat.pow 2 64)) (Nat.shiftRight l (Nat.sub 64 r)))
      (Nat.mul 64 (Nat.add y (Nat.mul 5 z))))) fun b =>
    walk a n y z u b

/-- ρ and π: lane (0, 0) stays. -/
def rhoPi (a : Nat) : Nat := walk a 24 1 0 1 (Nat.mod a (Nat.pow 2 64))

/-- χ: a lane and the two to its right in its plane. -/
def chi (a : Nat) : Nat := Nat.xor a (Nat.land (Nat.xor (turned 1 a) (lanesBelow 5)) (turned 2 a))

/-- ι's constant: the register's next bits at the given places; f receives the constant and the register. -/
def iota {α : Type} (f : Nat → Nat → α) : List Nat → Nat → Nat → α
  | [], c, r => f c r
  | p :: ps, c, r =>
    strict (Nat.add c (Nat.mul (Nat.mod r 2) (Nat.pow 2 p))) fun c =>
    strict (Nat.xor (Nat.mul 2 r) (Nat.mul 0x171 (Nat.div r 128))) fun r => iota f ps c r

/-- So many rounds of Keccak-f[1600], with the register of ι. -/
def rounds : Nat → Nat → Nat → Nat
  | 0, _, a => a
  | n + 1, r, a =>
    strict (theta a) fun b => strict (rhoPi b) fun b => strict (chi b) fun b =>
    iota (fun c r => strict (Nat.xor b c) fun b => rounds n r b) [0, 1, 3, 7, 15, 31, 63] 0 r

/-- A block of 72 bytes is absorbed. -/
def absorb (a : Nat) (block : List Byte) : Nat := strict (Nat.xor a (leNat block)) fun b => rounds 24 1 b

/-- The message in blocks, the last with the padding of SHA-3. -/
def sha3Blocks : Nat → List Byte → List (List Byte)
  | 0, _ => []
  | fuel + 1, m =>
    if m.length < 72 then
      let z := 72 - m.length
      if z = 1 then [m ++ [0x86]] else [m ++ [0x06] ++ List.replicate (z - 2) 0 ++ [0x80]]
    else m.take 72 :: sha3Blocks fuel (m.drop 72)

/-- SHA3-512 of a byte string. -/
def sha3 (m : List Byte) : List Byte := leBytes 64 ((sha3Blocks (m.length / 72 + 1) m).foldl absorb 0)

end Sys2Proof.Machine
end

