-- ==== Sys2Proof/Machine/Engine.lean ====
section
/-! DEFINITION. How the engines of a die reach memory (R93, R128, R199): reads and writes of an object in pieces that lie
in one page, what they meet, and the fault-queue records of their sectors (R275, R287). -/
namespace Sys2Proof.Machine

/-- What an engine's access meets: a translation to ask for, a page fault, an object or address that is gone, an
uncorrectable error, a page under migration. -/
inductive EMiss where
  | ask (pasid page : Nat) (write : Bool)
  | fault (host : Bool) (off : Nat)
  | gone
  | bad (addr : Nat)
  | held
  deriving DecidableEq, Repr

/-- The pieces of a range that lie in one 4 KiB page each: offset and length. -/
def pieces (off n : Nat) : List (Nat × Nat) :=
  if n = 0 then [] else
  (List.range ((off + n - 1) / 4096 - off / 4096 + 1)).map (fun i =>
    let lo := max off ((off / 4096 + i) * 4096)
    (lo, min (off + n) ((off / 4096 + i + 1) * 4096) - lo))

/-- One piece of an engine's access with its place. -/
structure Piece where
  off   : Nat
  len   : Nat
  place : Place
  deriving DecidableEq, Repr

/-- One piece finds its place, or does not; die is that of the host port which translates. -/
def State.pieceAt (s : State) (die : Nat) (write : Bool) (off len : Nat) (p : Place) : Except EMiss Piece :=
  let sound (a : Nat) (p : Place) : Except EMiss Piece :=
    if !spanExists a len then .error .gone
    else match s.badAt a len with
      | some b => .error (.bad b)
      | none => .ok ⟨off, len, p⟩
  match p with
  | .here a g => sound a (.here a g)
  | .migrating a => if write then .error .held else sound a (.migrating a)
  | .host pasid va =>
    match s.translation die pasid (va / 4096) write with
    | none => .error (.ask pasid (va / 4096) write)
    | some false => .error (.fault true off)
    | some true => .ok ⟨off, len, .host pasid va⟩
  | .unmapped => .error (.fault false off)
  | .register => .error .gone
  | p => .ok ⟨off, len, p⟩

/-- Each piece of a range of an object finds its place for an engine on a die, or the first that does not ends the access. -/
def State.enginePieces (s : State) (x : Context) (d : Desc) (off n die : Nat) (write : Bool) :
    Except EMiss (List Piece) :=
  (pieces off n).mapM (fun q => s.pieceAt die write q.1 q.2 (s.placeOf x d q.1 die))

/-- The same for an access that is made at the homes of the object (R227, R228). -/
def State.homePieces (s : State) (x : Context) (d : Desc) (off n : Nat) (write : Bool) : Except EMiss (List Piece) :=
  (pieces off n).mapM (fun q =>
    let die := dieOf (s.homeOf x d (d.stripe q.1) % 4096)
    s.pieceAt die write q.1 q.2 (s.placeOf x d q.1 die))

/-- The controller counts an engine's access, once for each 256-byte sector that it touches (R114). -/
def State.servedAll (s : State) (k : Nat) (oid : BitVec 40) (off a n : Nat) : State :=
  (List.range (if n = 0 then 0 else (off + n - 1) / 256 - off / 256 + 1)).foldl (fun s i =>
    let o := max off ((off / 256 + i) * 256)
    s.served k oid o (a + (o - off))) s

/-- The tagged granules that lie whole within the n bytes from object offset off at address a, by their distance from a. -/
def State.tagsOf (s : State) (off a n : Nat) : List Nat :=
  ((List.range (n / 16 + 1)).map (fun i => (16 - off % 16) % 16 + 16 * i)).filter (fun i =>
    decide (i + 16 ≤ n) && s.tags.contains ((a + i) / 16))

/-- Granules take tags, by their distance from an address. -/
def State.setTags (s : State) (a : Nat) (tags : List Nat) : State :=
  tags.foldl (fun s i => { s with tags := insertNat s.tags ((a + i) / 16) }) s

/-- The bytes of a piece that lies here. -/
def State.pieceBytes (s : State) (k : Nat) (oid : BitVec 40) (p : Piece) : Option (List Byte × List Nat × State) :=
  match p.place with
  | .here a _ => some (s.plain k a p.len, s.tagsOf p.off a p.len, s.servedAll k oid p.off a p.len)
  | .migrating a => some (s.plain k a p.len, s.tagsOf p.off a p.len, s.servedAll k oid p.off a p.len)
  | .host pasid va => some (memBytes s.mem (hostAddr pasid va) p.len, [], s)
  | _ => none

/-- The bytes of an engine's read whose pieces lie here. -/
def State.engineBytes (s : State) (k : Nat) (oid : BitVec 40) (ps : List Piece) : List Byte × State :=
  ps.foldl (fun r p => match r.2.pieceBytes k oid p with
    | some q => (r.1 ++ q.1, q.2.2)
    | none => r) ([], s)

/-- A request of an engine for a core leaves for a home (R93, R217); its number. -/
def State.engineRequest (s : State) (core k agent home : Nat) (oid name : BitVec 40) (off : Nat) (op : ReqOp)
    (returns : Bool) : State × Nat :=
  let rid := s.nextId
  let r : Request := ⟨rid, s.coreid core, engineFrame, k, home, 0, 0, 0, agent, oid, name, off, op,
    if returns then .load else .store, returns⟩
  let s := { s with nextId := rid + 1 }
  (if home / 4096 = s.pos then s.post (.remoteRequest r)
    else if s.unreachable.contains (home / 4096) then s.post (.remoteNotice core engineFrame rid name .unreachable)
    else s.emit (.request r (home / 4096)), rid)

/-- An engine's read on the PCI Express bus (R113). -/
def State.engineBus (s : State) (a n : Nat) : State × Nat :=
  (({ s with nextId := s.nextId + 1 } : State).emit (.busRead s.nextId a n), s.nextId)

/-- Nothing read. -/
def Intake.empty : Intake := ⟨[], [], [], none⟩

/-- A piece of an operand has been read or is on its way. -/
def Intake.has (x : Intake) (part off : Nat) : Bool :=
  x.got.any (fun g => decide (g.1 = part ∧ g.2.1 = off)) || x.sent.any (fun g => decide (g.2.1 = part ∧ g.2.2 = off))

def Intake.put (x : Intake) (part off : Nat) (bs : List Byte) (tags : List Nat) : Intake :=
  { x with got := x.got ++ [(part, off, bs, tags)] }

/-- The bytes and the tags of a piece. -/
def Intake.at_ (x : Intake) (part off : Nat) : Option (List Byte × List Nat) :=
  (x.got.find? (fun g => decide (g.1 = part ∧ g.2.1 = off))).map (fun g => g.2.2)

/-- Every one of some pieces has been read. -/
def Intake.full (x : Intake) (part : Nat) (ps : List (Nat × Nat)) : Bool := ps.all (fun q => (x.at_ part q.1).isSome)

/-- The bytes of successive pieces, zeros for one that has not been read, and the distances of the tagged granules from their
first byte. -/
def Intake.bytes (x : Intake) (part : Nat) (ps : List (Nat × Nat)) : List Byte × List Nat :=
  ps.foldl (fun r q =>
    match x.at_ part q.1 with
    | some g => (r.1 ++ g.1, r.2 ++ g.2.map (· + r.1.length))
    | none => (r.1 ++ List.replicate q.2 0, r.2)) ([], [])

/-- What was read of an operand is used up. -/
def Intake.used (x : Intake) (part : Nat) : Intake :=
  { x with got := x.got.filter (fun g => decide (g.1 ≠ part)), sent := x.sent.filter (fun g => decide (g.2.1 ≠ part)) }

/-- Sectors of an operand no longer wait in a fault queue. -/
def Intake.freed (x : Intake) (part : Nat) (sectors : List Nat) : Intake :=
  { x with held := x.held.filter (fun h => !(decide (h.1 = part) && sectors.contains h.2)) }

/-- A request of an engine comes back without its bytes. -/
def Intake.lost (x : Intake) (rid : Nat) : Intake := { x with sent := x.sent.filter (fun g => decide (g.1 ≠ rid)) }

/-- The answer to a request of an engine. -/
def Intake.answer (x : Intake) (rid : Nat) (bs : List Byte) (tags : List Nat) : Intake :=
  match x.sent.find? (fun g => decide (g.1 = rid)) with
  | some g => { x with got := x.got ++ [(g.2.1, g.2.2, bs, tags)], sent := x.sent.filter (fun g => decide (g.1 ≠ rid)) }
  | none => x

/-- A piece that has not been read is read where it lies here, and asked for at its home or on the bus where it does not. -/
def State.fetchPiece (s : State) (core k agent : Nat) (name : BitVec 40) (x : Intake) (part : Nat) (p : Piece) :
    State × Intake :=
  if x.has part p.off then (s, x)
  else match s.pieceBytes k name p with
    | some q => (q.2.2, x.put part p.off q.1 q.2.1)
    | none =>
      match p.place with
      | .remote h oid =>
        let r := s.engineRequest core k agent h oid name p.off (.read p.len) true
        (r.1, { x with sent := x.sent ++ [(r.2, part, p.off)] })
      | .bus a =>
        let r := s.engineBus a p.len
        (r.1, { x with sent := x.sent ++ [(r.2, part, p.off)] })
      | _ => (s, x)

def State.fetchPieces (s : State) (core k agent : Nat) (name : BitVec 40) (x : Intake) (part : Nat) (ps : List Piece) :
    State × Intake :=
  ps.foldl (fun r p => r.1.fetchPiece core k agent name r.2 part p) (s, x)

/-- An engine writes one piece: here, to the host, as a posted write on the bus, or as a request to its home; the number of
one that is to be acknowledged. A descriptor or a page map takes what an engine writes there, whatever the right O and the rules for
software's stores (DESIGN CHOICE, log 109). -/
def State.writePiece (s : State) (core k agent : Nat) (name : BitVec 40) (p : Piece) (bs : List Byte) (tags : List Nat) :
    State × List Nat :=
  match p.place with
  | .here a _ => (((s.performFor k a bs none).setTags a tags).servedAll k name p.off a p.len, [])
  | .host pasid va => ({ s with mem := memPut s.mem (hostAddr pasid va) bs }, [])
  | .bus a => (({ s with nextId := s.nextId + 1 } : State).emit (.busWrite s.nextId a bs), [s.nextId])
  | .remote h oid =>
    let r := s.engineRequest core k agent h oid name p.off (.write bs tags) false
    (r.1, [r.2])
  | _ => (s, [])

/-- An engine writes bytes, with the tags of granules by their distance from the first byte: each piece in its place. -/
def State.engineWrite (s : State) (core k agent : Nat) (name : BitVec 40) (ps : List Piece) (bs : List Byte)
    (tags : List Nat) : State × List Nat :=
  let first := (ps.head?.map (·.off)).getD 0
  ps.foldl (fun r p =>
    let lo := p.off - first
    let mine := (tags.filter (fun i => decide (lo ≤ i ∧ i < lo + p.len))).map (· - lo)
    let q := r.1.writePiece core k agent name p ((bs.drop lo).take p.len) mine
    (q.1, r.2 ++ q.2)) (s, [])

/-! ### Sectors and spans (R275, R287) -/

/-- Spans of up to 64 sectors, from ascending sector numbers. -/
def spans : Nat → List Nat → List (List Nat)
  | 0, _ => []
  | _, [] => []
  | fuel + 1, l :: ls => (l :: ls).filter (fun i => decide (i < l + 64)) ::
      spans fuel ((l :: ls).filter (fun i => decide (l + 64 ≤ i)))

/-- SMASK of a span. -/
def spanMask (sp : List Nat) : Word :=
  match sp with
  | [] => 0
  | l :: _ => BitVec.ofNat 64 ((sp.map (fun i => 2 ^ (i - l))).sum)

/-- The sectors of a range cut at multiples of 256 of its own offsets: how many, and the i-th (R275). -/
def cutCount (off n : Nat) : Nat := if n = 0 then 0 else (off + n - 1) / 256 - off / 256 + 1

def cutAt (off n i : Nat) : Nat × Nat :=
  let lo := max off ((off / 256 + i) * 256)
  (lo, min (off + n) ((off / 256 + i + 1) * 256) - lo)

/-- The die whose fault queue takes a fault: the home's for a device page, the engine's for a host page. -/
def State.faultDie (s : State) (x : Context) (d : Desc) (off die : Nat) (host : Bool) : Nat :=
  if host then die else dieOf (s.homeOf x d (d.stripe off) % 4096)

/-- The sectors of a request, by a test on the bytes of each in the faulting object, that touch the page of an offset. -/
def inPage (host : Bool) (off : Nat) (at_ : Nat → Nat × Nat) (sectors : List Nat) : List Nat :=
  let psize := if host then 4096 else 65536
  let page := off / psize
  sectors.filter (fun i =>
    let q := at_ i
    decide (q.1 < (page + 1) * psize ∧ page * psize < q.1 + q.2))

/-- Every sector of a request in one page of the faulting object enters the fault queue, in spans (R287); none when the
queue has not room for all (R276). req is the COREID of the requester. at gives the offset and length of a sector in the faulting object. -/
def State.enterSpans (s : State) (k die req agent : Nat) (d : Desc) (host : Bool) (off : Nat) (sectors : List Nat)
    (at_ : Nat → Nat × Nat) (held : List Nat → Held) : Option State :=
  let x := s.ctxAt k
  let mine := inPage host off at_ sectors
  let sp := spans mine.length mine
  let q := s.faultDie x d off die host
  if 256 < (s.dieAt q).faultq.length + sp.length then none
  else some (sp.foldl (fun s g =>
    let first := (at_ (g.headD 0)).1
    s.addRecord q (s.homeOf x d (d.stripe off)) ⟨0, 0, k, d.oid, if host then 2 else 1, agent, 1, first, req,
      (g.map (fun i => (at_ i).2)).sum, false, spanMask g,
      if host then (d.xbase + off) / 4096 else off / 65536, held g⟩) s)

/-- The queue that had no room, and the records that the sectors need. -/
def State.jamAt (s : State) (k die : Nat) (d : Desc) (host : Bool) (off : Nat) (mine : List Nat) : Option (Nat × Nat) :=
  some (s.faultDie (s.ctxAt k) d off die host, (spans mine.length mine).length)

/-- An agent whose fault found no room accepts nothing until there is (R276). -/
def State.jammed (s : State) (x : Intake) : Bool :=
  match x.jam with
  | some (die, n) => decide (256 < (s.dieAt die).faultq.length + n)
  | none => false

/-- The sectors of a range (R275). -/
def cuts (off n : Nat) : List (Nat × Nat) := (List.range (cutCount off n)).map (cutAt off n)

/-- An operand of an engine's job: the capability and the bytes of its window that the job reads (R180, R210). -/
structure Operand where
  core  : Nat
  ctx   : Nat
  agent : Nat
  die   : Nat
  part  : Nat
  cap   : Cap
  len   : Nat
  held  : List Nat → Held

/-- The sectors of an operand in a page that faulted enter the fault queue, those already read apart; with the queue full
they wait (R276, R287). -/
def State.operandFault (s : State) (o : Operand) (d : Desc) (x : Intake) (host : Bool) (off : Nat) : State × Intake :=
  let at_ := cutAt o.cap.base.toNat o.len
  let left := (List.range (cutCount o.cap.base.toNat o.len)).filter (fun i =>
    (x.at_ o.part (at_ i).1).isNone && !x.held.contains (o.part, i))
  let mine := inPage host off at_ left
  match s.enterSpans o.ctx o.die (s.coreid o.core) o.agent d host off left at_ o.held with
  | some t => (t, { x with held := x.held ++ mine.map (fun i => (o.part, i)), jam := none })
  | none => (s, { x with jam := s.jamAt o.ctx o.die d host off mine })

/-- One sector of an operand is read, unless it has been, is on its way or waits in a fault queue. -/
def State.fetchSector (s : State) (o : Operand) (d : Desc) (x : Intake) (i : Nat) : Except EMiss (State × Intake) :=
  let q := cutAt o.cap.base.toNat o.len i
  if x.has o.part q.1 || x.held.contains (o.part, i) then .ok (s, x)
  else match s.pieceAt o.die false q.1 q.2 (s.placeOf (s.ctxAt o.ctx) d q.1 o.die) with
    | .ok p => .ok (s.fetchPiece o.core o.ctx o.agent o.cap.oid x o.part p)
    | .error (.fault host off) => .ok (s.operandFault o d x host off)
    | .error (.ask pasid page write) => .ok (s.askTranslation o.die pasid page write, x)
    | .error .held => .ok (s, x)
    | .error e => .error e

/-- Every sector of an operand that can be read now is read (R287); an object that is gone or an uncorrectable error ends the
job. -/
def State.fetchOperand (s : State) (o : Operand) (x : Intake) : Except EMiss (State × Intake) :=
  match s.liveAt (s.ctxAt o.ctx) o.cap.oid with
  | none => .error .gone
  | some d => (List.range (cutCount o.cap.base.toNat o.len)).foldlM (fun r i => r.1.fetchSector o d r.2 i) (s, x)

/-- The operands of a job, in order. -/
def State.fetchOperands (s : State) (os : List Operand) (x : Intake) : Except EMiss (State × Intake) :=
  os.foldlM (fun r o => r.1.fetchOperand o r.2) (s, x)

/-- Every sector of every operand has been read. -/
def Intake.complete (x : Intake) (os : List Operand) : Bool := os.all (fun o => x.full o.part (cuts o.cap.base.toNat o.len))

end Sys2Proof.Machine
end

