-- ==== Sys2Proof/Machine/Image.lean ====
section
/-! DEFINITION. Virpo module images (R28, R29) and the images that MINST refuses (R30). -/
namespace Sys2Proof.Machine

/-- A constant record (R29): its slot, and its object record unless the runtime binds the slot. -/
structure ConstRec where
  slot : Nat
  obj  : Option Nat
  deriving DecidableEq, Repr

/-- An object record (R29) with its initial contents. -/
structure ObjRec where
  size : Nat
  tier : Nat
  data : List Byte
  deriving DecidableEq, Repr

/-- A module image that R30 does not refuse. -/
structure Image where
  modid    : BitVec 24
  ver      : BitVec 8
  layout   : BitVec 16
  text     : List Byte
  handlers : List (BitVec 32)
  entries  : List (Nat × BitVec 32)
  convs    : List (Nat × BitVec 32)
  consts   : List ConstRec
  lives    : List (Nat × BitVec 32 × BitVec 32 × BitVec 16 × BitVec 8)
  objs     : List ObjRec
  deriving DecidableEq, Repr

/-- The n bytes of an image from an offset. -/
def cut (img : List Byte) (off n : Nat) : List Byte := (img.drop off).take n

/-- The little-endian value of n bytes of an image. -/
def field (img : List Byte) (off n : Nat) : Nat := leNat (cut img off n)

/-- The marker of an undefined class or of a slot that the runtime binds (R29). -/
def noCode : Nat := 0xFFFFFFFF

/-- A range lies inside an image. -/
def inside (img : List Byte) (off n : Nat) : Bool := decide (off + n ≤ img.length)

/-- A code offset that R30 accepts. -/
def codeOk (textLen off : Nat) : Bool := decide (off % 2 = 0 ∧ off < textLen)

/-- The first n pieces of a byte string, of so many bytes each. -/
def chunks (size : Nat) : Nat → List Byte → List (List Byte)
  | 0, _ => []
  | n + 1, b => b.take size :: chunks size n (b.drop size)

/-- The records of one kind: offset and count stand in the header at a place (R28). -/
def records (img : List Byte) (at_ size : Nat) : Option (List (List Byte)) :=
  let off := field img at_ 4
  let n := field img (at_ + 4) 4
  if inside img off (size * n) then some (chunks size n (img.drop off)) else none

/-- Keys in strictly ascending order. -/
def ascending : List Nat → Bool
  | a :: b :: l => decide (a < b) && ascending (b :: l)
  | _ => true

/-- Records whose key lies in bytes 0 and 1 and whose bytes 2 and 3 are zero, in strictly ascending order (R29, R30). -/
def keyed (rs : List (List Byte)) : Bool :=
  rs.all (fun r => field r 2 2 = 0) && ascending (rs.map (fun r => field r 0 2))

/-- Reserved bytes of the header, which are zero (R28). -/
def headerClean (img : List Byte) : Bool :=
  field img 7 1 = 0 && field img 11 1 = 0 && field img 14 2 = 0 && (cut img 72 56).all (· == 0)

/-- Entry or converter records: key and code offset. -/
def codeRecs (rs : List (List Byte)) : List (Nat × BitVec 32) :=
  rs.map (fun r => (field r 0 2, BitVec.ofNat 32 (field r 4 4)))

/-- An object record is one that R30 accepts. -/
def objOk (img r : List Byte) : Bool :=
  let size := field r 0 5
  let tier := field r 5 1
  decide (1 ≤ tier ∧ tier ≤ 3) && decide (field r 6 2 = 0) && decide (0 < size ∧ size < 2 ^ 36) &&
    (decide (tier ≠ 1) || decide (size ≤ 0x200000)) && decide (field r 12 4 ≤ size) && inside img (field r 8 4) (field r 12 4)

/-- A constant record is one that R30 accepts. -/
def constOk (nobj : Nat) (r : List Byte) : Bool :=
  decide (field r 0 2 ≤ 255) && (decide (field r 4 4 = noCode) || decide (field r 4 4 < nobj))

/-- The image that a byte string holds; none where R30 refuses it. The string's length is TOTLEN, and the digest is its
last 64 bytes (R28). -/
def parseImage (img : List Byte) : Option Image :=
  let n := img.length
  let textOff := field img 16 4
  let textLen := field img 20 4
  let ht := field img 24 4
  let nobj := field img 64 4
  if n < 192 || field img 0 4 ≠ 0x50524956 || field img 4 2 ≠ 1 || field img 68 4 ≠ n then none
  else if sha3 (img.take (n - 64)) ≠ img.drop (n - 64) then none
  else if !headerClean img || !inside img textOff textLen || !inside img ht 1024 then none
  else
    match records img 28 8, records img 36 8, records img 44 32, records img 52 16, records img 60 16 with
    | some ents, some cvs, some cons, some lms, some objs =>
      let hs := (chunks 4 256 (img.drop ht)).map leNat
      let code (r : List Byte) : Bool := codeOk textLen (field r 4 4)
      if hs.all (fun h => decide (h = noCode) || codeOk textLen h) && keyed ents && ents.all code && keyed cvs && cvs.all code &&
          cvs.all (fun r => decide (field r 0 2 < field img 12 2)) && keyed cons && cons.all (constOk nobj) && keyed lms &&
          lms.all (fun r => decide (field r 15 1 = 0)) && objs.all (objOk img) then
        some {
          modid := BitVec.ofNat 24 (field img 8 3)
          ver := BitVec.ofNat 8 (field img 6 1)
          layout := BitVec.ofNat 16 (field img 12 2)
          text := cut img textOff textLen
          handlers := hs.map (BitVec.ofNat 32)
          entries := codeRecs ents
          convs := codeRecs cvs
          consts := cons.map (fun r => ⟨field r 0 2, if field r 4 4 = noCode then none else some (field r 4 4)⟩)
          lives := lms.map (fun r => (field r 0 2, BitVec.ofNat 32 (field r 4 4), BitVec.ofNat 32 (field r 8 4),
            BitVec.ofNat 16 (field r 12 2), BitVec.ofNat 8 (field r 14 1)))
          objs := objs.map (fun r => ⟨field r 0 5, field r 5 1, cut img (field r 8 4) (field r 12 4)⟩) }
      else none
    | _, _, _, _, _ => none

end Sys2Proof.Machine
end

