-- ==== Sys2Proof/Machine/Module.lean ====
section
/-! DEFINITION. Modules and their versions: MINST (R17, R147 to R150, R384), MPURGE (R158, R159, R392), MQRY (R145),
CVTEND (R154, R358) and OBJVER (R156, R396). -/
namespace Sys2Proof.Machine

/-! ### The state of a module -/

/-- The checks on a module capability (R145, R147): tag, kind 2 and, where it is needed, right I. -/
def moduleOf (c : Cap) (right : Bool) : Res (BitVec 24) :=
  if c.tag = false then .error (.trap CAPTAG 0)
  else if c.kind ≠ 2 then .error (.trap CAPKIND 0)
  else if right && c.rights &&& rightI = 0 then .error (.trap CAPRIGHT (rightEval 0 rightI.toNat))
  else .ok (c.oid.setWidth 24)

/-- The frames of the partition that OLDFRAMES counts (R157). -/
def State.oldFrames (s : State) (k : Nat) (m : BitVec 24) : List (Nat × Nat) :=
  match (s.ctxAt k).moduleAt m with
  | ⟨_, some v, true, _⟩ => (s.framesOf k).filter (fun p =>
      let fr := s.frameAt p.1 p.2
      decide (p.2 < 10 ∧ fr.state ≠ .free ∧ fr.modid = m ∧ fr.ver = v.ver))
  | _ => []

/-- STATE of R145: 0 NONE, 1 STAGED, 2 SWITCHED, 3 ECLOSED. -/
def Module.state (y : Module) : Nat :=
  match y.other with
  | some _ => if y.exuvia then 2 else 1
  | none => if y.imago.isSome then 3 else 0

/-- The word that MQRY writes (R145). -/
def State.mqryWord (s : State) (k : Nat) (m : BitVec 24) : Word :=
  let y := (s.ctxAt k).moduleAt m
  let num (v : Option Version) : Nat := match v with
    | some w => w.ver.toNat
    | none => 0
  BitVec.ofNat 64 ((s.oldFrames k m).length * 2 ^ 32 + bitOf y.other.isSome * 2 ^ 25 + bitOf y.imago.isSome * 2 ^ 24 +
    num y.other * 2 ^ 16 + num y.imago * 2 ^ 8 + y.state)

/-- A kind 8 claim pins the staged version (R149): it is announced, and this device has not objected that the version is
not staged. -/
def State.pinned (s : State) (k : Nat) (m : BitVec 24) (ver : BitVec 8) : Bool :=
  s.claims.any (fun p =>
    let q := p.2
    decide (q.state = .announced ∧ q.ann.group < 64 ∧ (s.groupAt q.ann.group).owner = some k ∧
      bitsOf q.ann.key.toNat 63 60 = 8 ∧ bitsOf q.ann.key.toNat 23 0 = m.toNat ∧
      bitsOf q.ann.value.toNat 7 0 = ver.toNat) && !q.objections.contains (s.pos, 0xFF03))

/-- The address of a slot of a version's constant table (R17), which is a tier 1 object. -/
def State.slotAddr (s : State) (k : Nat) (v : Version) (slot : Nat) : Option Nat :=
  match s.liveAt (s.ctxAt k) v.table with
  | some d => if d.tier = 1 then some (padAddr (clusterOf (d.home % 4096)) (d.pmap + 16 * slot)) else none
  | none => none

/-- UnboundSlots of a loaded version: a recorded slot's granule has a clear tag (R150), as the frame reads it. -/
def State.unbound (s : State) (n f k : Nat) (v : Version) : Bool :=
  v.consts.any (fun i => match s.slotAddr k v i with
    | some a => !s.tagOwn n f a
    | none => true)

/-! ### A switch and a removal (R148, R150, R158) -/

/-- The device writes one descriptor anew: the number that g makes of its 64 bytes. -/
def State.onDesc (s : State) (k : Nat) (oid : BitVec 40) (g : Nat → Nat) : State :=
  let x := s.ctxAt k
  if oid.toNat < x.tableLen then
    let a := x.descAddr oid.toNat
    s.performFor k a (leBytes 64 (g (s.ctxNat x a 64))) none
  else s

/-- The staged version becomes the imago and the former imago the exuvia; the device sets IMM on the table's descriptor
(R148, R150). -/
def State.switch (s : State) (k : Nat) (m : BitVec 24) : State :=
  let x := s.ctxAt k
  let y := x.moduleAt m
  match y.other with
  | none => s
  | some v =>
    if y.exuvia then s
    else (s.setCtx k (x.setModule m { y with imago := some v, other := y.imago, exuvia := y.imago.isSome })).onDesc k v.table
      (setField · 368 368 1)

/-- The version that is not the imago goes, with its constant table object (R158). -/
def State.removeOther (s : State) (k : Nat) (m : BitVec 24) : State :=
  let x := s.ctxAt k
  let y := x.moduleAt m
  match y.other with
  | none => s
  | some v =>
    (s.setCtx k (x.setModule m { y with other := none, exuvia := false, purging := false })).onDesc k v.table
      (setField · 40 40 0)

/-! ### Room for a version (R17; log 13) -/

/-- Bytes that the code of every resident version takes in the code stores (R139). -/
def Context.codeUsed (x : Context) : Nat :=
  (x.modules.map (fun p => ((p.2.imago.toList ++ p.2.other.toList).map (fun v => v.code.length)).sum)).sum

/-- The lowest descriptor, other than descriptor 0, whose 64 bytes are all zero (R17). -/
def State.freeDesc (s : State) (x : Context) : Option Nat :=
  (List.range x.tableLen).find? (fun i => decide (i ≠ 0) &&
    decide (s.ctxNat x (x.descAddr i) 64 = 0))

/-- The live tier 1 objects of a cluster: base and size. -/
def State.padObjects (s : State) (x : Context) (cluster : Nat) : List (Nat × Nat) :=
  (List.range x.tableLen).filterMap (fun i => match s.liveAt x (BitVec.ofNat 40 i) with
    | some d => if d.tier = 1 ∧ !d.hb ∧ !d.pw ∧ !s.far d ∧ d.whole.isNone ∧ !d.pageReg ∧ clusterOf (d.home % 4096) = cluster
        then some (d.pmap, d.size) else none
    | none => none)

/-- The first 64-byte aligned room of a size in a scratchpad. -/
def padRoom (used : List (Nat × Nat)) (size : Nat) : Option Nat :=
  let ends := 0 :: used.map (fun u => (u.1 + u.2 + 63) / 64 * 64)
  let fits (a : Nat) : Bool := decide (a + size ≤ 0x200000) && used.all (fun u => decide (a + size ≤ u.1 ∨ u.1 + u.2 ≤ a))
  (ends.filter fits).foldl (fun m a => match m with
    | none => some a
    | some b => some (min a b)) none

/-- The page frames of a die that page maps name. -/
def State.framesUsed (s : State) (die : Nat) : List Nat :=
  s.contexts.flatMap (fun p => (s.pagedObjects p.2).flatMap (fun d =>
    (List.range ((d.size + 65535) / 65536)).filterMap (fun i =>
      let e := s.pageEntry p.2 d i
      if e.v ∧ e.die = die then some e.frame else none)))

/-- The lowest count page frames of a tier of a die, from the root's arena up, that no page map names. -/
def State.freeFrames (s : State) (die tier count : Nat) : Option (List Nat) :=
  let used := s.framesUsed die
  let base := Config.arenaBase (die * 2 + (tier - 2))
  let fs := (((List.range (used.length + count)).map (· + base)).filter (fun i => !used.contains i)).take count
  let table (i : Nat) : Bool := decide (die = 0) && s.contexts.any (fun p => p.2.inTable (i * 65536) || p.2.inTable (i * 65536 + 65535))
  let ok (i : Nat) : Bool := !table i && (if tier = 2 then decide (i < 0x8000) else decide (0x100000 ≤ i ∧ i < 0x280000))
  if fs.length = count && fs.all ok then some fs else none

/-- Where the next page map lies in the table object, behind the descriptors and the maps already there. -/
def State.mapRoom (s : State) (x : Context) (pages : Nat) : Option Nat :=
  let lo := x.tableBase + 64 * x.tableLen
  let hi := x.tableBase + x.tableSpan
  let top := (s.pagedObjects x).foldl (fun m d =>
    if lo ≤ d.pmap ∧ d.pmap < hi then max m (d.pmap + 8 * ((d.size + 65535) / 65536)) else m) lo
  if top + 8 * pages ≤ hi then some top else none

/-- Bytes and tags of a range become zero. -/
def State.zeroRange (s : State) (a n : Nat) : State :=
  { s with
    mem := s.mem.filter (fun c => decide (c.1 < a ∨ a + n ≤ c.1))
    tags := s.tags.filter (fun g => !(granules a n).contains g) }

/-- The 64 bytes of a descriptor that MINST makes (R17, R103). -/
def descNat (oid size pmap home tier : Nat) (m : BitVec 24) (layout : BitVec 16) : Nat :=
  oid + 2 ^ 40 + size * 2 ^ 156 + pmap * 2 ^ 192 + home * 2 ^ 332 + tier * 2 ^ 376 + m.toNat * 2 ^ 380 +
    layout.toNat * 2 ^ 404

/-- MINST makes one object at core n: descriptor, memory, initial contents (R17); none where room is lacking. -/
def State.makeObject (s : State) (n k : Nat) (m : BitVec 24) (layout : BitVec 16) (o : ObjRec) :
    Option (BitVec 40 × State) := do
  let x := s.ctxAt k
  let i ← s.freeDesc x
  let home := s.coreid n
  let at_ := x.descAddr i
  if o.tier = 1 then
    let a ← padRoom (s.padObjects x (clusterOf n)) o.size
    let s := s.performFor k at_ (leBytes 64 (descNat i o.size a home 1 m layout)) none
    let b := padAddr (clusterOf n) a
    let s := s.zeroRange b o.size
    some (BitVec.ofNat 40 i, { s with mem := memPut s.mem b o.data })
  else
    let die := dieOf n
    let pages := (o.size + 65535) / 65536
    let fs ← s.freeFrames die o.tier pages
    let a ← s.mapRoom x pages
    let s := s.performFor k at_ (leBytes 64 (descNat i o.size a home o.tier m layout)) none
    let s := (List.range pages).foldl (fun s p =>
      let f := fs.getD p 0
      let s := s.performFor k (dieAddr 0 (a + 8 * p)) (leBytes 8 (2 ^ 63 + (o.tier - 2) * 2 ^ 60 + die * 2 ^ 24 + f)) none
      let b := dieAddr die (f * 65536)
      let s := (s.zeroRange b 65536).keyRange x.key b 65536
      { s with mem := memPut s.mem b ((o.data.drop (65536 * p)).take 65536) }) s
    some (BitVec.ofNat 40 i, s)

/-- Load of R147: the image's objects in record order, then the constant table with the capabilities of the image objects
in it; none, with nothing made, where room is lacking. -/
def State.loadVersion (s : State) (n k : Nat) (img : Image) : Option State := do
  if 524288 < (s.ctxAt k).codeUsed + img.text.length then none else some ()
  let (oids, s) ← img.objs.foldlM (fun (r : List (BitVec 40) × State) o => do
    let q ← r.2.makeObject n k img.modid img.layout o
    some (r.1 ++ [q.1], q.2)) ([], s)
  let (table, s) ← s.makeObject n k img.modid img.layout ⟨4096, 1, []⟩
  let v : Version := ⟨img.ver, img.layout, img.text, img.handlers, img.entries, img.convs, img.lives,
    img.consts.map (fun c => c.slot), table⟩
  let s := img.consts.foldl (fun s c => match c.obj with
    | none => s
    | some j => match s.slotAddr k v c.slot with
      | none => s
      | some a =>
        let cap : Cap := ⟨true, rightR ||| rightW ||| rightC, 1, oids.getD j 0, 0,
          BitVec.ofNat 36 ((img.objs.getD j ⟨0, 0, []⟩).size)⟩
        s.performBytes a (leBytes 16 (capNat cap)) (some cap)) s
  let x := s.ctxAt k
  some (s.setCtx k (x.setModule img.modid { x.moduleAt img.modid with other := some v, exuvia := false }))

/-! ### MINST (R147) -/

/-- One piece of a window that a frame reads: taken where it lies here, else asked for at its home or on the bus. -/
def State.takePiece (s : State) (n f : Nat) (d : Desc) (off len : Nat) (p : Place)
    (got : List (Nat × List Byte)) (rids : List (Nat × Nat)) : State × List (Nat × List Byte) × List (Nat × Nat) :=
  let near (a : Nat) : State × List (Nat × List Byte) × List (Nat × Nat) :=
    (s.servedAll (s.ctxOf n) d.oid off a len, put got off (s.readOwn n f a len), rids)
  match p with
  | .here a _ => near a
  | .migrating a => near a
  | .host pasid va => (s, put got off (memBytes s.mem (hostAddr pasid va) len), rids)
  | .remote h o =>
    let r := s.request n f h o d.oid off (.read len) .load true false
    (r.1, got, put rids r.2 off)
  | .bus a =>
    let r := s.engineBus a len
    (r.1, got, put rids r.2 off)
  | _ => (s, got, rids)

/-- The place of a piece of a window, after the checks that a load makes. -/
def State.windowPlace (s : State) (n : Nat) (d : Desc) (off len : Nat) : Res Place := do
  let p ← s.locate n d off .load false
  let near (a : Nat) : Res Unit := do
    if spanExists a len then .ok () else .error (.hole a)
    s.sound a len
  match p with
  | .here a _ => near a
  | .migrating a => near a
  | .register => .error (.trap CAPKIND 0)
  | _ => .ok ()
  .ok p

/-- The bytes of a window as loads of the frame (R384); none where a part of it is at another home or on the bus, for which the
frame parks, and reads the window again when all of it has come. -/
def State.readImage (s : State) (n f : Nat) (d : Desc) (off len : Nat) : Res (Option (List Byte) × State) :=
  let all (got : List (Nat × List Byte)) : List Byte := (pieces off len).flatMap (fun q => (look got q.1).getD [])
  match (s.frameAt n f).park with
  | some (.remote _ [] (.image got _)) => .ok (some (all got), s)
  | _ => do
    s.watermark n d.oid off (off + len)
    let ps ← (pieces off len).mapM (fun q => do .ok (q, ← s.windowPlace n d q.1 q.2))
    let r := ps.foldl (fun (r : State × List (Nat × List Byte) × List (Nat × Nat)) q =>
      r.1.takePiece n f d q.1.1 q.1.2 q.2 r.2.1 r.2.2) (s, [], [])
    if r.2.2.isEmpty then .ok (some (all r.2.1), r.1)
    else .ok (none, r.1.parkFrame n f (.remote 4 (r.2.2.map (·.1)) (.image r.2.1 r.2.2)))

/-- A release at `.pkg` before a switch by MINST (R148, R384). -/
def State.switchRelease (s : State) (n f : Nat) : Res Unit :=
  if s.released n f 5 then .ok () else .error (.wait (.install 5))

/-- What MINST with flag 0 or 1 finds in the image: a status other than 0, or the image to load (R147). -/
def State.imageStatus (s : State) (k : Nat) (m : BitVec 24) (bytes : List Byte) : Int ⊕ Image :=
  match parseImage bytes with
  | none => .inl (-2)
  | some img =>
    if img.modid ≠ m then .inl (-2)
    else match (s.ctxAt k).imago m with
      | some v => if img.ver = v.ver then .inl (-2) else if img.layout < v.layout then .inl (-7) else .inr img
      | none => .inr img

/-- MINST with flag 0 or 1. -/
def State.install (s : State) (m : BitVec 24) (b : BitVec 4) (d : BitVec 5) (now : Bool) : Res State := do
  let n := s.core
  let k := s.ctxOf n
  let c := s.cur.cap b
  let (o, off) ← s.access n c 0 c.len.toNat 1 rightR [1] .frame false
  if ((s.ctxAt k).moduleAt m).other.isSome then .ok ((s.setCur { s.cur with park := none }).status d (-1) 4)
  else
    match ← s.readImage n s.frame o off c.len.toNat with
    | (none, t) => .ok t
    | (some bytes, t) =>
    let t := t.setCur { t.cur with park := none }
    match t.imageStatus k m bytes with
    | .inl st => .ok (t.status d st 4)
    | .inr img =>
      match t.loadVersion n k img with
      | none => .ok (t.status d (-3) 4)
      | some u =>
        if now && img.consts.any (fun q => q.obj.isNone) then .ok (t.status d (-5) 4)
        else
          let tab := match (u.ctxAt k).moduleAt m with
            | ⟨_, some v, _, _⟩ => ⟨true, rightR ||| rightW ||| rightC, 1, v.table, 0, 4096⟩
            | _ => Cap.null
          let u := u.setCur (u.cur.setCap b tab)
          if now then do
            s.switchRelease n s.frame
            .ok ((u.switch k m).status d 0 4)
          else .ok (u.status d 0 4)

/-- MINST with flag 2. -/
def State.switchStaged (s : State) (m : BitVec 24) (d : BitVec 5) : Res State :=
  let k := s.ctxOf s.core
  match (s.ctxAt k).moduleAt m with
  | ⟨_, some v, false, _⟩ =>
    if s.pinned k m v.ver then .ok (s.status d (-6) 4)
    else do
      s.switchRelease s.core s.frame
      if s.unbound s.core s.frame k v then .ok (s.status d (-5) 4) else .ok ((s.switch k m).status d 0 4)
  | _ => .ok (s.status d (-4) 4)

/-- A hard purge of the module by another frame is at work: changes to one module take effect one after the other (R144). -/
def State.serial (s : State) (m : BitVec 24) : Res Unit :=
  let own := match s.cur.wait with
    | some (.purge _ (some _)) => true
    | _ => false
  if ((s.ctxAt (s.ctxOf s.core)).moduleAt m).purging && !own then .error (.wait (.purge m none)) else .ok ()

/-- R147. -/
def execMinst (x : BitVec 8) (b a : BitVec 4) (d : BitVec 5) (s : State) : Host.Outcome State Fault Refusal :=
  s.finish (do
    let m ← moduleOf (s.cur.cap a) true
    s.serial m
    if x = 2 then s.switchStaged m d else s.install m b d (x = 1))

/-! ### MPURGE (R158, R159, R392) -/

/-- A core of the partition holds a store to the constant table of the version that would go: its deletion comes after that (R107,
R158). -/
def State.tableBusy (s : State) (k : Nat) (m : BitVec 24) : Bool :=
  match ((s.ctxAt k).moduleAt m).other with
  | some v => s.cores.any (fun c => c.2.storesTo k v.table)
  | none => false

/-- MPURGE waits in place for the stores that its deletion comes after. -/
def State.tableQuiet (s : State) (m : BitVec 24) : Res Unit :=
  let own := match s.cur.wait with
    | some (.purge _ (some _)) => true
    | _ => false
  if s.tableBusy (s.ctxOf s.core) m && !own then .error (.wait (.table m)) else .ok ()

/-- A hard purge raises STRAGGLER in a counted frame (R159). A trap that stands is left; a frame PARKED in
TRAPPED is like any parked frame (R269). -/
def State.straggle (s : State) (n f : Nat) : State :=
  let fr := s.frameAt n f
  let eval := s.vctx n f
  if fr.trap.isSome then s
  else match fr.state with
    | .parked => s.raiseParked n f STRAGGLER eval
    | .stopped =>
      let s := s.abandon n f
      let fr := s.frameAt n f
      s.setFrame n f { fr with
        park := fr.park.map (fun _ => .abandoned), trap := some ⟨STRAGGLER, eval, false, fr.park.isSome, true⟩ }
    | _ => s.raise n f STRAGGLER eval

/-- A converter that takes STRAGGLER from a hard purge fails (R155, R160). -/
def State.failConverter (s : State) (n f : Nat) : State :=
  match (s.frameAt n f).act with
  | some a => (match a.kind with
    | .converter oid _ => s.converterEnds a.ctx n f oid false
    | _ => s)
  | none => s

/-- A counted frame that is not STOPPED has not entered its trap yet. A core whose supervisor frame issues the MPURGE
takes no trap meanwhile, and is not waited for. -/
def State.entersLater (s : State) (k : Nat) (m : BitVec 24) (n f : Nat) : Bool :=
  (s.oldFrames k m).any (fun p =>
    let fr := s.frameAt p.1 p.2
    decide (p ≠ (n, f) ∧ fr.state ≠ .stopped ∧ !(p.1 = n ∧ f = 10)) && (match fr.trap with
      | some t => !t.taken
      | none => false))

/-- The end of a hard purge: the exuvia goes, gD takes the count, and an issuer that was counted takes STRAGGLER at the
boundary after (R392). -/
def State.purged (s : State) (k : Nat) (m : BitVec 24) (d : BitVec 5) (count : Nat) : State :=
  let mine := (s.oldFrames k m).contains (s.core, s.frame)
  let eval := s.vctx s.core s.frame
  let s := s.setCur { s.cur with wait := none }
  let s := (s.removeOther k m).status d count 4
  if mine then (s.raise s.core s.frame STRAGGLER eval).failConverter s.core s.frame else s

/-- MPURGE (R158); a hard purge takes the counted frames first and fails their conversions then (R160). -/
def State.purge (s : State) (m : BitVec 24) (d : BitVec 5) (hard : Bool) : State :=
  let k := s.ctxOf s.core
  let x := s.ctxAt k
  let y := x.moduleAt m
  match s.cur.wait with
  | some (.purge _ (some count)) => s.purged k m d count
  | _ =>
    match y.other with
    | none => s.status d (-1) 4
    | some v =>
      if !y.exuvia then
        if s.pinned k m v.ver then s.status d (-2) 4 else (s.removeOther k m).status d 0 4
      else
        let old := s.oldFrames k m
        if old.isEmpty then (s.removeOther k m).status d 0 4
        else if !hard then s.status d old.length 4
        else
          let others := old.filter (fun p => decide (p ≠ (s.core, s.frame)))
          let s := others.foldl (fun s p => s.straggle p.1 p.2) s
          let s := others.foldl (fun s p => s.failConverter p.1 p.2) s
          if s.entersLater k m s.core s.frame || s.tableBusy k m then
            let x := s.ctxAt k
            (s.setCtx k (x.setModule m { x.moduleAt m with purging := true })).waitHere s.core s.frame
              (.purge m (some old.length))
          else s.purged k m d old.length

/-- R158. -/
def execMpurgeSoft (a : BitVec 4) (d : BitVec 5) (s : State) : Host.Outcome State Fault Refusal :=
  s.finish (do
    let m ← moduleOf (s.cur.cap a) true
    s.serial m
    s.tableQuiet m
    .ok (s.purge m d false))

/-- R158, R159. -/
def execMpurgeHard (a : BitVec 4) (d : BitVec 5) (s : State) : Host.Outcome State Fault Refusal :=
  s.finish (do
    let m ← moduleOf (s.cur.cap a) true
    s.serial m
    s.tableQuiet m
    .ok (s.purge m d true))

/-! ### MQRY, CVTEND, OBJVER -/

/-- R145. -/
def execMqry (a : BitVec 4) (d : BitVec 5) (s : State) : Host.Outcome State Fault Refusal :=
  s.finish (do
    let m ← moduleOf (s.cur.cap a) false
    .ok (s.writeG d (s.mqryWord (s.ctxOf s.core) m) 4))

/-- R154, R358. -/
def execCvtend (s : State) : Host.Outcome State Fault Refusal :=
  s.finish (
    if !s.cur.cvt then .error (.trap ILLEGAL 0x30000025)
    else do
      s.release s.core s.frame 6 true
      let k := s.ctxOf s.core
      let s := match s.cur.act with
        | some a => (match a.kind with
          | .converter oid layout =>
            if (s.liveAt (s.ctxAt k) oid).isSome then s.onDesc k oid (setField · 419 404 layout.toNat) else s
          | _ => s)
        | none => s
      .ok (s.endActivation s.core s.frame true none))

/-- R156, R396. -/
def execObjver (a : BitVec 4) (d : BitVec 5) (s : State) : Host.Outcome State Fault Refusal :=
  let c := s.cur.cap a
  s.finish (
    if c.tag = false then .error (.trap CAPTAG 0)
    else if c.kind ≠ 1 ∧ c.kind ≠ 6 then .error (.trap CAPKIND 0)
    else match s.liveAt (s.ctxAt (s.ctxOf s.core)) c.oid with
      | none => .error (.trap CAPTAG 0)
      | some o =>
        if s.exterior o then .error (.trap CAPKIND 0)
        else if s.far o then
          let r := s.request s.core s.frame o.home (s.nameAt o) o.oid 0 .objver .load true false
          .ok (r.1.parkFrame s.core s.frame (.remote 4 [r.2] (.objver d)))
        else .ok (s.writeG d (BitVec.ofNat 64 (o.owner.toNat * 65536 + o.layout.toNat)) 4))

end Sys2Proof.Machine
end

