-- ==== Sys2Proof/Machine/Start.lean ====
section
/-! DEFINITION. Inbound queues (R74, R81, R82, R360) and the start of activations: of messages (R83), converters (R152) and
upcalls (R271, R273, R276, R278, R269). -/
namespace Sys2Proof.Machine

/-! ### Inbound queues -/

/-- The frames of a kind (R66). -/
def framesOfKind (urgent : Bool) : List Nat := if urgent then [8, 9] else [0, 1, 2, 3, 4, 5, 6, 7]

/-- The entries that SENDs have reserved and not used yet: those of other devices, and those of frames of this one that
wait in their release or have just been granted one, and those of messages that have not left yet (R70, R72, R74, R126). -/
def State.reservedAt (s : State) (n : Nat) (urgent : Bool) : Nat :=
  let c := s.coreAt n
  (c.promised.filter (fun p => decide (p.urgent = urgent))).length +
    (s.allFrames.filter (fun p => decide ((s.frameAt p.1 p.2).txEntry = some (.near n urgent)))).length +
    (s.cores.map (fun p => (p.2.outgoing.filter (fun q => decide (q.dest = .core n ∧ q.msg.u = urgent))).length)).sum

/-- The entries of a queue that are taken: queued messages, dispatched ones whose activation has not ended (R360),
messages of this device on their way, and reserved ones (R74). -/
def State.entriesTaken (s : State) (n : Nat) (urgent : Bool) : Nat :=
  let c := s.coreAt n
  let running := (framesOfKind urgent).filter (fun f => match (c.frameAt f).act with
    | some a => a.entry.isSome
    | none => false)
  let coming := s.inflight.filter (fun i => match i with
    | .messageArrival k m _ => decide (k = n ∧ m.u = urgent)
    | _ => false)
  (c.queue urgent).length + running.length + coming.length + s.reservedAt n urgent

/-- A logical cluster that an EVICTED context keeps for itself (R308). -/
def State.evictedCluster (s : State) (c : Nat) : Bool :=
  s.contexts.any (fun p => decide (p.2.state = .evicted) && p.2.clusters.contains c)

/-- Free entries (R74); a core of an EVICTED context refuses as a full queue does (R308). -/
def State.roomAt (s : State) (n : Nat) (urgent : Bool) : Nat :=
  if s.evictedCluster (clusterOf n) then 0 else (if urgent then 32 else 256) - s.entriesTaken n urgent

/-- A message enters its queue (R74). -/
def State.enqueue (s : State) (n : Nat) (m : Msg) (o : Origin) : State :=
  let c := s.coreAt n
  let e : QEntry := ⟨m, s.ftime, c.serial, o, false⟩
  s.setCore n { c.setQueue m.u (putEntry (c.queue m.u) e) with serial := c.serial + 1 }

/-! ### Starting an activation (R83, R84) -/

/-- What a frame starts with. -/
structure Launch where
  modid : BitVec 24
  ver   : Version
  pc    : BitVec 32
  gs    : List (Nat × Word)
  c1    : Cap
  c2    : Cap
  status : Word
  cvt   : Bool
  frec  : Word
  act   : Activation

/-- A cleared frame starts: registers, VCTX, STATUS, c3, and the per-frame special registers of R84. Its posted accesses
are still on their way, and its fault sequence stands. -/
def Frame.start (old : Frame) (l : Launch) (now : Nat) : Frame :=
  let fr := { Frame.clear with
    posted := old.posted, faultSeq := old.faultSeq, cvt := l.cvt, status := l.status, frec := l.frec,
    state := .ready, ready := now, act := some l.act,
    g := Vector.ofFn (fun i => if i.val = 0 then 0 else (look l.gs i.val).getD 0) }
  ((fr.setCap 1 l.c1).setCap 2 l.c2).enter l.modid l.ver l.pc

def State.launch (s : State) (n f : Nat) (l : Launch) : State :=
  s.setFrame n f ((s.frameAt n f).start l s.ftime)

/-- The lowest-numbered FREE frame of a kind. -/
def Core.freeFrame (c : Core) (urgent : Bool) : Option Nat :=
  (framesOfKind urgent).find? (fun f => decide ((c.frameAt f).state = .free))

/-- The capability of a reply token (R76, R98; log 11). -/
def tokenCap (m : Msg) : Cap :=
  ⟨true, 0, 3, Config.tokenOid m.sender m.slot m.slotseq, Config.tokenBase m.sender m.slot m.slotseq,
    Config.tokenLen m.sender m.slot m.slotseq⟩

/-! ### Dispatch (R81 to R83) -/

/-- The effective deadline (R82). -/
def QEntry.deadline (e : QEntry) (slack : Word) : Nat :=
  if e.msg.dlv then e.msg.deadline.toNat else e.arrival + slack.toNat

def QEntry.key (e : QEntry) (slack : Word) : Nat := max (e.deadline slack) e.arrival

/-- Two messages of one sender to one object or stripe (R81). -/
def sameStream (a b : Msg) : Bool :=
  decide (a.host = b.host ∧ a.sender = b.sender ∧ a.objid = b.objid ∧ a.stripe = b.stripe ∧ a.sl = b.sl)

/-- The stripes of an object, as its locks count them (R81, R152). -/
def Desc.stripes (d : Desc) : List Nat := if d.hmode = 2 then List.range ((d.size + 65535) / 65536) else [0]

/-- The stripe of an object whose lock a converter waits for (R152): the first that it does not hold. -/
def State.stripeAwaited (s : State) (k : Nat) (oid : BitVec 40) : Option Nat :=
  (s.framesOf k).findSome? (fun p => match (s.frameAt p.1 p.2).park, s.liveAt (s.ctxAt k) oid with
    | some (.locks o _ _), some d =>
      if o = oid then d.stripes.find? (fun i => match (s.ctxAt k).lockOf oid i with
        | some l => decide (¬(l.core = p.1 ∧ l.frame = p.2))
        | none => true)
      else none
    | _, _ => none)

/-- A queued message is eligible (R81). A lock that a converter waits for is its next (R152). -/
def State.eligible (s : State) (n : Nat) (e : QEntry) : Bool :=
  let c := s.coreAt n
  e.msg.sl ||
    (((s.ctxAt (s.ctxOf n)).lockOf e.msg.objid e.msg.stripe.toNat).isNone &&
      decide (s.stripeAwaited (s.ctxOf n) e.msg.objid ≠ some e.msg.stripe.toNat) &&
      (c.normalQ ++ c.urgentQ).all (fun x => !(sameStream x.msg e.msg && decide (x.serial < e.serial))))

/-- The entry before which a queue serves no other (R82): an urgent one of earliest arrival, a normal one of least key and, at
equal keys, of earliest arrival. A message that came from another core has kept its arrival time (R80, R87). -/
def QEntry.before (urgent : Bool) (slack : Word) (a b : QEntry) : Bool :=
  if urgent then decide (a.arrival < b.arrival)
  else decide (a.key slack < b.key slack ∨ (a.key slack = b.key slack ∧ a.arrival < b.arrival))

/-- The message that a queue serves next (R82). -/
def State.chosen (s : State) (n : Nat) (urgent : Bool) : Option QEntry :=
  let c := s.coreAt n
  ((c.queue urgent).filter (s.eligible n)).foldl (fun (m : Option QEntry) e => match m with
    | none => some e
    | some b => if e.before urgent c.dslack b then some e else some b) none

/-- The capability to the whole object, or to one stripe of it, that a receiver finds in c1 (R83). -/
def selfCap (d : Desc) (stripe : Nat) : Cap :=
  let base := if d.hmode = 2 then stripe * 65536 else 0
  let len := if d.hmode = 2 then min 65536 (d.size - base) else d.size
  ⟨true, rightR ||| rightW ||| rightS ||| rightC, 1, d.oid, BitVec.ofNat 36 base, BitVec.ofNat 36 len⟩

/-- A message that ends unrun (R83): its reply, its ring, its entry. -/
def State.endUnrun (s : State) (n : Nat) (e : QEntry) (st : Nat) : State :=
  (s.answerUnrun n e st 0).stageOf n e 2 s.ftime

/-- The handler that a message runs (R83). -/
def handlerOf (v : Version) (m : Msg) (late : Bool) : BitVec 32 :=
  let at_ (c : Nat) : BitVec 32 := v.handlers.getD c 0xFFFFFFFF
  if late ∧ m.cls ≠ 255 ∧ at_ 255 ≠ 0xFFFFFFFF then at_ 255 else at_ m.cls.toNat

/-- A completion reservation of a message without a reply is released when the message runs (R298). -/
def State.runsFrom (s : State) (n : Nat) (e : QEntry) : State :=
  match e.origin with
  | .device _ => s.stageOf n e 1 s.ftime
  | .ring vf ring t =>
    let s := s.stageOf n e 1 s.ftime
    if e.msg.rq then s
    else if (s.ringAt vf ring).tickets.any (fun q => decide (q.n = t) && q.holds) then
      (s.onTicket vf ring t (fun q => { q with holds := false })).releaseReservation vf ring
    else s
  | _ => s

/-- Dispatch of a message into a frame (R83). -/
def State.dispatchTo (s : State) (n f : Nat) (urgent : Bool) (e : QEntry) : State :=
  let c := s.coreAt n
  let m := e.msg
  let s := s.setCore n (c.setQueue urgent ((c.queue urgent).filter (fun x => decide (x.serial ≠ e.serial))))
  let k := s.ctxOf n
  let x := s.ctxAt k
  let d := s.liveAt x m.objid
  match x.imago m.modid with
  | none => s.endUnrun n e 4
  | some v =>
    if !m.sl && d.isNone then s.endUnrun n e 5
    else
      let late := decide (e.deadline c.dslack < s.ftime)
      let h := handlerOf v m late
      if h = 0xFFFFFFFF then s.endUnrun n e 4
      else
        let s := if m.sl then s
          else s.setCtx k { x with locks := x.locks ++ [⟨m.objid, m.stripe.toNat, n, f, none⟩] }
        let c1 := match d with
          | some o => if m.sl then Cap.null else selfCap o m.stripe.toNat
          | none => Cap.null
        let token := if m.rq then tokenCap m else Cap.null
        let words := (List.range 8).map (fun i => (i + 1, m.payload.getD i 0))
        let s := s.launch n f {
          modid := m.modid, ver := v, pc := h
          gs := words ++ [(9, zext64 m.cls), (10, BitVec.ofNat 64 (m.sender.toNat + bitOf m.host * 2 ^ 22))]
          c1 := c1, c2 := token, status := statusAt late urgent m.sl m.rq, cvt := false, frec := 0
          act := ⟨.message, k, some e, token, e.used, s.ftime⟩ }
        s.runsFrom n e

/-! ### Converters and upcalls (R152, R271) -/

/-- The frame of a first touch still waits for the conversion that it asked for, and can lend its locks. -/
def State.lends (s : State) (oid : BitVec 40) (trig : Option (Nat × Nat)) (l : Lock) : Bool :=
  match trig with
  | some (n, f) => decide (l.core = n ∧ l.frame = f ∧ (s.frameAt n f).park = some (.convert oid))
  | none => false

/-- A converter takes the locks of its object in ascending order, as far as they are free or the frame of the first touch lends
them (R152 step 2). -/
def State.takeLocks (s : State) (k : Nat) (oid : BitVec 40) (trig : Option (Nat × Nat)) (n f : Nat) : List Nat → List Lock → List Lock
  | [], ls => ls
  | p :: ps, ls =>
    match ls.find? (fun l => decide (l.oid = oid ∧ l.stripe = p)) with
    | none => s.takeLocks k oid trig n f ps (ls ++ [⟨oid, p, n, f, none⟩])
    | some l =>
      if l.core = n ∧ l.frame = f then s.takeLocks k oid trig n f ps ls
      else if s.lends oid trig l then
        s.takeLocks k oid trig n f ps (ls.map (fun x => if x = l then ⟨oid, p, n, f, some (l.core, l.frame)⟩ else x))
      else ls

/-- The token of an upcall (R273). -/
def frecOf (seq : BitVec 32) (q : Bool) (die index : Nat) : Word :=
  BitVec.ofNat 64 (seq.toNat * 2 ^ 32 + bitOf q * 2 ^ 31 + die * 1024 + index)

/-- Kind of an upcall (R271), its record and its token. -/
def upcallOf : Start → Nat × List Word × Word
  | .frameFault _ f seq g1 g2 g3 g4 _ => (1, [g1, g2, g3, g4], frecOf seq false 0 f)
  | .memory _ die index seq g1 g2 g3 g4 => (2, [g1, g2, g3, g4], frecOf seq true die index)
  | .page _ g1 g2 g3 => (3, [g1, g2, g3], 0)
  | .trap _ f seq g1 g2 g3 => (4, [g1, g2, g3, BitVec.ofNat 64 f], frecOf seq false 0 f)
  | .converter _ _ _ _ _ _ => (0, [], 0)

/-- The tenant of a start. -/
def startCtx : Start → Nat
  | .frameFault k _ _ _ _ _ _ _ => k
  | .memory k _ _ _ _ _ _ _ => k
  | .page k _ _ _ => k
  | .trap k _ _ _ _ _ => k
  | .converter k _ _ _ _ _ => k

/-- The kernel receives an upcall in place of the runtime (R271): FUPC names nothing, or the faulting frame itself runs
an upcall. -/
def State.kernelTakes (s : State) (n : Nat) (u : Start) : Bool :=
  (s.upcallVersion n).isNone || (match u with
    | .frameFault _ _ _ _ _ _ _ up => up
    | _ => false)

/-- A converter can start now, or an upcall that needs no frame or finds one. -/
def State.startable (s : State) (n : Nat) (u : Start) : Bool :=
  match u with
  | .converter k oid _ _ _ _ => (s.liveAt (s.ctxAt k) oid).isNone || ((s.coreAt n).freeFrame true).isSome
  | u => s.kernelTakes n u || ((s.coreAt n).freeFrame true).isSome

def isConverter : Start → Bool
  | .converter _ _ _ _ _ _ => true
  | _ => false

/-- A record that holds nothing to replay is freed when its upcall is dispatched (R276); one that the kernel takes in place of the
runtime stays (R271). -/
def State.upcallTaken (s : State) (u : Start) : State :=
  match u with
  | .memory _ die index seq _ _ _ _ =>
    let d := s.dieAt die
    s.setDie die { d with
      faultq := d.faultq.filter (fun r => decide (r.index ≠ index ∨ r.seq ≠ seq ∨ r.kind < 3)) }
  | _ => s

/-- An upcall starts in the first free urgent frame, or the kernel acts on it (R271). -/
def State.startUpcall (s : State) (n : Nat) (u : Start) : State :=
  if s.kernelTakes n u then
    match u with
    | .frameFault _ f seq _ _ _ _ _ =>
      let fr := s.frameAt n f
      if fr.faultSeq = seq ∧ fr.park = some .fault then s.endFrame n f false else s
    | _ => s
  else
    let s := s.upcallTaken u
    match (s.coreAt n).freeFrame true, s.upcallVersion n with
    | some f, some (m, v) =>
      let q := upcallOf u
      s.launch n f {
        modid := m, ver := v, pc := (s.coreAt n).fupc.extractLsb' 0 32
        gs := (List.range 4).map (fun i => (i + 1, q.2.1.getD i 0)) ++ [(9, BitVec.ofNat 64 q.1)]
        c1 := Cap.null, c2 := Cap.null, status := statusAt false true false false, cvt := false, frec := q.2.2
        act := ⟨.upcall q.1, startCtx u, none, Cap.null, false, s.ftime⟩ }
    | _, _ => s

/-- The activation of a converter ends before it has begun: its object is gone, or its version is. -/
def State.converterGone (s : State) (n f : Nat) (ok : Bool) : State := s.endActivation n f ok none

/-- A converter that holds its urgent frame takes locks, and starts with the last of them (R152 steps 2 and 3). -/
def State.lockConverter (s : State) (n f : Nat) : State :=
  let fr := s.frameAt n f
  match fr.park, fr.act with
  | some (.locks oid from_ trig), some a =>
    let x := s.ctxAt a.ctx
    if fr.state ≠ .parked then s
    else match s.liveAt x oid, x.entered fr.modid fr.ver with
    | some d, some v =>
      let ls := s.takeLocks a.ctx oid trig n f d.stripes x.locks
      let s := s.setCtx a.ctx { x with locks := ls }
      (match look v.convs from_.toNat with
      | none => s.converterGone n f false
      | some pc =>
        if d.stripes.all (fun p => ls.any (fun l => decide (l.oid = oid ∧ l.stripe = p ∧ l.core = n ∧ l.frame = f))) then
          s.launch n f {
            modid := fr.modid, ver := v, pc := pc
            gs := [(1, zext64 from_), (2, zext64 v.layout)]
            c1 := ⟨true, rightR ||| rightW ||| rightS ||| rightC, 1, oid, 0, BitVec.ofNat 36 d.size⟩
            c2 := Cap.null, status := statusAt false true false false, cvt := true, frec := 0
            act := a }
        else s)
    | none, _ => s.converterGone n f true
    | _, none => s.converterGone n f false
  | _, _ => s

/-- A converter is dispatched into the first free urgent frame, which it holds while it takes its locks (R152). One whose object is
gone, or whose version or converter is, ends without it. -/
def State.startConverter (s : State) (n k : Nat) (oid : BitVec 40) (m : BitVec 24) (ver : BitVec 8)
    (from_ : BitVec 16) (trig : Option (Nat × Nat)) : State :=
  let x := s.ctxAt k
  match s.liveAt x oid, (s.coreAt n).freeFrame true, x.entered m ver with
  | some _, some f, some v =>
    if (look v.convs from_.toNat).isNone then s.endConversion k oid false
    else
      let s := s.setCtx k { x with convs := x.convs.map (fun y => if y.oid = oid then { y with frame := some f } else y) }
      let fr := s.frameAt n f
      (s.setFrame n f { Frame.clear with
        posted := fr.posted, faultSeq := fr.faultSeq, modid := m, ver := ver, cvt := true
        state := .parked, park := some (.locks oid from_ trig)
        act := some ⟨.converter oid v.layout, k, none, Cap.null, false, s.ftime⟩ }).lockConverter n f
  | none, _, _ => s.endConversion k oid true
  | _, _, none => s.endConversion k oid false
  | _, none, _ => s

end Sys2Proof.Machine
end

