-- ==== Sys2Proof/Machine/Message.lean ====
section
/-! DEFINITION. SEND, REPLY, DONE and DEFER (R359 to R361, R404 to R406, R412 to R418), and the arrival of messages and
replies (R74, R77, R78, R310). -/
namespace Sys2Proof.Machine

/-! ### SEND (R412 to R417) -/

/-- The target of R413: destination, module, object, stripe, stateless. -/
structure Target where
  dest   : Dest
  modid  : BitVec 24
  oid    : BitVec 40
  stripe : Nat
  sl     : Bool
  deriving DecidableEq, Repr

/-- The route index of an exterior object (R232). -/
def routeIndex (home : Nat) : Nat := home / 1024 % 4 * 256 + (home / 8 % 128 - 96) * 8 + home % 8

/-- The checks of SEND on its target capability (R414) and the target that it names (R413). An exterior object whose
route the table lacks is refused as R232's other accesses are (log 29). -/
def State.sendTarget (s : State) (n : Nat) (c : Cap) : Res Target :=
  if c.tag = false then .error (.trap CAPTAG 0)
  else if c.kind ≠ 1 ∧ c.kind ≠ 2 then .error (.trap CAPKIND 0)
  else if c.rights &&& rightS = 0 then .error (.trap CAPRIGHT (rightEval 0 rightS.toNat))
  else if c.kind = 2 then .ok ⟨.core n, c.oid.setWidth 24, 0, 0, true⟩
  else
    let x := s.ctxAt (s.ctxOf n)
    match s.liveAt x c.oid with
    | none => .error (.trap CAPTAG 0)
    | some d =>
      if d.pw || d.pageReg then .error (.trap CAPKIND 0)
      else if s.exterior d then
        match x.policy.routes[routeIndex d.home]? with
        | some r => .ok ⟨.pod r (BitVec.ofNat 40 d.xbase), d.owner, BitVec.ofNat 40 d.xbase, 0, false⟩
        | none => .error (.trap CAPKIND 0)
      else if s.far d then .ok ⟨.device d.home, d.owner, BitVec.ofNat 40 d.xbase, 0, false⟩
      else
        let p := d.stripe c.base.toNat
        .ok ⟨.core (s.homeOf x d p % 4096), d.owner, d.oid, p, false⟩

/-- What Reserve answers (R74, R414, R416). -/
inductive Reserve where
  | ok
  | full (c : Credit)
  | unreachable
  deriving DecidableEq, Repr

/-- The messages that the inter-pod transmit buffer holds: they stay until their datagram is acknowledged (R233, R416;
log 43), and the entries that SENDs have reserved. -/
def State.podEntries (s : State) : Nat :=
  s.txbuf.length + ((s.peers.map (fun p => (p.2.unacked.map (fun q => q.1.entries.length)).sum)).sum) +
    (s.allFrames.filter (fun p => decide ((s.frameAt p.1 p.2).txEntry = some .pods))).length

/-- The entry that a SEND to a destination reserves. -/
def Dest.entry (d : Dest) (urgent : Bool) : Entry :=
  match d with
  | .core n => .near n urgent
  | .device c => .far c urgent
  | .pod _ _ => .pods

/-- Reserve, for a frame that may hold the entry already (R74). -/
def State.reserve (s : State) (held : Option Entry) (d : Dest) (urgent : Bool) : Reserve :=
  if held = some (d.entry urgent) then .ok
  else match d with
  | .core n => if 0 < s.roomAt n urgent then .ok else .full (.queue n urgent)
  | .device c =>
    if s.unreachable.contains (c / 4096) then .unreachable
    else if Config.farReserve s.steps then .ok else .full (.far c urgent)
  | .pod _ _ => if s.podEntries < 4096 then .ok else .full .pods

/-- The COREID that a message goes to, within the pod. -/
def State.destId (s : State) : Dest → Option Nat
  | .core n => some (s.coreid n)
  | .device c => some c
  | .pod _ _ => none

/-- A free reply slot: the lowest-numbered, which R75 leaves open (log 79). -/
def Core.freeSlot (c : Core) : Option Nat :=
  (List.range 64).find? (fun i => match look c.slots i with
    | some q => !q.busy
    | none => true)

/-- A slot taken for a frame, its SLOTSEQ moved on (R75). -/
def Core.takeSlot (c : Core) (i f : Nat) : Core :=
  let seq := (match look c.slots i with
    | some q => q.seq
    | none => 0) + 1
  ({ c with slots := put c.slots i ⟨true, seq, f, none, false, none⟩ } : Core).setFrame f { c.frameAt f with txSlot := some (i, seq) }

/-- The frame's SEND holds a reply slot: the one it has, or a free one that it takes (R75, R414). -/
def State.takeTxSlot (s : State) (n f : Nat) : State :=
  let c := s.coreAt n
  match (c.frameAt f).txSlot, c.freeSlot with
  | none, some i => s.setCore n (c.takeSlot i f)
  | _, _ => s

/-- The frame's SEND holds a queue entry. -/
def State.takeTxEntry (s : State) (n f : Nat) (e : Entry) : State :=
  s.setFrame n f { s.frameAt n f with txEntry := some e }

/-- The message leaves: the entry becomes its own, and the slot waits for the reply of a destination (R75, R310). -/
def State.useSending (s : State) (n f : Nat) (dest : Option Nat) : State :=
  let c := s.coreAt n
  let fr := c.frameAt f
  let slots := match fr.txSlot with
    | some (i, seq) => put c.slots i ⟨true, seq, f, dest, false, none⟩
    | none => c.slots
  s.setCore n { c.setFrame f { fr with txSlot := none, txEntry := none } with slots := slots }

/-- A message leaves for its destination (R217, R233); one to another pod is posted until its datagram is acknowledged
(R234). -/
def State.sendTo (s : State) (n f : Nat) (d : Dest) (m : Msg) : State :=
  match d with
  | .core k => s.post (.messageArrival k m .here)
  | .device c => s.emit (.message c m)
  | .pod r oid =>
    let fr := s.frameAt n f
    let rid := s.nextId
    let s := s.setFrame n f { fr with posted := fr.posted ++ [⟨rid, 7, false⟩] }
    { s with nextId := rid + 1, txbuf := s.txbuf ++ [(r.pod, r.pos, ⟨r.pos * 4096 + r.core, oid, none, m, some (n, f, rid)⟩)] }

/-- A message leaves, or stays behind the frame's buffered stores (R126). -/
def State.leave (s : State) (n f : Nat) (d : Dest) (m : Msg) : State :=
  let c := s.coreAt n
  let before := (c.buffer.filter (fun p => decide (p.frame = f))).length
  if before = 0 then s.sendTo n f d m else s.setCore n { c with outgoing := c.outgoing ++ [⟨f, before, d, m⟩] }

/-- A store of a frame has been performed: the messages behind it move on, and those with none before them leave, in the
order of their SENDs. -/
def State.outgoingMove (s : State) (n f : Nat) : State :=
  let c := s.coreAt n
  let out := c.outgoing.map (fun q => if q.frame = f then { q with left := q.left - 1 } else q)
  let s := s.setCore n { c with outgoing := out.filter (fun q => decide (q.left ≠ 0)) }
  (out.filter (fun q => decide (q.left = 0))).foldl (fun s q => s.sendTo n q.frame q.dest q.msg) s

/-- SEND (R414). What it holds while it is parked or waits in its release stays its own (R71, R72); its checks are made
again after a park (R418). -/
def State.send (s : State) (c : Cap) (gb : BitVec 5) (n : BitVec 3) (cls : BitVec 8) (u rq dl t : Bool) : Res State := do
  let fr := s.cur
  let x ← s.sendTarget s.core c
  let words := (List.range 8).map (fun i => if i ≤ n.toNat then fr.gpr (gb + BitVec.ofNat 5 i) else 0)
  let answer (s : State) (v : Int) : Res State := .ok ((s.dropSending s.core s.frame).writeG gb (Sys2Proof.status v) 4)
  if rq ∧ fr.txSlot = none ∧ s.curCore.freeSlot = none then
    if t then answer s (-2) else .error (.park (.credit .slot))
  else
    let s := if rq then s.takeTxSlot s.core s.frame else s
    match s.reserve s.cur.txEntry x.dest u with
    | .unreachable =>
      if t then answer s (-3) else .ok (s.raise s.core s.frame REMOTEERR (BitVec.ofNat 64 (c.oid.toNat * 256 + 2)))
    | .full w => if t then answer s (-1) else .ok (s.parkFrame s.core s.frame (.credit w))
    | .ok =>
      let s := s.takeTxEntry s.core s.frame (x.dest.entry u)
      let scope := match x.dest with
        | .pod _ _ => 7
        | _ => 6
      if !(s.cur.acked scope && (!rq || !s.buffered s.core s.frame)) then
        .ok (s.waitHere s.core s.frame (.sending scope rq))
      else
        let slot := s.cur.txSlot
        let s := s.useSending s.core s.frame (s.destId x.dest)
        let m : Msg := {
          host := false, sl := x.sl, dlv := dl, rq := rq, u := u, nw := n, stripe := BitVec.ofNat 20 x.stripe
          deadline := if dl then fr.dlnext else 0
          gen := (s.vfAt (s.ctxAt (s.ctxOf s.core)).vf).gen
          slotseq := (slot.map (·.2)).getD 0, slot := BitVec.ofNat 6 ((slot.map (·.1)).getD 0)
          sender := BitVec.ofNat 22 (s.coreid s.core)
          objid := x.oid, modid := x.modid, cls := cls, payload := words }
        let s := s.leave s.core s.frame x.dest m
        let s := if t then s.setCur (s.cur.setGpr gb 0) else s
        match slot with
        | some q => .ok (s.parkFrame s.core s.frame (.reply q.1 gb n))
        | none => .ok (s.skip 4)

/-- R414. -/
def execSend (t e q u : BitVec 1) (c : BitVec 8) (n : BitVec 3) (g : BitVec 5) (k : BitVec 4) (s : State) :
    Host.Outcome State Fault Refusal :=
  s.finish (s.send (s.cur.cap k) g n c (u = 1) (q = 1) (e = 1) (t = 1))

/-! ### REPLY (R404 to R406) -/

/-- The token was dispatched with the activation; narrowing its rights leaves it the same token (R405). -/
def sameToken (a b : Cap) : Bool := decide (b.kind = 3 ∧ a.oid = b.oid ∧ a.base = b.base ∧ a.len = b.len)

/-- The scope that encloses the place a reply goes to (R127). -/
def State.replyScope (s : State) (n : Nat) (e : QEntry) : Nat :=
  match e.origin with
  | .here =>
    let c := e.msg.sender.toNat
    if c / 4096 ≠ s.pos then 6 else if dieOf (c % 4096) ≠ dieOf n then 5 else 4
  | _ => 7

/-- A reply to another pod is a message of the frame that leaves the pod, for a later `.sys` release (R125). -/
def State.trackReply (s : State) (n f : Nat) (o : Origin) : State :=
  match o with
  | .pod _ _ =>
    let t := s.postBus n f
    { t with txbuf := t.txbuf.dropLast ++ (t.txbuf.getLast?.toList.map (fun e =>
        (e.1, e.2.1, { e.2.2 with track := some (n, f, s.nextId) }))) }
  | _ => s

/-- R405. -/
def execReply (n : BitVec 3) (g : BitVec 5) (k : BitVec 4) (s : State) : Host.Outcome State Fault Refusal :=
  let fr := s.cur
  let t := fr.cap k
  s.finish (
    if t.tag = false then .error (.trap CAPTAG 0)
    else if t.kind ≠ 3 then .error (.trap CAPKIND 0)
    else
      match fr.act with
      | none => .error (.trap BADTOKEN 0)
      | some a =>
        match a.entry with
        | none => .error (.trap BADTOKEN 0)
        | some e =>
          if a.used || !sameToken t a.token then .error (.trap BADTOKEN 0)
          else do
            s.release s.core s.frame (s.replyScope s.core e) true
            let words := (List.range (n.toNat + 1)).map (fun i => fr.gpr (g + BitVec.ofNat 5 i))
            let s := (s.sendReply s.core e.msg e.origin a.dtime 0 words).trackReply s.core s.frame e.origin
            .ok ((s.setCur { s.cur with act := some { a with used := true } }).skip 4))

/-! ### DONE and DEFER (R359 to R361) -/

/-- DONE and DEFER of the frame whose instruction it is (R360); the supervisor frame's act as NOP, and a converter's as an end
without a tag (R155). -/
def State.endBy (s : State) (isDefer : Bool) (len : Nat) : Host.Outcome State Fault Refusal :=
  .next (if s.frame = 10 then s.skip len else s.endFrame s.core s.frame (isDefer && !s.cur.cvt))

/-- R360. -/
def execDone32 (s : State) : Host.Outcome State Fault Refusal := s.endBy false 4

/-- R60, R360. -/
def execDone (s : State) : Host.Outcome State Fault Refusal := s.endBy false 2

/-- R360. -/
def execDefer (s : State) : Host.Outcome State Fault Refusal := s.endBy true 4

/-! ### Arrivals -/

/-- The partition of a core takes messages: it has an owner that is not being torn down (R310 step 1). -/
def State.takesMessages (s : State) (n : Nat) : Bool :=
  match (s.clusterAt (clusterOf n)).owner with
  | some k => (s.ctxAt k).teardown.isNone
  | none => false

/-- A message comes from another device of the pod, where its entry was reserved (R74). -/
def State.fromAway (s : State) (m : Msg) : Origin → Bool
  | .device _ => true
  | .here => decide (m.sender.toNat / 4096 ≠ s.pos)
  | _ => false

/-- The entry that another device reserved for a message of its own: for the core that sends it, or for the service hart that brings it
from a host ring (R74). -/
def promiseOf (m : Msg) (o : Origin) (p : Promise) : Bool :=
  decide (p.urgent = m.u) && decide (p.src = (match o with
    | .device pos => pos * 4096
    | _ => m.sender.toNat))

/-- An entry has been reserved for a message: by the device itself, or by another one for its core (R74). -/
def State.hasEntry (s : State) (n : Nat) (m : Msg) (o : Origin) : Bool :=
  !s.fromAway m o || (s.coreAt n).promised.any (promiseOf m o)

/-- The first entry of a list for which a test holds leaves it. -/
def eraseFirst {α : Type} (p : α → Bool) : List α → List α
  | [] => []
  | x :: xs => if p x then xs else x :: eraseFirst p xs

/-- The entry that a message of another device had reserved is its own from now on (R74). -/
def State.redeem (s : State) (n : Nat) (m : Msg) (o : Origin) : State :=
  let c := s.coreAt n
  if s.fromAway m o then s.setCore n { c with promised := eraseFirst (promiseOf m o) c.promised } else s

/-- The entries that a retired partition had reserved and has not used by 100 µs after T_e return (R310 step 3). -/
def State.returnCredits (s : State) : State :=
  { s with cores := s.cores.map (fun p => (p.1, { p.2 with
      promised := p.2.promised.filter (fun q => match q.due with
        | some t => decide (s.ftime < t)
        | none => true) })) }

/-- A message comes to a core: it enters its queue, or is dropped and answered NACK (R74, R310). One that has a reservation is never
dropped for lack of room; one that comes from outside to a full queue without any changes nothing (log 22). -/
def State.messageArrives (s : State) (n : Nat) (m : Msg) (o : Origin) : State :=
  let t := s.redeem n m o
  if !t.takesMessages n || t.retiredMsg m o then t.answerUnrun n ⟨m, t.ftime, 0, o, false⟩ 2 0
  else if s.hasEntry n m o || decide (0 < t.roomAt n m.u) then t.enqueue n m o
  else t

/-- R74, R310; an accepted message for a core of an EVICTED context enters the queue in its image (R308). -/
def execMessageArrival (core : Nat) (m : Msg) (o : Origin) (s : State) : Host.Outcome State Fault Refusal :=
  .next (s.onCore core (fun s => s.messageArrives core m o))

/-- The slot of a reply becomes free. -/
def Core.dropSlot (c : Core) (i : Nat) (q : Slot) : Core :=
  { c with slots := put c.slots i { q with busy := false, due := none } }

/-- A frame takes a reply's words and status (R77). -/
def Frame.takeReply (fr : Frame) (gb : BitVec 5) (n : BitVec 3) (st : Nat) (words : List Word) : Frame :=
  let fr := (List.range (n.toNat + 1)).foldl (fun fr i => fr.setGpr (gb + BitVec.ofNat 5 i) (words.getD i 0)) fr
  { fr with rstat := BitVec.ofNat 64 st }.advance 4

/-- A reply for a slot of a core (R76, R77): discarded when its SLOTSEQ is another one; the frame that no longer waits
for it does not receive it (R159). -/
def State.replyTo (s : State) (n slot : Nat) (seq : BitVec 16) (st : Nat) (words : List Word) : State :=
  let c := s.coreAt n
  match look c.slots slot with
  | none => s
  | some q =>
    if !q.busy || decide (q.seq ≠ seq) then s
    else
      let s := s.setCore n (c.dropSlot slot q)
      if q.discard then s
      else
        match (s.frameAt n q.frame).park with
        | some (.reply i gb k) => if i = slot then s.wake n q.frame (fun fr => fr.takeReply gb k st words) else s
        | _ => s

/-- R77; a frame that receives a poisoned reply has its core told (R221). -/
def execReplyArrival (core : Nat) (r : Reply) (s : State) : Host.Outcome State Fault Refusal :=
  .next (s.onCore core (fun s =>
    let waits := match look (s.coreAt core).slots r.slot.toNat with
      | some q => q.busy && decide (q.seq = r.slotseq) && !q.discard
      | none => false
    let from_ := (look (s.coreAt core).slots r.slot.toNat).bind (·.dest)
    let t := s.replyTo core r.slot.toNat r.slotseq r.status r.words
    if waits then t.meet core 2 (from_.getD 0) 0 else t))

/-- R78, R310 step 3: a slot whose NACK has not come by its time ends with TIMEOUT. -/
def execReplySlotTimeout (core slot : Nat) (s : State) : Host.Outcome State Fault Refusal :=
  .next (s.onCore core (fun s =>
    match look (s.coreAt core).slots slot with
    | none => s
    | some q =>
      match q.due with
      | none => s
      | some t => if q.busy ∧ t ≤ s.ftime then s.replyTo core slot q.seq 3 [] else s))

end Sys2Proof.Machine
end

