-- ==== Sys2Proof/Machine/Partition.lean ====
section
/-! DEFINITION. What belongs to a partition and how it is given up (R118, R120, R308, R310), and the mailbox's response block
(R303). -/
namespace Sys2Proof.Machine

/-- The response of a mailbox command (R303): the block, what the host reads of it, and PF vector 0. -/
def State.respond (s : State) (tag : Word) (st : Int) (r0 r1 r2 : Word) : State :=
  (({ s with response := some (tag, st, r0, r1, r2) } : State).emit (.response tag st r0 r1 r2)).emit (.interrupt 0 0)

def State.answerAll (s : State) (tags : List Word) (st : Int) : State :=
  tags.foldl (fun s t => s.respond t st 0 0 0) s

/-- The region of a context's table holds zeros, under no key yet (R103, R106). -/
def State.clearTable (s : State) (x : Context) : State :=
  { s with
    mem := s.mem.filter (fun c => !(decide (c.1 < 2 ^ 42) && x.inTable c.1))
    tags := s.tags.filter (fun g => !x.inTable (16 * g))
    keys := s.keys.filter (fun p => !x.inTable (64 * p.1)) }

/-- Whether a flat address belongs to a partition: its TCM and scratchpads, its pages, its object table. -/
def State.belongs (s : State) (k a : Nat) : Bool :=
  let x := s.ctxAt k
  if a < 2 ^ 42 then
    decide (look s.pageOwner (a / 2 ^ 40 * 2 ^ 24 + a % 2 ^ 40 / 65536) = some k) ||
      x.inTable a
  else if a < 2 ^ 44 then x.cores.contains ((a - 2 ^ 43) / 2 ^ 17)
  else if a < 2 ^ 45 then x.clusters.contains ((a - 2 ^ 44) / 2 ^ 21)
  else false

/-- A cluster is cleared (R120): TCM, scratchpad, tags, code store, frames, tiles, tables, FIFOs, queues, watermarks, monitors, and
both control-store banks hold the vendor's microcode again. Locations that an error has worn are so still (R317). -/
def State.clearCluster (s : State) (c : Nat) (owner : Option Nat) (free : Nat) : State :=
  let inside (a : Nat) : Bool :=
    decide ((2 ^ 43 ≤ a ∧ a < 2 ^ 44 ∧ (a - 2 ^ 43) / 2 ^ 20 = c) ∨ (2 ^ 44 ≤ a ∧ a < 2 ^ 45 ∧ (a - 2 ^ 44) / 2 ^ 21 = c))
  let s : State := { s with
    mem := s.mem.filter (fun x => !inside x.1)
    tags := s.tags.filter (fun g => !inside (16 * g)) }
  let y := s.clusterAt c
  let s := s.setCluster c { Cluster.reset with owner := owner, free := free, errors := y.errors, worn := y.worn }
  (List.range 8).foldl (fun s i => s.setCore (8 * c + i) { Core.reset with born := s.cycles, winStart := s.cycles }) s

/-- The partition's clusters are cleared and free, and its pages are no longer its own; what they hold stays, unreadable under any
other key (R118, R120, R308). -/
def State.freePartition (s : State) (k : Nat) (at_ : Nat) : State :=
  let s : State := { s.clearTable (s.ctxAt k) with
    pageOwner := s.pageOwner.filter (fun p => decide (p.2 ≠ k))
    dies := s.dies.map (fun p => (p.1, { p.2 with
      faultq := p.2.faultq.filter (fun r => decide (r.ctx ≠ k))
      slotsOf := drop p.2.slotsOf k })) }
  (s.ctxAt k).clusters.foldl (fun s c => s.clearCluster c none at_) s

/-- A claim of a group is announced on the device. -/
def State.groupAnnounced (s : State) (g : Nat) : Bool :=
  s.claims.any (fun p => decide (p.2.state = .announced ∧ p.2.ann.group = g))

/-- The claim groups of a context that have no claim under way, and its address groups, have no owner any more (R225,
R241). -/
def State.freeGroups (s : State) (k : Nat) : State :=
  { s with
    groups := s.groups.map (fun p => if p.2.owner = some k ∧ s.groupAnnounced p.1 = false then (p.1, Group.reset) else p)
    agroups := s.agroups.filter (fun p => decide (p.2.ctx ≠ k)) }

/-- Step 4 of a teardown (R310): keys discarded, clusters cleared and held for 100 µs after T_e, the VF's generation
advanced; the context is GONE and the command answered. -/
def State.endTeardown (s : State) (k te : Nat) : State :=
  let x := s.ctxAt k
  let tag := match x.teardown with
    | some t => t.tag
    | none => 0
  let s := (s.freePartition k (te + 100000)).freeGroups k
  let v := s.vfAt x.vf
  let s := if x.vf = 0 then s else s.setVf x.vf { v with gen := v.gen + 1 }
  let y := s.ctxAt k
  (s.setCtx k { y with state := .gone, saved := none, ladder := none, migration := none }).respond tag 0 0 0 0

end Sys2Proof.Machine
end

