-- ==== Sys2Proof/Machine/Claim.lean ====
section
/-! DEFINITION. The claim store (R241 to R261, R355): groups, slots, announcements and objections, outcomes at the effect
time, value tables, handler messages, and the five claim instructions. -/
namespace Sys2Proof.Machine

/-- The bound on halyard delivery, in ns (R243). -/
def boundB : Nat := 2000

def reasonFull : Nat := 0xFF01
def reasonUnreachable : Nat := 0xFF02
def reasonNotStaged : Nat := 0xFF03
def reasonQFull : Nat := 0xFF04
def reasonStale : Nat := 0xFF05

/-! ### Handles and groups -/

/-- A handle (R247). -/
def handleOf (slot : Nat) (gen : BitVec 20) : Word := BitVec.ofNat 64 (gen.toNat * 4096 + slot)

/-- The partition of a core owns a group (R241). -/
def State.ownsGroup (s : State) (n g : Nat) : Bool := decide ((s.groupAt g).owner = some (s.ctxOf n)) && s.ctxOf n ≠ 0

/-- The slot of a current handle (R247). A value with a bit above 31 set, which no handle has, is not current (DESIGN CHOICE, log 107). -/
def State.currentSlot (s : State) (n : Nat) (h : Word) : Option (Nat × ClaimSlot) :=
  let i := bitsOf h.toNat 11 0
  let q := s.claimAt i
  if h >>> 32 = 0 ∧ q.state ≠ .free ∧ q.gen.toNat = bitsOf h.toNat 31 12 ∧ q.ann.group < 64 ∧ s.ownsGroup n q.ann.group
  then some (i, q) else none

/-- The lowest-numbered FREE slot. -/
def State.freeClaim (s : State) : Option Nat := (List.range 4096).find? (fun i => decide ((s.claimAt i).state = .free))

/-- The grant and the staleness of a group (R248, R249). -/
def State.claimGate (s : State) (g : Nat) : Res Unit :=
  if !(s.groupAt g).grant then .error (.trap PRIV 0)
  else if (s.groupAt g).stale then .error (.trap RESYNC (BitVec.ofNat 64 g))
  else .ok ()

/-! ### Ranking (R256) -/

def outranks (a b : Announcement) : Bool :=
  decide (b.prio < a.prio ∨ (a.prio = b.prio ∧ (a.ta < b.ta ∨ (a.ta = b.ta ∧ a.proposer < b.proposer))))

/-- Two claims of one group and key compete. -/
def competes (a b : Announcement) : Bool :=
  let x := if a.ta ≤ b.ta then a else b
  let y := if a.ta ≤ b.ta then b else a
  decide (a.group = b.group ∧ a.key = b.key ∧ y.ta + boundB < x.te)

/-- A claim supersedes another one, when it has not been refused as FULL or came first: a claim that meets a full member leaves the
earlier one unaffected (R256, R261). -/
def supersedes (full : Bool) (a b : Announcement) : Bool :=
  decide (a ≠ b) && competes a b && outranks a b && (!full || decide (a.ta < b.ta))

/-- The ranking of a new claim is recorded in every claim it competes with (R253; log 30). -/
def State.rank (s : State) (a : Announcement) (full : Bool) : State :=
  { s with claims := s.claims.map (fun p =>
      if p.2.state = .announced ∧ supersedes full a p.2.ann then (p.1, { p.2 with rivals := p.2.rivals ++ [a] }) else p) }

/-- A claim slot holds an objection of a full member. -/
def ClaimSlot.refusedFull (q : ClaimSlot) : Bool := q.objections.any (fun o => decide (o.2 = reasonFull))

/-- The claims that this store knows and that supersede a new one. -/
def State.rivalsOf (s : State) (a : Announcement) : List Announcement :=
  (s.claims.filter (fun p => decide (p.2.state ≠ .free) && supersedes p.2.refusedFull p.2.ann a)).map (fun p => p.2.ann) ++
    (s.refused.filter (fun b => supersedes (decide (b.2 = reasonFull)) b.1 a)).map (·.1)

/-! ### Objections (R249, R253, R254) -/

def sameClaim (a : Announcement) (o : Objection) : Bool :=
  decide (a.group = o.group ∧ a.key = o.key ∧ a.proposer = o.proposer ∧ a.ta = o.ta)

/-- What an objection changes in a slot: it is recorded in its claim's, and one of a full member leaves earlier claims unaffected
(R261). -/
def ClaimSlot.object (q : ClaimSlot) (o : Objection) : ClaimSlot :=
  if q.state ≠ .announced then q
  else if sameClaim q.ann o then
    if q.objections.contains (o.position, o.reason) then q else { q with objections := q.objections ++ [(o.position, o.reason)] }
  else if o.reason = reasonFull then { q with rivals := q.rivals.filter (fun b => !sameClaim b o || decide (b.ta < q.ann.ta)) }
  else q

/-- An objection reaches the slots. -/
def State.recordObjection (s : State) (o : Objection) : State :=
  { s with claims := s.claims.map (fun p => (p.1, p.2.object o)) }

/-- This device objects to a claim: its own slot records it, and the halyard plane carries it. -/
def State.objectTo (s : State) (a : Announcement) (reason : Nat) : State :=
  let o : Objection := ⟨a.group, a.key, a.proposer, a.ta, reason, s.pos⟩
  (s.recordObjection o).emit (.objection o)

/-! ### Handler messages (R260) -/

/-- The parts of a handler descriptor (R242). -/
def hcoreOf (d : Word) : Nat := bitsOf d.toNat 63 42
def descEE (d : Word) : Bool := d.getLsbD 41
def descAE (d : Word) : Bool := d.getLsbD 40
def descModid (d : Word) : BitVec 24 := d.extractLsb' 16 24

/-- A message of the claim store: urgent and stateless, with no reply. -/
def State.claimMsg (s : State) (k : Nat) (d : Word) (cls : BitVec 8) (proposer : Nat) (deadline : Option Nat)
    (words : List Word) : Msg where
  host := false
  sl := true
  dlv := deadline.isSome
  rq := false
  u := true
  nw := 5
  stripe := 0
  deadline := BitVec.ofNat 64 (deadline.getD 0)
  gen := (s.vfAt (s.ctxAt k).vf).gen
  slotseq := 0
  slot := 0
  sender := BitVec.ofNat 22 (proposer * 4096)
  objid := 0
  modid := descModid d
  cls := cls
  payload := words ++ [0, 0]

/-- The event messages that wait, with one more in T_e order. -/
def insertEvent : List (Nat × Msg) → Nat × Msg → List (Nat × Msg)
  | [], e => [e]
  | x :: l, e => if (e.2.payload.getD 5 0).toNat < (x.2.payload.getD 5 0).toNat then e :: x :: l else x :: insertEvent l e

/-- Event messages enter their queues in T_e order, as entries are free (R260); those for a core of an EVICTED context wait until it is
restored (R308). -/
def State.flushEvents (s : State) : State :=
  let r := s.eventMsgs.foldl (fun (r : State × List (Nat × Msg)) e =>
    if r.2.any (fun x => decide (x.1 = e.1)) then (r.1, r.2 ++ [e])
    else if r.1.evictedCluster (clusterOf e.1) then (r.1, r.2 ++ [e])
    else if !r.1.takesMessages e.1 then r
    else if 0 < r.1.roomAt e.1 true then (r.1.enqueue e.1 e.2 .handler, r.2)
    else (r.1, r.2 ++ [e])) (s, [])
  { r.1 with eventMsgs := r.2 }

/-! ### Receipt (R248, R253, R254) -/

/-- The staged version that a kind 8 claim names is here, with every slot bound (R149). -/
def State.stagedFor (s : State) (k : Nat) (a : Announcement) : Bool :=
  match (s.ctxAt k).moduleAt (a.key.extractLsb' 0 24) with
  | ⟨_, some v, false, _⟩ =>
    decide (v.ver.toNat = bitsOf a.value.toNat 7 0) &&
      v.consts.all (fun i => match s.slotAddr k v i with
        | some b => s.tags.contains (b / 16)
        | none => false)
  | _ => false

/-- Members that the halyard plane has declared unreachable in time to object for them (R254). -/
def State.goneMembers (s : State) (a : Announcement) : List (Nat × Nat) :=
  (s.declared.filter (fun p => decide (a.members.contains p.1 ∧ p.2 + boundB ≤ a.te))).map (fun p => (p.1, reasonUnreachable))

/-- A claim takes a slot of this member: its ranking, the objections known already, those of the store itself, and the
announce message. -/
def State.takeClaim (s : State) (i : Nat) (a : Announcement) : State :=
  let q := s.claimAt i
  let known := (s.early.filter (sameClaim a)).map (fun o => (o.position, o.reason))
  let s := s.setClaim i { q with
    state := .announced, ann := a, outcome := 0, objections := s.goneMembers a ++ known, rivals := s.rivalsOf a, muted := false }
  let s : State := { s with early := s.early.filter (fun o => !sameClaim a o) }
  let g := s.groupAt a.group
  if a.group = 64 then s
  else
    let k := g.owner.getD 0
    let s := if bitsOf a.key.toNat 63 60 = 8 ∧ !s.stagedFor k a then s.objectTo a reasonNotStaged else s
    if !descAE g.desc then s
    else
      let n := hcoreOf g.desc % 4096
      if s.roomAt n true = 0 then s.objectTo a reasonQFull
      else
        s.enqueue n (s.claimMsg k g.desc (g.desc.extractLsb' 0 8) a.proposer (some (a.te - boundB))
          [handleOf i q.gen, a.key, a.value, BitVec.ofNat 64 a.te, BitVec.ofNat 64 (a.prio.toNat * 65536 + a.proposer),
           BitVec.ofNat 64 a.ta]) .handler

/-- This device is a member of the claim's group (R241, R259). -/
def State.isMember (s : State) (a : Announcement) : Bool :=
  if a.group = 64 then a.members.contains s.pos
  else decide (a.group < 64) && (s.groupAt a.group).owner.isSome && (s.groupAt a.group).members.contains s.pos

/-- The store knows the claim already. -/
def State.knowsClaim (s : State) (a : Announcement) : Bool :=
  s.claims.any (fun p => decide (p.2.state ≠ .free ∧ p.2.ann = a)) || s.refused.any (fun b => decide (b.1 = a))

/-- A claim reaches this member's store (R248, R253). An objection of a full member that came before it counts in its ranking (R261). -/
def State.receiveClaim (s : State) (a : Announcement) : State :=
  if !s.isMember a || s.knowsClaim a then s
  else
    let full := s.early.any (fun o => sameClaim a o && decide (o.reason = reasonFull))
    if (s.groupAt a.group).stale then ({ s.rank a full with refused := s.refused ++ [(a, reasonStale)] } : State).objectTo a reasonStale
    else match s.freeClaim with
      | none => ({ s.rank a true with refused := s.refused ++ [(a, reasonFull)] } : State).objectTo a reasonFull
      | some i => (s.rank a full).takeClaim i a

/-- R243, R253: the device forwards on its own links what it had not received before. -/
def execAnnouncementReceive (a : Announcement) (s : State) : Host.Outcome State Fault Refusal :=
  if s.isMember a && !s.knowsClaim a then .next ((s.receiveClaim a).emit (.announcement a)) else .next s

/-- The store has the objection already. -/
def State.knowsObjection (s : State) (o : Objection) : Bool :=
  s.early.contains o ||
    s.claims.any (fun p => decide (p.2.state ≠ .free) && sameClaim p.2.ann o && p.2.objections.contains (o.position, o.reason))

/-- R243, R253: an objection is recorded, or kept until its announcement comes. -/
def execObjectionReceive (o : Objection) (s : State) : Host.Outcome State Fault Refusal :=
  if s.knowsObjection o then .next s
  else
    let known := s.claims.any (fun p => decide (p.2.state ≠ .free) && sameClaim p.2.ann o) || s.refused.any (fun a => sameClaim a.1 o)
    let t := if known then s.recordObjection o else { s with early := s.early ++ [o] }
    .next (t.emit (.objection o))

/-! ### The effect time (R250, R251, R255, R257) -/

/-- The entry of a full table that a new key drops: the earliest T_e, then the lower key (R251). -/
def oldestValue (t : List (Word × Word × Nat)) : Option (Word × Word × Nat) :=
  t.foldl (fun m e => match m with
    | none => some e
    | some b => if e.2.2 < b.2.2 ∨ (e.2.2 = b.2.2 ∧ e.1.toNat < b.1.toNat) then some e else some b) none

/-- A committed value enters a table of 256 keys (R251). -/
def putValue (t : List (Word × Word × Nat)) (k v : Word) (te : Nat) : List (Word × Word × Nat) :=
  if t.any (fun e => decide (e.1 = k)) then t.map (fun e => if e.1 = k then (k, v, te) else e)
  else if t.length < 256 then t ++ [(k, v, te)]
  else match oldestValue t with
    | some o => t.filter (fun e => decide (e ≠ o)) ++ [(k, v, te)]
    | none => t ++ [(k, v, te)]

/-- R255: 1 committed, 2 objected, 3 superseded, 4 unreachable. -/
def ClaimSlot.decision (q : ClaimSlot) : Nat :=
  if !q.rivals.isEmpty then 3
  else if q.objections.any (fun o => decide (o.2 = reasonUnreachable)) then 4
  else if q.objections.isEmpty then 1 else 2

/-- Queued messages of a retired generation are dropped and answered NACK (R310 step 2). -/
def State.dropRetired (s : State) : State :=
  s.cores.foldl (fun s p =>
    let c := s.coreAt p.1
    let old (e : QEntry) : Bool := s.retiredMsg e.msg e.origin
    let gone := (c.normalQ ++ c.urgentQ).filter old
    let s := s.setCore p.1 { c with normalQ := c.normalQ.filter (fun e => !old e), urgentQ := c.urgentQ.filter (fun e => !old e) }
    gone.foldl (fun s e => s.answerUnrun p.1 e 2 0) s) s

/-- Reply slots whose messages went to a retired partition are reclaimed 100 µs after T_e when no NACK has come, and the queue entries
that it had reserved return likewise (R310 step 3). -/
def State.awaitNacks (s : State) (a : Announcement) : State :=
  let gone (c : Nat) : Bool := decide (c / 4096 = a.proposer) && a.mask.any (fun b => decide (b / 96 * 128 + b % 96 = c / 8 % 512))
  { s with cores := s.cores.map (fun p => (p.1, { p.2 with
      promised := p.2.promised.map (fun q => if gone q.src then { q with due := some (a.te + 100000) } else q)
      slots := p.2.slots.map (fun q => match q.2.dest with
        | some c => if q.2.busy && gone c then (q.1, { q.2 with due := some (a.te + 100000) }) else q
        | none => q) })) }

/-- What a committed claim does beyond its value: a module switch (R149), or a retirement (R310 step 2). -/
def State.commitAct (s : State) (a : Announcement) : State :=
  if bitsOf a.key.toNat 63 60 = 8 then
    match (s.groupAt a.group).owner with
    | some k =>
      let m : BitVec 24 := a.key.extractLsb' 0 24
      (match (s.ctxAt k).moduleAt m with
      | ⟨_, some v, false, _⟩ => if v.ver.toNat = bitsOf a.value.toNat 7 0 then s.switch k m else s
      | _ => s)
    | none => s
  else if a.group = 64 then
    let gens := a.mask.map (fun b => (a.proposer, b / 96 * 128 + b % 96, bitsOf a.value.toNat 7 0, a.te + 100000))
    (({ s with retiredGens := s.retiredGens.filter (fun q => decide (s.ftime < q.2.2.2)) ++ gens } : State).dropRetired).awaitNacks a
  else s

/-- The root learns the outcome of a retirement that it proposed (R310): when it is not 1 it proposes again after 100 µs,
at most 8 times; else it goes on to step 4. -/
def State.retireOutcome (s : State) (slot : Nat) (a : Announcement) (outcome : Nat) : State :=
  s.contexts.foldl (fun s p => match p.2.teardown with
    | some t =>
      if t.slot = some slot ∧ a.proposer = s.pos ∧ a.group = 64 then
        let again := decide (outcome ≠ 1 ∧ t.tries < 8)
        let s := s.setCtx p.1 { s.ctxAt p.1 with teardown := some { t with
          slot := none, te := a.te, retry := if again then some (s.ftime + 100000) else none, done := !again } }
        if again then s else s.endTeardown p.1 a.te
      else s
    | none => s) s

/-- The lowest-positioned objector and its reason, as g5 of the event message gives them; of several reasons of one objector, the one
recorded first (DESIGN CHOICE, log 107). -/
def objectorWord (q : ClaimSlot) (outcome : Nat) : Word :=
  if outcome = 1 ∨ outcome = 3 then 0
  else match q.objections.foldl (fun (m : Option (Nat × Nat)) o => match m with
      | none => some o
      | some b => if o.1 < b.1 then some o else some b) none with
    | some o => BitVec.ofNat 64 (o.1 * 65536 + o.2)
    | none => 0

/-- The frames of a core that wait for a claim take its outcome (R250). -/
def State.outcomeAt (s : State) (n i : Nat) (gen : BitVec 20) (outcome : Nat) : State :=
  (List.range 11).foldl (fun s f =>
    match (s.frameAt n f).park with
    | some (.claim d slot g) =>
      if slot = i ∧ g = gen then s.wake n f (fun fr => (fr.setGpr d (BitVec.ofNat 64 outcome)).advance 4) else s
    | _ => s) s

/-- A strike of a partition: the outcomes of its own claims reach no frame of it (R261). -/
def State.muteClaims (s : State) (k : Nat) : State :=
  { s with claims := s.claims.map (fun p =>
      if p.2.state = .announced ∧ p.2.ann.proposer = s.pos ∧ (s.groupAt p.2.ann.group).owner = some k then (p.1, { p.2 with muted := true })
      else p) }

/-- A slot is RESOLVED with an outcome: CLWAIT's frames resume, also in the image of an evicted context (R355), the event message is
made (R250, R253, R260). -/
def State.resolveWith (s : State) (i outcome : Nat) : State :=
  let q := s.claimAt i
  let a := q.ann
  let s := s.setClaim i { q with state := .resolved, outcome := outcome }
  let s := (s.cores.map (·.1) ++ s.storedCores).foldl (fun s n => s.onCore n (fun s => s.outcomeAt n i q.gen outcome)) s
  let g := s.groupAt a.group
  let s := s.retireOutcome i a outcome
  if a.group < 64 ∧ descEE g.desc ∧ q.muted = false then
    let m := s.claimMsg (g.owner.getD 0) g.desc (g.desc.extractLsb' 8 8) a.proposer none
      [handleOf i q.gen, a.key, a.value, BitVec.ofNat 64 outcome, objectorWord q outcome, BitVec.ofNat 64 a.te]
    ({ s with eventMsgs := insertEvent s.eventMsgs (hcoreOf g.desc % 4096, m) } : State).flushEvents
  else s

/-- A claim is decided when local FTIME has reached its effect time (R255). -/
def State.resolve (s : State) (i : Nat) : State :=
  let q := s.claimAt i
  if q.state = .announced ∧ q.ann.te ≤ s.ftime then
    let o := q.decision
    let s := s.resolveWith i o
    if o = 1 then
      let g := s.groupAt q.ann.group
      (s.setGroup q.ann.group { g with values := putValue g.values q.ann.key q.ann.value q.ann.te }).commitAct q.ann
    else s
  else s

/-- R255. -/
def execClaimResolve (slot : Nat) (s : State) : Host.Outcome State Fault Refusal := .next (s.resolve slot)

/-- A resolved slot becomes FREE 100,000 ns after T_e (R253). -/
def State.freeSlotAt (s : State) (i : Nat) : State :=
  let q := s.claimAt i
  if q.state = .resolved ∧ q.ann.te + 100000 ≤ s.ftime then
    s.setClaim i { ClaimSlot.reset with gen := q.gen + 1 }
  else s

/-- R253. -/
def execClaimSlotFree (slot : Nat) (s : State) : Host.Outcome State Fault Refusal := .next (s.freeSlotAt slot)

/-- Announced claims in the order of their effect times. -/
def State.announced (s : State) (which : Announcement → Bool) : List Nat :=
  ((s.claims.filter (fun p => decide (p.2.state = .announced) && which p.2.ann)).mergeSort
    (fun a b => decide (a.2.ann.te < b.2.ann.te ∨ (a.2.ann.te = b.2.ann.te ∧ a.1 ≤ b.1)))).map (·.1)

/-- Those whose effect time has come. -/
def State.dueClaims (s : State) : List Nat := s.announced (fun a => decide (a.te ≤ s.ftime))

/-- Every claim whose effect time has come is decided, and old ones are forgotten. -/
def State.claimsDue (s : State) : State :=
  let s := s.dueClaims.foldl (fun s i => s.resolve i) s
  let s : State := { s with refused := s.refused.filter (fun a => decide (s.ftime ≤ a.1.te)) }
  (s.claims.map (·.1)).foldl (fun s i => s.freeSlotAt i) s

/-- R257: the device loses the halyard plane; every group becomes stale and every announced claim ends unreachable. -/
def execHalyardLoss (s : State) : Host.Outcome State Fault Refusal :=
  let s := (s.announced (fun _ => true)).foldl (fun s i => s.resolveWith i 4) s
  .next { s with
    halyardLost := true
    groups := ((List.range 64).foldl (fun gs g => put gs g { (look gs g).getD Group.reset with stale := true }) s.groups)
    retire := { s.retire with stale := true } }

/-- The member whose table a group copies (R258): the lowest-positioned one that is reachable and not stale; of the retirement group
any device of the pod may be a member (R259). Whether another device is stale is for it to say (log 31). -/
def State.tableSource (s : State) (g : Nat) : Option Nat :=
  if s.halyardLost then none
  else (if g = 64 then List.range 1024 else (s.groupAt g).members).find? (fun p =>
    decide (p ≠ s.pos) && (look s.declared p).isNone && !Config.peerStale s.steps p)

/-- The root resynchronises the retirement group (R259). -/
def execRetireResync (s : State) : Host.Outcome State Fault Refusal :=
  if !s.retire.stale ∨ s.retireAsked.any (fun p => (look s.declared p).isNone) then .next s
  else match s.tableSource 64 with
    | none => .next s
    | some p => .next (({ s with retireAsked := some p } : State).emit (.tableRequest 64 p))

/-- R258: a value table arrives; the group is stale no more and the CLGRP that waits for it completes. -/
def execValueTableCopy (group : Nat) (rows : List (Nat × Word × Word)) (s : State) : Host.Outcome State Fault Refusal :=
  let waits (p : Nat × Nat) : Bool := match (s.frameAt p.1 p.2).wait with
    | some (.resync g _ _) => g = group
    | _ => false
  let g := s.groupAt group
  if g.stale && !s.halyardLost && (s.allFrames.any waits || (decide (group = 64) && s.retireAsked.isSome)) then
    let t := s.setGroup group { g with stale := false, values := rows.map (fun r => (r.2.1, r.2.2, r.1)) }
    let t : State := if group = 64 then { t with retireAsked := none } else t
    .next (s.allFrames.foldl (fun t p => match (s.frameAt p.1 p.2).wait with
      | some (.resync g d _) =>
        if g = group then t.setFrame p.1 p.2 ({ (t.frameAt p.1 p.2).setGpr d 0 with wait := none }.advance 4) else t
      | _ => t) t)
  else .next s

/-! ### The instructions -/

/-- R248. -/
def execClprop (p : BitVec 6) (b a d : BitVec 5) (s : State) : Host.Outcome State Fault Refusal :=
  let g := p.toNat
  let k := s.cur.gpr a
  let v := s.cur.gpr b
  let kind := bitsOf k.toNat 63 60
  s.finish (
    if !s.ownsGroup s.core g then .ok (s.status d (-2) 4)
    else do
      s.claimGate g
      if !(s.groupAt g).members.contains s.pos then .ok (s.status d (-3) 4)
      else if (kind ≠ 0 ∧ kind ≠ 8) ∨ (kind = 8 ∧ (bitsOf k.toNat 59 24 ≠ 0 ∨ v >>> 8 ≠ 0)) then .ok (s.status d (-4) 4)
      else match s.freeClaim with
        | none => .ok (s.status d (-1) 4)
        | some i =>
          let w := (s.groupAt g).window
          let ann : Announcement := ⟨g, k, v, s.cur.clprio.setWidth 8, s.pos, s.ftime, s.ftime + w, (s.groupAt g).members, []⟩
          let h := handleOf i (s.claimAt i).gen
          .ok ((((s.writeG d h 4).emit (.announcement ann)).rank ann false).takeClaim i ann))

/-- R249. -/
def execClobj (b a d : BitVec 5) (s : State) : Host.Outcome State Fault Refusal :=
  let r := s.cur.gpr b
  s.finish (
    if r >>> 16 ≠ 0 ∨ 0xFF00 ≤ r.toNat then .error (.trap ILLEGAL r)
    else match s.currentSlot s.core (s.cur.gpr a) with
      | none => .ok (s.status d (-1) 4)
      | some (_, q) =>
        if q.state ≠ .announced then .ok (s.status d (-1) 4)
        else do
          s.claimGate q.ann.group
          if q.ann.te < s.ftime + boundB then .error (.trap LATEOBJ (BitVec.ofNat 64 q.ann.te))
          else if q.objections.any (fun o => decide (o.1 = s.pos)) then .ok (s.status d 1 4)
          else .ok ((s.status d 0 4).objectTo q.ann r.toNat))

/-- R250. -/
def execClwait (a d : BitVec 5) (s : State) : Host.Outcome State Fault Refusal :=
  .next (match s.currentSlot s.core (s.cur.gpr a) with
    | none => s.status d (-1) 4
    | some (i, q) =>
      if q.state = .announced then s.parkFrame s.core s.frame (.claim d i q.gen)
      else s.status d q.outcome 4)

/-- R251. -/
def execClread (p : BitVec 6) (a d : BitVec 5) (s : State) : Host.Outcome State Fault Refusal :=
  let g := s.groupAt p.toNat
  s.finish (
    if !s.ownsGroup s.core p.toNat then .error (.trap PRIV 0)
    else
      let e := g.values.find? (fun e => decide (e.1 = s.cur.gpr a))
      let v : Word := match e with
        | some e => e.2.1
        | none => 0
      let t := s.writeG d v 4
      .ok (t.setCur { t.cur with clstat := clstatAt e.isSome g.stale }))

/-- A module holds a resident version. -/
def Context.resident (x : Context) (m : BitVec 24) : Bool :=
  let y := x.moduleAt m
  y.imago.isSome || y.other.isSome

/-- The resynchronising form of CLGRP (R258): it waits for the table of a member, or there is none to ask. On a group that is not stale
it writes 0 and copies nothing (DESIGN CHOICE, log 107). -/
def State.resync (s : State) (d : BitVec 5) (g : Nat) : State :=
  if !(s.groupAt g).stale then s.status d 0 4
  else match s.tableSource g with
    | none => s.status d (-6) 4
    | some p => (s.emit (.tableRequest g p)).waitHere s.core s.frame (.resync g d p)

/-- R252. -/
def execClgrp (p : BitVec 6) (b a d : BitVec 5) (s : State) : Host.Outcome State Fault Refusal :=
  let g := p.toNat
  let w := s.cur.gpr a
  let h := s.cur.gpr b
  s.finish (
    if !s.ownsGroup s.core g then .ok (s.status d (-2) 4)
    else if s.frame = 10 ∧ a = 0 ∧ b = 0 then .ok (s.resync d g)
    else do
      s.claimGate g
      if w.toNat < 5000 ∨ 10000000 < w.toNat then .ok (s.status d (-4) 4)
      else
        let x := s.ctxAt (s.ctxOf s.core)
        let okCore := decide (hcoreOf h / 4096 = s.pos) && x.cores.contains (hcoreOf h % 4096)
        let okMod := !(descAE h || descEE h) || x.resident (descModid h)
        if !okCore || !okMod then .ok (s.status d (-5) 4)
        else .ok ((s.setGroup g { s.groupAt g with window := w.toNat, desc := h }).status d 0 4))

end Sys2Proof.Machine
end

