-- ==== Sys2Proof/Machine/Copy.lean ====
section
/-! DEFINITION. The copy unit (R192 to R199, R205 to R208, R400 to R402, R445): pushing and accepting requests, copying
sectors, watermarks, the ends of requests; and the media engines (R209 to R211). -/
namespace Sys2Proof.Machine

/-! ### Requests and their sectors -/

/-- The fields of a request word (R193). -/
def wordLen (w : Word) : Nat := bitsOf w.toNat 35 0
def wordCh (w : Word) : Nat := bitsOf w.toNat 42 40
def wordDigest (w : Word) : Bool := w.getLsbD 48
def wordFill (w : Word) : Bool := w.getLsbD 49
def wordHost (w : Word) : Bool := w.getLsbD 50

/-- A request word that R193 and R195 refuse. -/
def wordBad (w : Word) : Bool :=
  decide (bitsOf w.toNat 55 51 ≠ 0 ∨ bitsOf w.toNat 47 43 ≠ 0 ∨ bitsOf w.toNat 39 36 ≠ 0 ∨
    (wordCh w = 7 ∧ (wordLen w ≠ 0 ∨ bitsOf w.toNat 63 48 ≠ 0)))

/-- One sector: destination offset, source offset, bytes. -/
structure Sector where
  dst : Nat
  src : Nat
  len : Nat
  deriving DecidableEq, Repr

/-- The sectors of a gather, row by row (R198). -/
def gatherSectors (src dst : Nat) (rows : List (Nat × Nat)) (n : Nat) : List Sector :=
  rows.flatMap (fun r =>
    let d := dst + r.1 * n
    (List.range (cutCount d n)).map (fun i =>
      let q := cutAt d n i
      ⟨q.1, src + r.2 * n + (q.1 - d), q.2⟩))

/-- How many sectors a request has (R196). -/
def CopyReq.count (q : CopyReq) : Nat :=
  match q.kind with
  | .plain => cutCount q.dst.base.toNat (wordLen q.word)
  | .gather rows n => (gatherSectors q.src.base.toNat q.dst.base.toNat rows n).length
  | .media => 0

/-- Sector i of a request. -/
def CopyReq.sector (q : CopyReq) (i : Nat) : Sector :=
  match q.kind with
  | .plain =>
    let c := cutAt q.dst.base.toNat (wordLen q.word) i
    ⟨c.1, q.src.base.toNat + (c.1 - q.dst.base.toNat), c.2⟩
  | .gather rows n => (gatherSectors q.src.base.toNat q.dst.base.toNat rows n).getD i ⟨0, 0, 0⟩
  | .media => ⟨0, 0, 0⟩

/-- The sectors of a request that have not been performed. -/
def CopyReq.left (q : CopyReq) : List Nat := (List.range q.count).filter (fun i => !q.done.contains i)

/-- The bytes of the sectors that have not been performed. -/
def CopyReq.bytesLeft (q : CopyReq) : Nat := (q.left.map (fun i => (q.sector i).len)).sum

/-- Where source and destination overlap in one object, the sectors go in the order in which no byte is read after it
has been overwritten (R196). -/
def CopyReq.inOrder (q : CopyReq) (i : Nat) : Bool :=
  let n := wordLen q.word
  let a := q.src.base.toNat
  let b := q.dst.base.toNat
  if q.kind ≠ .plain ∨ wordFill q.word ∨ q.src.oid ≠ q.dst.oid ∨ a = b ∨ a + n ≤ b ∨ b + n ≤ a then true
  else if a < b then q.left.all (fun j => decide (j ≤ i)) else q.left.all (fun j => decide (i ≤ j))

/-- A sector whose requests are on their way. -/
def CopyReq.busy (q : CopyReq) (i : Nat) : Bool := q.wsent.any (fun p => decide (p.2 = i)) || q.intake.sent.any (fun g => decide (g.2.1 = i))

/-- A gather whose rows overlap its destination in one object reads every row before it writes one, so that each byte is that
which stood before the request (R196; log 84). -/
def CopyReq.readsAhead (q : CopyReq) : Bool :=
  match q.kind with
  | .gather rows n => decide (q.src.oid = q.dst.oid) && rows.any (fun r => rows.any (fun w =>
      let a := q.src.base.toNat + r.2 * n
      let b := q.dst.base.toNat + w.1 * n
      decide (a < b + n ∧ b < a + n)))
  | _ => false

/-! ### Frames that wait for room (R70, R386, R402) -/

/-- The frame of least parking time among those that wait for a place, over all the cores that share it: R386 orders only the
frames of one core, and this is the model's choice for the others (log 85). -/
def State.firstEngine (s : State) (cores : List Nat) (queue : Bool) : Option (Nat × Nat) :=
  let cands := cores.flatMap (fun n => (List.range 11).filterMap (fun f =>
    let fr := s.frameAt n f
    match fr.park with
    | some (.engine q t) => if q = queue ∧ fr.state = .parked then some (t, n, f) else none
    | _ => none))
  (cands.foldl (fun (m : Option (Nat × Nat × Nat)) c => match m with
    | none => some c
    | some b => if c.1 < b.1 then some c else some b) none).map (·.2)

/-- A place frees: the frame that parked first takes it, and executes its instruction again. It keeps its park reason
until then, which reserves the place. -/
def State.freePlace (s : State) (cores : List Nat) (queue : Bool) : State :=
  match s.firstEngine cores queue with
  | some (n, f) => s.setFrame n f { s.frameAt n f with state := .ready, ready := s.ftime }
  | none => s

/-- A frame has been given a place and has not used it: it keeps it while the checks of its push are under way (R402). -/
def Frame.holdsPlace (fr : Frame) (queue : Bool) : Bool :=
  match fr.park with
  | some (.engine q _) => decide (q = queue ∧ fr.state ≠ .parked ∧ fr.state ≠ .stopped ∧ fr.state ≠ .free)
  | some (.remote _ _ (.checked (some _))) => decide (queue = false ∧ fr.state ≠ .stopped ∧ fr.state ≠ .free)
  | _ => false

/-- The places that frames other than the current one have been given. -/
def State.reservedPlaces (s : State) (cores : List Nat) (queue : Bool) : Nat :=
  ((cores.flatMap (fun n => (List.range 11).map (fun f => (n, f)))).filter (fun p =>
    (s.frameAt p.1 p.2).holdsPlace queue && !(decide (p.1 = s.core ∧ p.2 = s.frame)))).length

/-- Since when the frame waits for a place of the FIFO, where it has been given one. -/
def Frame.place (fr : Frame) : Option Nat :=
  match fr.park with
  | some (.engine false t) => some t
  | some (.remote _ _ (.checked t)) => t
  | _ => none

/-! ### Pushing (R195, R198, R400, R401) -/

/-- The engine-side scope of an operand (R128): the smallest that holds the engine and the bytes of a window. -/
def State.operandScope (s : State) (core : Nat) (d : Desc) (off n : Nat) : Nat :=
  let x := s.ctxAt (s.ctxOf core)
  if d.hb || d.pw then 7
  else if s.far d then 6
  else if ((List.range ((off + n) / 65536 - off / 65536 + 1)).all (fun i =>
      decide (dieOf (s.homeOf x d (d.stripe (off + i * 65536)) % 4096) = dieOf core))) then 4
  else 5

/-- The scope of what the capabilities of an encode-job object name (R128), as the frame reads them. -/
def State.mediaScope (s : State) (o : Desc) (a : Nat) : Nat :=
  let x := s.ctxAt (s.ctxOf s.core)
  if s.far o then 7
  else match s.placeOf x o a (dieOf (s.homeOf x o (o.stripe a) % 4096)) with
    | .here addr _ => (List.range 3).foldl (fun m i =>
        let c := capOf (s.tagOwn s.core s.frame (addr + 16 * i)) (leNat (s.readOwn s.core s.frame (addr + 16 * i) 16))
        match (if c.tag then s.liveAt x c.oid else none) with
        | some d => max m (s.operandScope s.core d c.base.toNat (min c.len.toNat d.size))
        | none => m) 4
    | _ => 4

/-- BarrierAdd of a push to a barrier of this device, performed before it (R195). -/
def State.pushAdd (s : State) (q : Desc × Nat × Nat) (n : Nat) : State :=
  s.updateBarrier (s.ctxOf s.core) q.1.oid q.2.1 (.add n)

/-- BarrierAdd of a push to a barrier of another device: the frame waits in place until it is performed, with the place of its
request kept (R195, R334). -/
def State.pushFar (s : State) (q : Desc × Nat × Nat) (n : Nat) : State :=
  let r := s.request s.core s.frame q.2.2 (s.nameAt q.1) q.1.oid q.2.1 (.barAdd n) .atomic false true
  r.1.waitHere s.core s.frame (.pushing r.2)

/-- The addition has been performed: the request goes in. -/
def State.pushing (s : State) : Bool :=
  match s.cur.wait with
  | some (.pushing _) => true
  | _ => false

/-- The layout checks of far objects that a push names have come back good (R151). -/
def State.pushChecked (s : State) : Bool :=
  match s.cur.park with
  | some (.remote _ [] (.checked _)) => true
  | _ => false

/-- The layout checks of the objects that a push names (R151, R195): of this device's here, of far ones at their homes, for
which the frame parks; none when there is nothing to wait for. -/
def State.pushLayouts (s : State) (os : List (Cap × Desc)) : Res (Option State) := do
  let _ ← os.mapM (fun q => s.layoutCheck s.core s.frame q.1 q.2)
  let far := os.filter (fun q => decide (q.1.kind = 1) && s.far q.2)
  if far.isEmpty || s.pushChecked || s.frame = 10 then .ok none
  else
    let r := far.foldl (fun (r : State × List Nat) q =>
      let p := r.1.request s.core s.frame q.2.home (s.nameAt q.2) q.2.oid 0 .check .load true false
      (p.1, r.2 ++ [p.2])) (s, [])
    .ok (some (r.1.parkFrame s.core s.frame (.remote 4 r.2 (.checked s.cur.place))))

/-- The request enters the FIFO of the core. -/
def State.pushReq (s : State) (kind : CopyKind) (src dst : Cap) (w : Word) (bar : Cap) : State :=
  let c := s.curCore
  let s := { s with nextId := s.nextId + 1 }
  s.setCurCore { c with fifo := c.fifo ++
    [⟨s.nextId, s.core, s.frame, s.ctxOf s.core, kind, src, dst, w, bar, false, [], [], [], Intake.empty, [], 0, none⟩] }

/-- The frame gives up the place it was given, when it had one. -/
def State.unpark (s : State) : State := s.setCur { s.cur with park := none }

/-- Other frames of the core whose push waits for the addition to its barrier: each has a place. -/
def State.pushesAdding (s : State) : Nat :=
  ((List.range 11).filter (fun f => decide (f ≠ s.frame) && (match (s.frameAt s.core f).wait with
    | some (.pushing _) => true
    | _ => false))).length

/-- The FIFO of the core has no entry for this frame (R192). -/
def State.fifoFull (s : State) : Bool := decide (16 ≤ s.curCore.fifo.length + s.reservedPlaces [s.core] false + s.pushesAdding)

/-- A place that no request takes and no frame has been given goes to the frame that parked first, where one that had it has trapped
or been stopped (R386, R402). The places are 16 of a core's FIFO, 32 of a cluster's job queue. -/
def State.handOn (s : State) (cores : List Nat) (queue : Bool) : State :=
  let taken := if queue then (s.clusterAt (clusterOf (cores.headD 0))).jobs.length else
    (cores.map (fun n => (s.coreAt n).fifo.length + ((List.range 11).filter (fun f => match (s.frameAt n f).wait with
      | some (.pushing _) => true
      | _ => false)).length)).sum
  let given := ((cores.flatMap (fun n => (List.range 11).map (fun f => (n, f)))).filter (fun p =>
    (s.frameAt p.1 p.2).holdsPlace queue)).length
  if taken + given < (if queue then 32 else 16) then s.freePlace cores queue else s

/-- The last part of a push: the addition to the barrier, and the request. -/
def State.pushEnd (s : State) (bd : Desc × Nat × Nat) (n : Nat) (adds : Bool) (t : State → State) : State :=
  if adds && s.far bd.1 then s.pushFar bd n else t (if adds then s.unpark.pushAdd bd n else s.unpark)

/-- The checks of QPUSH on its operands (R195): the objects and the scope of the release. -/
def State.pushChecks (s : State) (src dst : Cap) (w : Word) : Res (List (Cap × Desc) × Nat) := do
  let n := wordLen w
  if wordCh w = 7 then
    let (o, a) ← s.access s.core src 0 96 1 (rightR ||| rightW ||| rightC) [1] .engine true
    if o.tier ≠ 1 ∧ o.tier ≠ 2 then .error (.trap CAPKIND 0) else .ok ()
    let (p, b) ← s.access s.core dst 0 dst.len.toNat 1 rightW [1] .engine false
    .ok ([(src, o), (dst, p)], max (max (s.operandScope s.core o a 96)
      (s.operandScope s.core p b dst.len.toNat)) (s.mediaScope o a))
  else
    let (p, b) ← s.access s.core dst 0 n 1 rightW [1, 6] .copyUnit false
    if wordFill w then .ok ([(dst, p)], s.operandScope s.core p b n)
    else
      let (o, a) ← s.access s.core src 0 n 1 rightR [1, 6] .copyUnit false
      if wordHost w ≠ (o.hb || o.pw) then .error (.trap CAPKIND 0) else .ok ()
      .ok ([(dst, p), (src, o)], max (s.operandScope s.core p b n) (s.operandScope s.core o a n))

/-- QPUSH and QPUSHT (R195). -/
def State.qpush (s : State) (bar : Cap) (l : BitVec 5) (dst src : Cap) (tr : Bool) : Res State := do
  let w := s.cur.gpr l
  let enter (s : State) : State :=
    let s := s.pushReq (if wordCh w = 7 then .media else .plain) src dst w bar
    if tr then s.writeG l 0 4 else s.skip 4
  if s.pushing then .ok (enter (s.setCur { s.cur with wait := none, park := none }))
  else
    if wordBad w then .error (.trap ILLEGAL w) else .ok ()
    let b ← s.barCheck bar
    let (os, scope) ← s.pushChecks src dst w
    match ← s.pushLayouts os with
    | some t => .ok t
    | none =>
      if s.fifoFull then
        if tr then .ok (s.unpark.writeG l (Sys2Proof.status (-1)) 4) else .error (.park (.engine false (s.cur.place.getD s.steps)))
      else
        s.release s.core s.frame scope true
        s.barSettled b.2.2
        s.barSound b.1 b.2.1 b.2.2
        .ok (s.pushEnd b (wordLen w) (decide (wordCh w ≠ 7)) enter)

/-- R195. -/
def execQpush (b : BitVec 4) (l : BitVec 5) (d c : BitVec 4) (s : State) : Host.Outcome State Fault Refusal :=
  s.finish (s.qpush (s.cur.cap b) l (s.cur.cap d) (s.cur.cap c) false)

/-- R400. -/
def execQpusht (b : BitVec 4) (l : BitVec 5) (d c : BitVec 4) (s : State) : Host.Outcome State Fault Refusal :=
  s.finish (s.qpush (s.cur.cap b) l (s.cur.cap d) (s.cur.cap c) true)

/-- R401. -/
def execQgath (k : BitVec 3) (b : BitVec 4) (v : BitVec 5) (d c : BitVec 4) (s : State) :
    Host.Outcome State Fault Refusal :=
  let fr := s.cur
  let q := fr.qrowlen.toNat
  let src := fr.cap c
  let dst := fr.cap d
  let rows := ((List.range 32).filter (fr.guards k)).map (fun l => (l, (lane (fr.vreg v) l).toNat))
  let enter (s : State) : State := (s.pushReq (.gather rows q) src dst 0 (fr.cap b)).skip 4
  s.finish (do
    if s.pushing then return enter (s.setCur { s.cur with wait := none, park := none })
    if q = 0 ∨ 65536 < q then .error (.trap ILLEGAL fr.qrowlen) else .ok ()
    let bd ← s.barCheck (fr.cap b)
    let os ← rows.mapM (fun r => do
      let (o, a) ← s.access s.core src (r.2 * q : Nat) q 1 rightR [1] .copyUnit false
      let (p, e) ← s.access s.core dst (r.1 * q : Nat) q 1 rightW [1, 6] .copyUnit false
      .ok (o, a, p, e))
    let named := match os with
      | (o, _, p, _) :: _ => [(src, o), (dst, p)]
      | [] => []
    match ← s.pushLayouts named with
    | some t => .ok t
    | none =>
      if s.fifoFull then .error (.park (.engine false (s.cur.place.getD s.steps)))
      else
        let scope := os.foldl (fun m r => max m (max (s.operandScope s.core r.1 r.2.1 q)
          (s.operandScope s.core r.2.2.1 r.2.2.2 q))) 4
        s.release s.core s.frame scope true
        s.barSettled bd.2.2
        s.barSound bd.1 bd.2.1 bd.2.2
        .ok (s.pushEnd bd (q * rows.length) true enter))

/-! ### Watermarks (R205, R206, R445) -/

/-- How far a watermark reaches over filled intervals from a point on. -/
def reachFill (iv : List (Nat × Nat)) : Nat → Nat → Nat
  | 0, w => w
  | fuel + 1, w =>
    match iv.find? (fun p => decide (p.1 ≤ w ∧ w < p.2)) with
    | some p => reachFill iv fuel p.2
    | none => w

/-- A sector has been performed: it fills the range of its channel when its bytes lie in the range (R206). -/
def Channel.fill (c : Channel) (ctx : Nat) (oid : BitVec 40) (off n : Nat) : Channel :=
  if c.arm ∧ c.oid = oid ∧ c.ctx = ctx ∧ 0 < n ∧ c.rbase ≤ off ∧ off + n ≤ c.rbase + c.rlen then
    let iv := c.filled ++ [(off - c.rbase, off + n - c.rbase)]
    { c with filled := iv, w := reachFill iv iv.length c.w }
  else c

/-- R445. -/
def execWmset (n : BitVec 5) (d : BitVec 4) (s : State) : Host.Outcome State Fault Refusal :=
  let ch := s.cur.gpr n
  let c := s.cur.cap d
  let k := clusterOf s.core
  let set (x : Channel) : State :=
    (s.skip 4).setCluster k { s.clusterAt k with channels := put (s.clusterAt k).channels ch.toNat x }
  s.finish (
    if 6 < ch.toNat then .error (.trap ILLEGAL ch)
    else if d = 0 then .ok (set ⟨false, 0, 0, 0, 0, 0, []⟩)
    else if c.tag = false then .error (.trap CAPTAG 0)
    else if c.kind ≠ 1 then .error (.trap CAPKIND 0)
    else if c.rights &&& rightR = 0 then .error (.trap CAPRIGHT (rightEval 0 rightR.toNat))
    else
      match s.liveAt (s.ctxAt (s.ctxOf s.core)) c.oid with
      | none => .error (.trap CAPTAG 0)
      | some o =>
        if s.reachRefused s.core o .copyUnit true || s.far o ||
            decide (dieOf (s.homeOf (s.ctxAt (s.ctxOf s.core)) o (o.stripe c.base.toNat) % 4096) ≠ dieOf s.core)
        then .error (.trap CAPKIND 0)
        else .ok (set ⟨true, 0, c.oid, s.ctxOf s.core, c.base.toNat, c.len.toNat, []⟩))

/-- R445. -/
def execWmget (n : BitVec 5) (s : State) : Host.Outcome State Fault Refusal :=
  let ch := s.cur.gpr n
  s.finish (
    if 6 < ch.toNat then .error (.trap ILLEGAL ch)
    else .ok (s.writeG n (match look (s.clusterAt (clusterOf s.core)).channels ch.toNat with
      | some c => if c.arm then BitVec.ofNat 64 c.w else Sys2Proof.status (-1)
      | none => Sys2Proof.status (-1)) 4))

/-! ### The copy unit at work -/

def State.onReq (s : State) (cl id : Nat) (g : CopyReq → CopyReq) : State :=
  let c := s.clusterAt cl
  s.setCluster cl { c with accepted := c.accepted.map (fun q => if q.id = id then g q else q) }

def State.dropReq (s : State) (cl id : Nat) : State :=
  let c := s.clusterAt cl
  s.setCluster cl { c with accepted := c.accepted.filter (fun q => decide (q.id ≠ id)) }

/-- An update of a request's barrier at its home, which for a barrier of another device is a posted request of the core
(R334). -/
def State.reqBarrier (s : State) (core k : Nat) (c : Cap) (u : BarUpd) : State :=
  match s.liveAt (s.ctxAt k) c.oid with
  | none => s
  | some d =>
    if s.far d then
      let op := match u with
        | .add n => ReqOp.barAdd n
        | .sub n => .barSub n
        | .abortArrive n => .barAbort n
        | .init n => .barInit n
        | .arrive => .barArrive
        | .err _ => .barAbort 0
      (s.engineRequest core k 4 d.home (BitVec.ofNat 40 d.xbase) d.oid c.base.toNat op false).1
    else s.updateBarrier k d.oid c.base.toNat u

/-- A digest goes to the slot of a barrier of this device, at the homes of the slot's object (R197, R200): the state and the writes to
another device that are to be acknowledged, or what the slot's page meets. A slot that cannot be written sets ERR.DIGEST. -/
def State.digestAt (s : State) (core k : Nat) (oid : BitVec 40) (off : Nat) (digest : List Byte) :
    Except EMiss (State × List Nat) :=
  let err := s.updateBarrier k oid off (.err 92)
  match s.barAddr k oid off with
  | none => .ok (s, [])
  | some a =>
    let b := s.readNat a 32
    let slot := BitVec.ofNat 40 (bitsOf b 255 216)
    let o := bitsOf b 215 192 * 64
    if slot = 0 then .ok (err, [])
    else
      match s.liveAt (s.ctxAt k) slot with
      | none => .ok (err, [])
      | some d =>
        if (d.tier ≠ 1 ∧ d.tier ≠ 2) ∨ d.imm ∨ d.hb ∨ d.pw ∨ s.exterior d ∨ d.size < o + 64 then .ok (err, [])
        else match s.homePieces (s.ctxAt k) d o 64 true with
          | .ok ps => .ok (s.engineWrite core k 4 slot ps digest [])
          | .error .gone => .ok (err, [])
          | .error (.bad _) => .ok (err, [])
          | .error e => .error e

/-- The object and the offset of the digest slot of a barrier. -/
def State.slotOf (s : State) (k : Nat) (oid : BitVec 40) (off : Nat) : BitVec 40 × Nat :=
  match s.barAddr k oid off with
  | some a => (BitVec.ofNat 40 (bitsOf (s.readNat a 32) 255 216), bitsOf (s.readNat a 32) 215 192 * 64)
  | none => (0, 0)

/-- The digest of what a request wrote, in ascending destination offset (R197). -/
def CopyReq.digest (q : CopyReq) : List Byte :=
  sha3 (((q.written.mergeSort (fun a b => decide (a.1 ≤ b.1))).map (·.2)).flatten)

/-- The arrival of a request whose work is done (R197, R201). -/
def State.arriveReq (s : State) (cl : Nat) (q : CopyReq) : State :=
  (s.dropReq cl q.id).reqBarrier q.core q.ctx q.bar .arrive

/-- A digest whose slot's page is missing waits in the fault queue (R275; log 86), or here while the queue is full, when the copy unit
accepts nothing (R276). -/
def State.digestFault (s : State) (cl : Nat) (q : CopyReq) (host : Bool) (off : Nat) : State :=
  let w := s.slotOf q.ctx q.bar.oid q.bar.base.toNat
  match s.liveAt (s.ctxAt q.ctx) w.1 with
  | none => s
  | some d =>
    match s.enterSpans q.ctx (cl / 128) (s.coreid q.core) 4 d host off [0] (fun _ => (w.2, 64)) (fun _ => .copy cl q.id []) with
    | some t => t.onReq cl q.id (fun q => { q with ending := 2, intake := { q.intake with jam := none } })
    | none => s.onReq cl q.id (fun q => { q with intake := { q.intake with jam := s.jamAt q.ctx (cl / 128) d host off [0] } })

/-- Another request's digest for the same barrier is under way to its slot. -/
def State.digestBusy (s : State) (q : CopyReq) : Bool :=
  s.clusters.any (fun p => p.2.accepted.any (fun r =>
    decide (r.ending = 1 ∧ r.ctx = q.ctx ∧ r.bar.oid = q.bar.oid ∧ r.bar.base = q.bar.base)))

/-- Every sector has been performed: the digest, then the arrival (R197, R201), so that the slot holds the digest of the request that is
counted last. For a barrier of another device the home does both. -/
def State.endRequest (s : State) (cl : Nat) (q : CopyReq) : State :=
  if !wordDigest q.word || q.kind ≠ .plain then s.arriveReq cl q
  else match s.liveAt (s.ctxAt q.ctx) q.bar.oid with
    | none => s.arriveReq cl q
    | some b =>
      if s.far b then
        let r := s.engineRequest q.core q.ctx 4 b.home (BitVec.ofNat 40 b.xbase) b.oid q.bar.base.toNat (.barDigest q.digest) false
        r.1.onReq cl q.id (fun q => { q with ending := 1, wsent := [(r.2, q.count)] })
      else if s.digestBusy q then s
      else match s.digestAt q.core q.ctx q.bar.oid q.bar.base.toNat q.digest with
        | .ok (t, []) => t.arriveReq cl q
        | .ok (t, rids) => t.onReq cl q.id (fun q => { q with ending := 1, wsent := rids.map (fun r => (r, q.count)) })
        | .error (.ask pasid page write) => s.askTranslation (cl / 128) pasid page write
        | .error (.fault host off) => s.digestFault cl q host off
        | .error _ => s

/-- The records of a request leave the fault queues. -/
def State.dropRecords (s : State) (mine : Held → Bool) : State :=
  { s with dies := s.dies.map (fun p => (p.1, { p.2 with faultq := p.2.faultq.filter (fun r => !mine r.held) })) }

def copyRecord (cl id : Nat) : Held → Bool
  | .copy c i _ => decide (c = cl ∧ i = id)
  | _ => false

/-- A request is aborted (R199): no sector begins any more, and when those that are on their way to another home have been performed,
the bytes of the rest are subtracted and the arrival is counted (log 111). -/
def State.abortReq (s : State) (cl : Nat) (q : CopyReq) : State :=
  let s := s.dropRecords (copyRecord cl q.id)
  if q.wsent.isEmpty then (s.dropReq cl q.id).reqBarrier q.core q.ctx q.bar (.abortArrive q.bytesLeft)
  else s.onReq cl q.id (fun _ => { q with ending := 3, held := [], intake := Intake.empty })

/-- Tags travel with the whole granules of a sector (R196). -/
def CopyReq.tagged (q : CopyReq) (z : Sector) : Bool :=
  q.src.rights &&& rightC ≠ 0 && q.dst.rights &&& rightC ≠ 0 && !wordFill q.word && !wordHost q.word && decide (z.src % 16 = z.dst % 16)

/-- Writes under way to another die that now wait in its fault queue (R287). -/
def State.recall (s : State) (rids : List Nat) : State :=
  { s with inflight := s.inflight.filter (fun i => match i with
      | .remoteRequest r => !(decide (r.frame = engineFrame) && rids.contains r.rid)
      | _ => true) }

/-- What a sector meets besides success (R199, R275, R276, R287). -/
def State.sectorMiss (s : State) (cl : Nat) (q : CopyReq) (d : Desc) (isDst : Bool) : EMiss → State
  | .ask pasid page write => s.askTranslation (cl / 128) pasid page write
  | .held => s
  | .gone => s.abortReq cl q
  | .bad a => (s.abortReq cl q).memoryError q.core a
  | .fault host off =>
    let free := q.left.filter (fun i => !q.held.contains i)
    let at_ (i : Nat) : Nat × Nat :=
      let x := q.sector i
      if isDst then (x.dst, x.len) else (x.src, x.len)
    let mine := inPage host off at_ free
    match s.enterSpans q.ctx (cl / 128) (s.coreid q.core) 4 d host off free at_ (fun g => .copy cl q.id g) with
    | some s =>
      let recalled := (q.wsent.filter (fun w => mine.contains w.2)).map (·.1)
      (s.recall recalled).onReq cl q.id (fun q => { q with
        held := q.held ++ mine, wsent := q.wsent.filter (fun w => !recalled.contains w.1), intake := { q.intake with jam := none } })
    | none => s.onReq cl q.id (fun q => { q with intake := { q.intake with jam := s.jamAt q.ctx (cl / 128) d host off mine } })

/-- A sector has been performed at its destination's home (R128, R201, R206); with the last one the request ends. -/
def State.sectorDone (s : State) (cl : Nat) (q : CopyReq) (i : Nat) : State :=
  let z := q.sector i
  let q := { q with done := q.done ++ [i], held := q.held.filter (fun j => decide (j ≠ i)) }
  let t := s.onReq cl q.id (fun _ => q)
  let t := t.reqBarrier q.core q.ctx q.bar (.sub z.len)
  let c := { t.clusterAt cl with turn := q.core % 8 }
  let t := t.setCluster cl c
  let t := if q.kind = .plain then
      match look c.channels (wordCh q.word) with
      | some ch => t.setCluster cl { c with
          channels := put c.channels (wordCh q.word) (ch.fill q.ctx q.dst.oid z.dst z.len) }
      | none => t
    else t
  if q.ending = 3 then (if q.wsent.isEmpty then t.abortReq cl q else t)
  else if q.left.isEmpty then t.endRequest cl q else t

/-- The bytes of a sector, as pieces of the source have been read, or FILLB. -/
def CopyReq.sectorData (q : CopyReq) (x : Intake) (i : Nat) : List Byte × List Nat :=
  let z := q.sector i
  if wordFill q.word then (List.replicate z.len (BitVec.ofNat 8 (bitsOf q.word.toNat 63 56)), [])
  else
    let r := x.bytes i (pieces z.src z.len)
    (r.1, if q.tagged z then r.2 else [])

/-- A sector whose bytes are there is written; one with a part at another home is performed when that is acknowledged. -/
def State.writeSector (s : State) (cl : Nat) (q : CopyReq) (i : Nat) (x : Intake) (dp : List Piece) : State :=
  let z := q.sector i
  let r := q.sectorData x i
  let w := s.engineWrite q.core q.ctx 4 q.dst.oid dp r.1 r.2
  let q := { q with
    intake := x.used i
    held := q.held.filter (fun j => decide (j ≠ i))
    written := if wordDigest q.word then q.written.filter (fun p => decide (p.1 ≠ z.dst)) ++ [(z.dst, r.1)] else q.written }
  if w.2.isEmpty then w.1.sectorDone cl q i
  else (w.1.onReq cl q.id (fun _ => { q with wsent := q.wsent ++ w.2.map (fun rid => (rid, i)) }))

/-- A sector of an accepted request (R196, R199): its bytes are read, from other homes by requests (R93), and then written. -/
def State.copySector (s : State) (cl : Nat) (q : CopyReq) (i : Nat) : State :=
  let x := s.ctxAt q.ctx
  let die := cl / 128
  let z := q.sector i
  match s.liveAt x q.dst.oid with
  | none => s.abortReq cl q
  | some dd =>
    let src : Except EMiss (List Piece) :=
      if wordFill q.word then .ok []
      else match s.liveAt x q.src.oid with
        | none => .error .gone
        | some sd => s.enginePieces x sd z.src z.len die false
    match src with
    | .error e => s.sectorMiss cl q ((s.liveAt x q.src.oid).getD dd) false e
    | .ok sp =>
      match s.enginePieces x dd z.dst z.len die true with
      | .error e => s.sectorMiss cl q dd true e
      | .ok dp =>
        let r := s.fetchPieces q.core q.ctx 4 q.src.oid q.intake i sp
        let there (j : Nat) : Bool := r.2.full j (pieces (q.sector j).src (q.sector j).len)
        if wordFill q.word || (if q.readsAhead then q.left.all there else there i) then r.1.writeSector cl q i r.2 dp
        else r.1.onReq cl q.id (fun q => { q with intake := r.2 })

/-- What becomes of an accepted request whose sectors need nothing more: an operand that is gone aborts it (R199), one whose
sectors have all been performed ends. -/
def execCopyUpkeep (cluster request : Nat) (s : State) : Host.Outcome State Fault Refusal :=
  match (s.clusterAt cluster).accepted.find? (fun q => decide (q.id = request)) with
  | none => .next s
  | some q =>
    let dead (c : Cap) : Bool := (s.liveAt (s.ctxAt q.ctx) c.oid).isNone
    if q.ending = 3 then .next (if q.wsent.isEmpty then s.abortReq cluster q else s)
    else if !q.left.isEmpty then
      .next (if dead q.dst || (!wordFill q.word && dead q.src) then s.abortReq cluster q else s)
    else .next (if q.ending = 0 then s.endRequest cluster q else s)

/-- R192: the copy unit takes a request from the head of a core's FIFO. One that moves nothing ends here (R195, R198);
a media kick goes on to the die's encoders (R209). A unit that holds a sector for want of a fault-queue record accepts none
(R276). -/
def execRequestAccept (core : Nat) (s : State) : Host.Outcome State Fault Refusal :=
  let c := s.coreAt core
  match c.fifo with
  | [] => .next s
  | q :: qs =>
    let cl := clusterOf core
    if q.kind ≠ .media && (s.clusterAt cl).accepted.any (fun q => s.jammed q.intake) then .next s
    else
    let s := s.setCore core { c with fifo := qs }
    let s := s.freePlace [core] false
    let y := s.clusterAt cl
    let q := { q with bank := y.copyBank }
    .next (match q.kind with
      | .media => s.setDie (dieOf core) { s.dieAt (dieOf core) with mediaQ := (s.dieAt (dieOf core)).mediaQ ++ [q] }
      | _ =>
        let s := s.setCluster cl { y with accepted := y.accepted ++ [q] }
        if q.count = 0 then s.endRequest cl q else s)

/-- R196: one sector of an accepted request, unless it has been performed, waits in a fault queue or must come later. -/
def execCopySector (cluster request sector : Nat) (s : State) : Host.Outcome State Fault Refusal :=
  match (s.clusterAt cluster).accepted.find? (fun q => decide (q.id = request)) with
  | none => .next s
  | some q =>
    if q.ending ≠ 3 ∧ sector < q.count ∧ !q.done.contains sector ∧ !q.held.contains sector ∧ !q.busy sector ∧ q.inOrder sector then
      .next (s.copySector cluster q sector)
    else .next s

/-- R208. -/
def execCopyBankSelect (cluster : Nat) (bank : Bool) (s : State) : Host.Outcome State Fault Refusal :=
  .next (s.setCluster cluster { s.clusterAt cluster with copyBank := bank })

/-! ### Media engines (R209 to R211) -/

/-- The fields of an encode-job object (R210). -/
structure MediaJob where
  ycap  : Cap
  uvcap : Cap
  refcap : Cap
  width : Nat
  height : Nat
  depth : Nat
  fl    : Nat
  qidx  : Nat
  zero  : Nat
  deriving DecidableEq, Repr

/-- What the 96 bytes of an encode-job object say, with the tags of its granules. -/
def mediaParse (r : List Byte × List Nat) : MediaJob :=
  let w := leNat r.1
  let cap (i : Nat) : Cap := capOf (r.2.contains (16 * i)) (w / 2 ^ (128 * i) % 2 ^ 128)
  ⟨cap 0, cap 1, cap 2, bitsOf w 399 384, bitsOf w 415 400, bitsOf w 423 416, bitsOf w 431 424, bitsOf w 447 432,
    bitsOf w 511 448 + bitsOf w 767 608⟩

/-- Operand i of a kick: 0 the job object, 1 and 2 the planes, 3 the reference state. -/
def mediaOperand (die : Nat) (q : CopyReq) (part : Nat) (cap : Cap) (len : Nat) : Operand :=
  ⟨q.core, q.ctx, 6, die, part, cap, len, fun g => .media die q.id part g⟩

/-- The job of a kick, once its object has been read. -/
def CopyReq.mediaJob (q : CopyReq) : Option MediaJob :=
  let ps := cuts q.src.base.toNat 96
  if q.intake.full 0 ps then some (mediaParse (q.intake.bytes 0 ps)) else none

/-- Samples take one byte or two. -/
def MediaJob.area (j : MediaJob) : Nat := j.width * j.height * (if j.depth = 8 then 1 else 2)

/-- What a job reads besides its object (R210, R211): its planes, and the reference state unless it is a key frame. -/
def mediaReads (die : Nat) (q : CopyReq) (j : MediaJob) : List Operand :=
  [mediaOperand die q 1 j.ycap j.area, mediaOperand die q 2 j.uvcap (j.area / 2)] ++
    (if j.fl = 1 then [] else [mediaOperand die q 3 j.refcap (4 * j.area)])

/-- A capability of a job serves: tag, kind 1, rights; one whose window is shorter than its plane does not either, an end that
R211 does not name (log 87). -/
def mediaCap (c : Cap) (need : BitVec 8) (n : Nat) : Bool :=
  c.tag && decide (c.kind = 1 ∧ need &&& ~~~c.rights = 0 ∧ n ≤ c.len.toNat)

/-- BADJOB (R211): a field out of range, a capability that does not serve, or a first job that is no key frame. Bytes 56 to 63 and
76 to 95, which R210 has zero, count as fields (log 87). -/
def State.mediaBad (s : State) (k : Nat) (j : MediaJob) : Bool :=
  let sb := if j.depth = 8 then 1 else 2
  !(decide (16 ≤ j.width ∧ j.width ≤ 3840 ∧ j.width % 2 = 0 ∧ 16 ≤ j.height ∧ j.height ≤ 2160 ∧ j.height % 2 = 0 ∧
      (j.depth = 8 ∨ j.depth = 10) ∧ j.fl ≤ 1 ∧ j.qidx ≤ 255 ∧ j.zero = 0) &&
    mediaCap j.ycap rightR (j.width * j.height * sb) &&
    mediaCap j.uvcap rightR (j.width * j.height / 2 * sb) &&
    mediaCap j.refcap (rightR ||| rightW) (4 * j.width * j.height * sb) &&
    (decide (j.fl = 1) || (s.ctxAt k).refs.contains j.refcap.oid))

/-- A kick of a die changes, queued or running. -/
def State.onMedia (s : State) (die id : Nat) (g : CopyReq → CopyReq) : State :=
  let d := s.dieAt die
  let m (q : CopyReq) : CopyReq := if q.id = id then g q else q
  s.setDie die { d with mediaQ := d.mediaQ.map m, media := d.media.map m }

/-- R209: the die's encoders take the next kick, when one is idle and no running job names the same reference state; its job
object is read before. A die whose media engine waits for a fault-queue record accepts none (R276). -/
def execMediaJobAccept (die : Nat) (s : State) : Host.Outcome State Fault Refusal :=
  match (s.dieAt die).mediaQ with
  | [] => .next s
  | q :: qs =>
    if 6 ≤ (s.dieAt die).media.length ∨ (s.dieAt die).media.any (fun r => s.jammed r.intake) then .next s
    else
      let take (s : State) (q : CopyReq) : State :=
        let d := s.dieAt die
        s.setDie die { d with mediaQ := qs, media := d.media ++ [q] }
      match s.fetchOperand (mediaOperand die q 0 q.src 96) q.intake with
      | .error _ => .next (take s q)
      | .ok (t, x) =>
        let q := { q with intake := x }
        match q.mediaJob with
        | none => .next (t.onMedia die q.id (fun _ => q))
        | some j =>
          let busy := (t.dieAt die).media.any (fun r => decide (r.ctx = q.ctx) && (match r.mediaJob with
            | some i => decide (i.refcap.oid = j.refcap.oid)
            | none => false))
          .next (if busy then t.onMedia die q.id (fun _ => q) else take t q)

def mediaRecord (die id : Nat) : Held → Bool
  | .media d i _ _ => decide (d = die ∧ i = id)
  | _ => false

/-- A record of a write of a job, which is made once the operands have been read (R287). -/
def mediaWriteRecord (die id : Nat) : Held → Bool
  | .media d i part _ => decide (d = die ∧ i = id ∧ 4 ≤ part)
  | _ => false

/-- A job leaves its encoder. -/
def State.dropMedia (s : State) (die id : Nat) : State :=
  let d := s.dieAt die
  (s.setDie die { d with media := d.media.filter (fun q => decide (q.id ≠ id)), mediaQ := d.mediaQ.filter (fun q => decide (q.id ≠ id)) }).dropRecords
    (mediaRecord die id)

/-- A job ends and counts its arrival (R209). -/
def State.mediaArrive (s : State) (die : Nat) (q : CopyReq) (stat : Nat) : State :=
  (s.dropMedia die q.id).reqBarrier q.core q.ctx q.bar (if stat = 0 then .arrive else .abortArrive 0)

/-- A job is aborted with nothing stored (R199, R211). -/
def State.mediaAbort (s : State) (die : Nat) (q : CopyReq) : State := s.mediaArrive die q 1

/-- The place of a media job's write meets something else: it waits, or the job is aborted (R199, R211, R287). -/
def State.mediaMiss (s : State) (die : Nat) (q : CopyReq) (d : Desc) (part off n : Nat) : EMiss → State
  | .ask pasid page write => s.askTranslation die pasid page write
  | .held => s
  | .gone => s.mediaAbort die q
  | .bad a => (s.mediaAbort die q).memoryError q.core a
  | .fault host foff =>
    let r := s.operandFault (mediaOperand die q part { q.dst with base := BitVec.ofNat 36 off } n) d q.intake host foff
    r.1.onMedia die q.id (fun q => { q with intake := r.2 })

/-- The result fields and then the arrival of a job (R209, R210); fields in the memory of another home are acknowledged first. -/
def State.mediaResult (s : State) (die : Nat) (q : CopyReq) (len stat : Nat) : State :=
  match s.liveAt (s.ctxAt q.ctx) q.src.oid with
  | none => s.mediaAbort die q
  | some d =>
    let off := q.src.base.toNat + 64
    match s.enginePieces (s.ctxAt q.ctx) d off 12 die true with
    | .ok ps =>
      let w := s.engineWrite q.core q.ctx 6 q.src.oid ps (leBytes 8 len ++ leBytes 4 stat) []
      if w.2.isEmpty then w.1.mediaArrive die q stat
      else w.1.onMedia die q.id (fun q => { q with ending := 1, result := some (len, stat), wsent := w.2.map (fun r => (r, 0)) })
    | .error e =>
      (s.onMedia die q.id (fun q => { q with result := some (len, stat) })).mediaMiss die { q with result := some (len, stat) } d 4 off 12 e

/-- The records of a request that hold it back. -/
def State.heldBack (s : State) (mine : Held → Bool) : Bool :=
  s.dies.any (fun p => p.2.faultq.any (fun r => mine r.held))

/-- The OBUs of a bitstream, each with its size field (R211): their types, none where it is not a sequence of such (log 23). -/
def obuTypes : Nat → List Byte → Option (List Nat)
  | _, [] => some []
  | 0, _ :: _ => none
  | fuel + 1, h :: bs =>
    let bs := if h.getLsbD 2 then bs.drop 1 else bs
    let size := bs.takeWhile (fun b => b.getLsbD 7)
    let n := ((bs.take (size.length + 1)).zipIdx.map (fun p => p.1.toNat % 128 * 128 ^ p.2)).sum
    let rest := bs.drop (size.length + 1)
    if h.getLsbD 7 ∨ !h.getLsbD 1 ∨ bs.length ≤ size.length ∨ rest.length < n then none
    else (obuTypes fuel (rest.drop n)).map (fun ts => h.toNat / 8 % 16 :: ts)

/-- One temporal unit: a temporal delimiter, a sequence header when it is a key frame, one frame OBU (R211). -/
def temporalUnit (key : Bool) (bs : List Byte) : Bool :=
  decide (obuTypes bs.length bs = some (if key then [2, 1, 6] else [2, 6]))

/-- A window that a job writes. -/
def State.mediaWindow (s : State) (k die : Nat) (c : Cap) (n : Nat) : Except (Desc × Nat × Nat × EMiss) (List Piece) :=
  match s.liveAt (s.ctxAt k) c.oid with
  | none => .error (descOf 0, 0, 0, .gone)
  | some d => match s.enginePieces (s.ctxAt k) d c.base.toNat n die true with
    | .ok ps => .ok ps
    | .error e => .error (d, c.base.toNat, n, e)

/-- A job whose operands have been read writes the reconstruction and the bitstream, and then its result (R210, R211). -/
def State.mediaWrites (s : State) (die : Nat) (q : CopyReq) (j : MediaJob) (bits recon : List Byte) : State :=
  if q.dst.len.toNat < bits.length then s.mediaResult die q 0 2
  else
    let recon := recon.take (4 * j.area)
    match s.mediaWindow q.ctx die j.refcap recon.length, s.mediaWindow q.ctx die q.dst bits.length with
    | .error (d, off, n, e), _ => s.mediaMiss die q d 5 off n e
    | _, .error (d, off, n, e) => s.mediaMiss die q d 6 off n e
    | .ok r, .ok o =>
      let w := s.engineWrite q.core q.ctx 6 j.refcap.oid r recon []
      let v := w.1.engineWrite q.core q.ctx 6 q.dst.oid o bits []
      let t := v.1.setCtx q.ctx { v.1.ctxAt q.ctx with refs := j.refcap.oid :: (v.1.ctxAt q.ctx).refs }
      let rids := w.2 ++ v.2
      if rids.isEmpty then t.mediaResult die q bits.length 0
      else t.onMedia die q.id (fun q => { q with result := some (bits.length, 0), wsent := rids.map (fun r => (r, 0)) })

/-- R211: a running job ends with the bitstream and the reconstruction that the encoder has made of its frame (what they are is
AV1's; log 23). Its operands are read first, and a job with sectors in a fault queue or requests under way goes on running; what else it can read
it reads meanwhile (R287). -/
def execMediaJobEnd (die job : Nat) (bits recon : List Byte) (s : State) : Host.Outcome State Fault Refusal :=
  match (s.dieAt die).media.find? (fun q => decide (q.id = job)) with
  | none => .next s
  | some q =>
    let gone (e : EMiss) : State := match e with
      | .bad a => (s.mediaAbort die q).memoryError q.core a
      | _ => s.mediaAbort die q
    if s.heldBack (mediaWriteRecord die q.id) || !q.wsent.isEmpty then .next s
    else match q.result with
    | some (len, stat) => .next (if q.ending = 1 then s.mediaArrive die q stat else s.mediaResult die q len stat)
    | none =>
      match s.fetchOperand (mediaOperand die q 0 q.src 96) q.intake with
      | .error e => .next (gone e)
      | .ok (t, x) =>
        let q := { q with intake := x }
        match q.mediaJob with
        | none => .next (t.onMedia die q.id (fun _ => q))
        | some j =>
          if t.mediaBad q.ctx j then .next (t.mediaResult die q 0 1)
          else if !temporalUnit (decide (j.fl = 1)) bits then .next t
          else match t.fetchOperands (mediaReads die q j) x with
            | .error e => .next (gone e)
            | .ok (u, y) =>
              let q := { q with intake := y }
              let u := u.onMedia die q.id (fun _ => q)
              .next (if y.complete (mediaReads die q j) then u.mediaWrites die q j bits recon else u)

/-- A media engine reads what it can of its job and of the operands that the job names (R287). -/
def State.mediaFetch (s : State) (die : Nat) (q : CopyReq) : State :=
  let os := match q.mediaJob with
    | some j => if s.mediaBad q.ctx j then [] else mediaReads die q j
    | none => [mediaOperand die q 0 q.src 96]
  match s.fetchOperands os q.intake with
  | .ok (t, x) => t.onMedia die q.id (fun q => { q with intake := x })
  | .error (.bad a) => (s.mediaAbort die q).memoryError q.core a
  | .error _ => s.mediaAbort die q

/-- What a running job does ahead of its end: it reads, and once its writes have been acknowledged it has its result. -/
def execMediaUpkeep (die job : Nat) (s : State) : Host.Outcome State Fault Refusal :=
  match (s.dieAt die).media.find? (fun q => decide (q.id = job)) with
  | none => .next s
  | some q =>
    if s.heldBack (mediaWriteRecord die q.id) || !q.wsent.isEmpty then .next s
    else match q.result with
    | some (len, stat) => .next (if q.ending = 1 then s.mediaArrive die q stat else s.mediaResult die q len stat)
    | none => .next (s.mediaFetch die q)

end Sys2Proof.Machine
end

