-- ==== Sys2Proof/Machine/Vector.lean ====
section
/-! DEFINITION. The vector instructions (R171 to R176, R427 to R439): lane operations, comparisons, conversions, lut8
tables, reductions, and vector loads and stores. -/
namespace Sys2Proof.Machine

/-! ### Lane operations (R172, R428) -/

/-- An operation on f32, s32 or n32 lanes, by the type code. -/
def byType (t : BitVec 3) (f s n : Lane → Lane → Lane) (a b : Lane) : Lane :=
  if t = 0 then f a b else if t = 1 then s a b else n a b

def laneAdd (t : BitVec 3) : Lane → Lane → Lane := byType t addF (· + ·) (· + ·)
def laneSub (t : BitVec 3) : Lane → Lane → Lane := byType t subF (· - ·) (· - ·)
def laneMul (t : BitVec 3) : Lane → Lane → Lane := byType t mulF (· * ·) (· * ·)
def laneMin (t : BitVec 3) : Lane → Lane → Lane :=
  byType t minF (fun a b => if b.slt a then b else a) (fun a b => if b.ult a then b else a)
def laneMax (t : BitVec 3) : Lane → Lane → Lane :=
  byType t maxF (fun a b => if a.slt b then b else a) (fun a b => if a.ult b then b else a)

/-- A guarded lane operation on two source vectors (R427). -/
def State.lanes2 (s : State) (k : BitVec 3) (b a d : BitVec 5) (f : Lane → Lane → Lane) :
    Host.Outcome State Fault Refusal :=
  let fr := s.cur
  let x := fr.vreg a
  let y := fr.vreg b
  .next (s.writeV d (fr.lanewise k (fr.vreg d) (fun l => f (lane x l) (lane y l))) 4)

/-- A guarded lane operation on one source vector. -/
def State.lanes1 (s : State) (k : BitVec 3) (a d : BitVec 5) (f : Lane → Lane) :
    Host.Outcome State Fault Refusal :=
  let fr := s.cur
  let x := fr.vreg a
  .next (s.writeV d (fr.lanewise k (fr.vreg d) (fun l => f (lane x l))) 4)

/-- R428. -/
def execVadd (t k : BitVec 3) (b a d : BitVec 5) (s : State) : Host.Outcome State Fault Refusal :=
  s.lanes2 k b a d (laneAdd t)
/-- R428. -/
def execVsub (t k : BitVec 3) (b a d : BitVec 5) (s : State) : Host.Outcome State Fault Refusal :=
  s.lanes2 k b a d (laneSub t)
/-- R428. -/
def execVmul (t k : BitVec 3) (b a d : BitVec 5) (s : State) : Host.Outcome State Fault Refusal :=
  s.lanes2 k b a d (laneMul t)
/-- R428. -/
def execVmin (t k : BitVec 3) (b a d : BitVec 5) (s : State) : Host.Outcome State Fault Refusal :=
  s.lanes2 k b a d (laneMin t)
/-- R428. -/
def execVmax (t k : BitVec 3) (b a d : BitVec 5) (s : State) : Host.Outcome State Fault Refusal :=
  s.lanes2 k b a d (laneMax t)
/-- R428: the type makes no difference. -/
def execVand (_t k : BitVec 3) (b a d : BitVec 5) (s : State) : Host.Outcome State Fault Refusal :=
  s.lanes2 k b a d (· &&& ·)
/-- R428. -/
def execVor (_t k : BitVec 3) (b a d : BitVec 5) (s : State) : Host.Outcome State Fault Refusal :=
  s.lanes2 k b a d (· ||| ·)
/-- R428. -/
def execVxor (_t k : BitVec 3) (b a d : BitVec 5) (s : State) : Host.Outcome State Fault Refusal :=
  s.lanes2 k b a d (· ^^^ ·)
/-- R428: the amount is taken modulo 32. -/
def execVshl (_t k : BitVec 3) (b a d : BitVec 5) (s : State) : Host.Outcome State Fault Refusal :=
  s.lanes2 k b a d (fun x y => x <<< (y.toNat % 32))
/-- R428. -/
def execVshr (_t k : BitVec 3) (b a d : BitVec 5) (s : State) : Host.Outcome State Fault Refusal :=
  s.lanes2 k b a d (fun x y => x >>> (y.toNat % 32))
/-- R428. -/
def execVshra (_t k : BitVec 3) (b a d : BitVec 5) (s : State) : Host.Outcome State Fault Refusal :=
  s.lanes2 k b a d (fun x y => x.sshiftRight (y.toNat % 32))

/-- R434, either sign of the product. -/
def State.vfma (s : State) (neg : Bool) (k : BitVec 3) (b a d : BitVec 5) : Host.Outcome State Fault Refusal :=
  let fr := s.cur
  let x := fr.vreg a
  let y := fr.vreg b
  let z := fr.vreg d
  .next (s.writeV d (fr.lanewise k z (fun l => fmaF neg (lane x l) (lane y l) (lane z l))) 4)

/-- R434. -/
def execVfma (k : BitVec 3) (b a d : BitVec 5) (s : State) : Host.Outcome State Fault Refusal := s.vfma false k b a d
/-- R434. -/
def execVfmaNeg (k : BitVec 3) (b a d : BitVec 5) (s : State) : Host.Outcome State Fault Refusal := s.vfma true k b a d

/-- R435. -/
def execVfn (f : BitVec 4) (k : BitVec 3) (a d : BitVec 5) (s : State) : Host.Outcome State Fault Refusal :=
  s.lanes1 k a d (vfnLane f)

/-- The comparisons of VCMP (R430, R172): EQ, NE, LT, LE, GT, GE. -/
def compare (f : BitVec 4) (eq lt : Bool) (nan : Bool) : Bool :=
  if nan then f = 1
  else if f = 0 then eq else if f = 1 then !eq else if f = 2 then lt else if f = 3 then lt || eq
  else if f = 4 then !(lt || eq) else !lt

/-- One lane of VCMP. -/
def compareLane (f : BitVec 4) (t : BitVec 3) (a b : Lane) : Bool :=
  if t = 0 then
    let x := fpOf a
    let y := fpOf b
    compare f (!x.lt y && !y.lt x) (x.lt y) (x.isNan || y.isNan)
  else if t = 1 then compare f (a == b) (a.slt b) false
  else compare f (a == b) (a.ult b) false

/-- R430: the bits of unguarded lanes are written 0. -/
def execVcmp (f : BitVec 4) (t k : BitVec 3) (b a : BitVec 5) (d : BitVec 3) (s : State) :
    Host.Outcome State Fault Refusal :=
  let fr := s.cur
  let x := fr.vreg a
  let y := fr.vreg b
  let bits := (List.range 32).map (fun l => if fr.guards k l && compareLane f t (lane x l) (lane y l) then 2 ^ l else 0)
  .next (s.setCur ((fr.setMask d (BitVec.ofNat 32 bits.sum)).advance 4))

/-- R431: K selects; every lane is written. -/
def execVsel (k : BitVec 3) (b a d : BitVec 5) (s : State) : Host.Outcome State Fault Refusal :=
  let fr := s.cur
  .next (s.writeV d (fr.lanewise k (fr.vreg b) (fun l => lane (fr.vreg a) l)) 4)

/-- One step of VRED (R172). -/
def redStep (f : BitVec 4) (t : BitVec 3) : Lane → Lane → Lane :=
  if f = 0 then laneAdd t else if f = 1 then laneMin t else laneMax t

/-- VRED with no guarded lane (R172). -/
def redEmpty (f : BitVec 4) (t : BitVec 3) : Lane :=
  if f = 0 then 0
  else if f = 1 then (if t = 0 then 0x7F800000 else if t = 1 then 0x7FFFFFFF else 0xFFFFFFFF)
  else (if t = 0 then 0xFF800000 else if t = 1 then 0x80000000 else 0)

/-- R439, R172: a left fold of the guarded lanes in ascending order. It starts from the first of them, which the spec does not say
(log 95). -/
def reduce (f : BitVec 4) (t : BitVec 3) (xs : List Lane) : Lane :=
  match xs with
  | [] => redEmpty f t
  | x :: xs => xs.foldl (redStep f t) (if t = 0 ∧ (fpOf x).isNan then 0x7FC00000 else x)

/-- R439. -/
def execVred (f : BitVec 4) (t k : BitVec 3) (a d : BitVec 5) (s : State) : Host.Outcome State Fault Refusal :=
  let fr := s.cur
  let x := fr.vreg a
  let r := reduce f t (((List.range 32).filter (fr.guards k)).map (lane x))
  .next (s.writeG d (if t = 1 then r.signExtend 64 else r.setWidth 64) 4)

/-- R429. -/
def execVbcast (k : BitVec 3) (a d : BitVec 5) (s : State) : Host.Outcome State Fault Refusal :=
  let fr := s.cur
  .next (s.writeV d (fr.lanewise k (fr.vreg d) (fun _ => (fr.gpr a).setWidth 32)) 4)

/-- R429. -/
def execVperm (k : BitVec 3) (b a d : BitVec 5) (s : State) : Host.Outcome State Fault Refusal :=
  let fr := s.cur
  let x := fr.vreg a
  let y := fr.vreg b
  .next (s.writeV d (fr.lanewise k (fr.vreg d) (fun l => lane x ((lane y l).toNat % 32))) 4)

/-- R432, R173. -/
def execVcvt (sat : BitVec 1) (t k : BitVec 3) (r : BitVec 2) (u : BitVec 3) (a d : BitVec 5) (s : State) :
    Host.Outcome State Fault Refusal :=
  s.lanes1 k a d (convertLane (sat = 1) t u (rmOf r))

/-! ### lut8 (R174, R175) -/

/-- Entry i of a lut8 bank of a core. -/
def Core.lutEntry (c : Core) (bank i : Nat) : Fp := e8m10.value ((look c.lut (bank * 256 + i)).getD 0).toNat

/-- The lut8 bank that the frame's format context names (R178). -/
def Frame.lutBank (fr : Frame) : Nat := bitsOf fr.fctx0.toNat 13 13

/-- VDEC (R175). -/
def decodeLut (c : Core) (bank : Nat) (a : Lane) : Lane := lane32 (c.lutEntry bank (a.toNat % 256))

/-- The magnitude of an exact value. -/
def Fp.abs : Fp → Fp
  | .nan => .nan
  | .inf _ => .inf false
  | .num _ m e => .num false m e

/-- VENC (R175): the binary search, then the nearer of the code and its successor. -/
def encodeLut (c : Core) (bank : Nat) (x : Lane) : Lane :=
  let a := fpOf x
  if a.isNan then 0
  else
    let le (v : Fp) : Bool := !v.isNan && !a.lt v
    let code := [7, 6, 5, 4, 3, 2, 1, 0].foldl
      (fun n b => if le (c.lutEntry bank (n + 2 ^ b)) then n + 2 ^ b else n) 0
    let dist (v : Fp) : Fp := (v.add a.neg).abs
    let up := decide (code < 255) && (dist (c.lutEntry bank (code + 1))).lt (dist (c.lutEntry bank code))
    BitVec.ofNat 32 (if up then code + 1 else code)

/-- R433. -/
def execVdec (k : BitVec 3) (a d : BitVec 5) (s : State) : Host.Outcome State Fault Refusal :=
  s.lanes1 k a d (decodeLut s.curCore s.cur.lutBank)

/-- R433. -/
def execVenc (k : BitVec 3) (a d : BitVec 5) (s : State) : Host.Outcome State Fault Refusal :=
  s.lanes1 k a d (encodeLut s.curCore s.cur.lutBank)

/-! ### Vector memory (R437) -/

/-- The guarded lanes in ascending order. -/
def Frame.guarded (fr : Frame) (k : BitVec 3) : List Nat := (List.range 32).filter (fr.guards k)

/-- One element of a vector access: its lane, its object, its offset. -/
structure Elem where
  lane : Nat
  obj  : Desc
  off  : Nat
  deriving DecidableEq, Repr

/-- The checks of every guarded element in ascending lane order, then the layout check (R437). -/
def State.elems (s : State) (c : Cap) (need : BitVec 8) (size : Nat) (ls : List Nat) (off : Nat → Int) :
    Res (List Elem) := do
  let es ← ls.mapM (fun l => do
    let (o, a) ← s.access s.core c (off l) size size need [1, 6] .frame false
    .ok (Elem.mk l o a))
  match es with
  | e :: _ => s.layoutCheck s.core s.frame c e.obj
  | [] => .ok ()
  .ok es

/-- A vector being loaded: the state, the lanes that have their values, and the requests for the others. -/
structure Loading where
  state : State
  acc   : VReg
  rids  : List (Nat × Nat)
  deriving DecidableEq, Repr

/-- A lane receives a value. -/
def setLane (v : VReg) (l : Nat) (x : Lane) : VReg := v.setIfInBounds l x

/-- One element is loaded from its place, or its request leaves. -/
def State.loadElem (s : State) (size : Nat) (g : Loading) (q : Elem × Place) : Loading :=
  let t := g.state
  let here (addr : Nat) : Loading :=
    let v := leNat (s.readOwn s.core s.frame addr size)
    { g with state := t.served (s.ctxOf s.core) q.1.obj.oid q.1.off addr, acc := setLane g.acc q.1.lane (BitVec.ofNat 32 v) }
  let wait (p : State × Nat) : Loading := { g with state := p.1, rids := g.rids ++ [(p.2, q.1.lane)] }
  match q.2 with
  | .here addr _ => here addr
  | .migrating addr => here addr
  | .remote h oid => wait (t.request s.core s.frame h oid q.1.obj.oid q.1.off (.load size) .vload true false)
  | .host pasid va =>
    let rid := t.nextId
    wait (({ t with nextId := rid + 1 }).post (.remoteValue s.core s.frame rid
      (.word (BitVec.ofNat 64 (t.readNat (hostAddr pasid va) size)))), rid)
  | .bus a =>
    let rid := t.nextId
    wait (({ t with nextId := rid + 1 }).emit (.busRead rid a size), rid)
  | _ => g

/-- The memory of a place is sound. -/
def State.placeSound (s : State) (size : Nat) : Place → Res Unit
  | .here a _ => s.sound a size
  | .migrating a => s.sound a size
  | _ => .ok ()

/-- VLD and VGATH. -/
def State.vload (s : State) (c : Cap) (size : Nat) (k : BitVec 3) (d : BitVec 5) (off : Nat → Int) : Res State := do
  let es ← s.elems c rightR size (s.cur.guarded k) off
  let ps ← es.mapM (fun e => do
    let p ← s.locate s.core e.obj e.off .vload false
    .ok (e, p))
  let _ ← es.mapM (fun e => s.watermark s.core e.obj.oid e.off (e.off + size))
  let _ ← ps.mapM (fun q => s.placeSound size q.2)
  let g := ps.foldl (s.loadElem size) ⟨s, s.cur.vreg d, []⟩
  if g.rids.isEmpty then .ok (g.state.writeV d g.acc 4)
  else .ok (g.state.parkFrame s.core s.frame (.remote 4 (g.rids.map (·.1)) (.lanes d g.acc g.rids size)))

/-- VST and VSCAT. -/
def State.vstore (s : State) (c : Cap) (size : Nat) (k : BitVec 3) (d : BitVec 5) (off : Nat → Int) : Res State := do
  let es ← s.elems c rightW size (s.cur.guarded k) off
  let x := s.cur.vreg d
  let acts ← (es.filter (fun e => !e.obj.pageReg)).mapM (fun e =>
    s.storeAct s.core s.frame c e.obj e.off (leBytes size ((lane x e.lane).toNat % 2 ^ (8 * size))) none .vstore)
  s.room s.core s.frame acts
  .ok ((s.skip 4).commitStores s.core s.frame acts .vstore)

/-- The offsets of VLD and VST: contiguous, or by a signed stride (R436). -/
def strided (fr : Frame) (size : Nat) (g : BitVec 5) (l : Nat) : Int :=
  if g = 0 then (l * size : Nat) else l * (fr.gpr g).toInt

/-- The offsets of VGATH and VSCAT (R436). -/
def indexed (fr : Frame) (size : Nat) (i : BitVec 5) (l : Nat) : Int := ((lane (fr.vreg i) l).toNat * size : Nat)

/-- R437. -/
def execVld (k : BitVec 3) (z : BitVec 2) (g : BitVec 5) (c : BitVec 4) (d : BitVec 5) (s : State) :
    Host.Outcome State Fault Refusal :=
  s.finish (s.vload (s.cur.cap c) (sizeOf2 z) k d (strided s.cur (sizeOf2 z) g))

/-- R437. -/
def execVst (k : BitVec 3) (z : BitVec 2) (g : BitVec 5) (c : BitVec 4) (d : BitVec 5) (s : State) :
    Host.Outcome State Fault Refusal :=
  s.finish (s.vstore (s.cur.cap c) (sizeOf2 z) k d (strided s.cur (sizeOf2 z) g))

/-- R437. -/
def execVgath (k : BitVec 3) (z : BitVec 2) (i : BitVec 5) (c : BitVec 4) (d : BitVec 5) (s : State) :
    Host.Outcome State Fault Refusal :=
  s.finish (s.vload (s.cur.cap c) (sizeOf2 z) k d (indexed s.cur (sizeOf2 z) i))

/-- R437. -/
def execVscat (k : BitVec 3) (z : BitVec 2) (i : BitVec 5) (c : BitVec 4) (d : BitVec 5) (s : State) :
    Host.Outcome State Fault Refusal :=
  s.finish (s.vstore (s.cur.cap c) (sizeOf2 z) k d (indexed s.cur (sizeOf2 z) i))

end Sys2Proof.Machine
end

