-- ==== Sys2Proof/Machine/Matrix.lean ====
section
/-! DEFINITION. The matrix engine (R177 to R191, R385 to R390): format contexts, jobs and the exact order of their
roundings, drains, zeroing, lut8 tables, and the engine's own events. -/
namespace Sys2Proof.Machine

/-! ### Format contexts (R178, R179) -/

def ctxA (w : Word) : Nat := bitsOf w.toNat 3 0
def ctxB (w : Word) : Nat := bitsOf w.toNat 7 4
def ctxOut (w : Word) : Nat := bitsOf w.toNat 11 8
def ctxSat (w : Word) : Bool := w.getLsbD 12
def ctxLut (w : Word) : Nat := bitsOf w.toNat 13 13

/-- The pairs of element codes of R179. -/
def pairOk (a b : Nat) : Bool :=
  decide ((a = 0 ∧ b = 0) ∨ (1 ≤ a ∧ a ≤ 4 ∧ 1 ≤ b ∧ b ≤ 4) ∨ (a = 5 ∧ b = 5) ∨ (a = 6 ∧ b = 6) ∨
    (7 ≤ a ∧ a ≤ 8 ∧ 7 ≤ b ∧ b ≤ 8) ∨ (a = 9 ∧ b = 9))

/-- The first context word is one that MMCTX takes (R179). -/
def ctxOk (w : Word) : Bool :=
  decide (w >>> 14 = 0) && pairOk (ctxA w) (ctxB w) && decide (1 ≤ ctxOut w ∧ ctxOut w ≤ 6) &&
    (decide (ctxOut w ≠ 6) || decide (7 ≤ ctxA w ∧ ctxA w ≤ 8))

/-- Block bytes of an element code (R179). -/
def blockBytes (c : Nat) : Nat := if c = 0 then 16 else if c = 5 ∨ c = 6 then 64 else 32

/-- Codes with a scale in every block (R179). -/
def isScaled (c : Nat) : Bool := decide (c = 0 ∨ c = 3 ∨ c = 4)

/-- Blocks of a row of K elements (R180). -/
def blocksOf (k : Nat) : Nat := (k + 31) / 32

/-- Word i from g[GM] on. -/
def Frame.group (fr : Frame) (m : BitVec 5) (i : Nat) : Word := fr.gpr (m + BitVec.ofNat 5 i)

/-- R385. -/
def execMmctx (m : BitVec 5) (s : State) : Host.Outcome State Fault Refusal :=
  let w := s.cur.group m 0
  s.finish (
    if ctxOk w then .ok (s.setCur ({ s.cur with fctx0 := w, fctx1 := s.cur.group m 1 }.advance 4))
    else .error (.trap ILLEGAL w))

/-! ### Jobs -/

/-- The cores of a core's cluster. -/
def siblings (core : Nat) : List Nat := (List.range 8).map (fun i => 8 * clusterOf core + i)

/-- The job queue of the cluster has no entry for this frame (R177). -/
def State.jobsFull (s : State) : Bool :=
  decide (32 ≤ (s.clusterAt (clusterOf s.core)).jobs.length + s.reservedPlaces (siblings s.core) true)

/-- The accepted, unfinished jobs of a core. -/
def State.jobsOf (s : State) (core : Nat) : List Job :=
  let c := s.clusterAt (clusterOf core)
  (c.running.toList ++ c.jobs).filter (fun j => decide (j.core = core))

def jobTile (j : Job) : Nat := bitsOf j.w.toNat 1 0

/-- A job that refers to a lut8 bank (R184). -/
def usesBank (b : Nat) (j : Job) : Bool := decide (ctxA j.fctx0 = 9 ∧ ctxLut j.fctx0 = b)

/-- An MMLDT of the core is at work on a bank (R386). -/
def State.bankLoading (s : State) (core b : Nat) : Bool :=
  (List.range 11).any (fun f =>
    let fr := s.frameAt core f
    decide (fr.wait = some (.bank b)) ||
    (match fr.park with
     | some (.remote _ _ (.table x _ _)) => decide (x = b)
     | _ => false))

/-- BADSHAPE of R183. -/
def badShape (m n k : Word) (w : Word) : Bool :=
  decide (m = 0 ∨ 128 < m.toNat ∨ n = 0 ∨ 128 < n.toNat ∨ k = 0 ∨ 65535 < k.toNat ∨
    bitsOf w.toNat 63 31 ≠ 0 ∨ bitsOf w.toNat 23 23 ≠ 0 ∨ bitsOf w.toNat 15 9 ≠ 0 ∨ bitsOf w.toNat 7 2 ≠ 0 ∨
    128 < bitsOf w.toNat 22 16 + m.toNat ∨ 128 < bitsOf w.toNat 30 24 + n.toNat)

/-- The operands of a job that are read: capability and span (R180, R183). -/
def Job.operands (j : Job) : List (Cap × Nat) :=
  let nb := blocksOf j.k
  [(j.capA, j.m * nb * blockBytes (ctxA j.fctx0)), (j.capB, j.n * nb * blockBytes (ctxB j.fctx0))] ++
    (if isScaled (ctxA j.fctx0) then [(j.capAs, j.m * nb)] else []) ++
    (if isScaled (ctxB j.fctx0) then [(j.capBs, j.n * nb)] else [])

/-- R183, R386. -/
def execMmjob (m : BitVec 5) (b a : BitVec 4) (d : BitVec 5) (s : State) : Host.Outcome State Fault Refusal :=
  let fr := s.cur
  let w := fr.group m 3
  let c := s.curCore
  let cl := clusterOf s.core
  let id := c.nextJob.toNat
  let job : Job := ⟨id, s.nextId, s.core, s.ctxOf s.core, fr.fctx0, (fr.group m 0).toNat, (fr.group m 1).toNat,
    (fr.group m 2).toNat, w, fr.cap a, fr.cap (a + 1), fr.cap b, fr.cap (b + 1), (s.clusterAt cl).matBank, false,
    Intake.empty, []⟩
  s.finish (
    if badShape (fr.group m 0) (fr.group m 1) (fr.group m 2) w then .ok (s.status d (-1) 4)
    else do
      let scopes ← job.operands.mapM (fun q => do
        let (o, off) ← s.access s.core q.1 0 q.2 1 rightR [1] .engine false
        .ok (s.operandScope s.core o off q.2))
      if usesBank (ctxLut fr.fctx0) job && s.bankLoading s.core (ctxLut fr.fctx0)
      then .error (.wait (.loading (ctxLut fr.fctx0))) else .ok ()
      if s.jobsFull then .error (.park (.engine true s.steps)) else .ok ()
      s.release s.core s.frame (scopes.foldl max 4) true
      let s := { s with nextId := s.nextId + 1 }
      let s := s.setCluster cl { s.clusterAt cl with jobs := (s.clusterAt cl).jobs ++ [job] }
      let s := s.setCurCore { s.curCore with
        nextJob := s.curCore.nextJob + 1, records := put s.curCore.records id none }
      .ok (s.unpark.status d id 4))

/-- R191, R387. -/
def execMmwait (d : BitVec 5) (s : State) : Host.Outcome State Fault Refusal :=
  let n := (s.cur.gpr d).toNat
  let c := s.curCore
  s.finish (
    match (if n ≤ 255 then look c.records n else none) with
    | none => .ok (s.status d (-1) 4)
    | some (some v) => .ok ((s.setCurCore { c with records := drop c.records n }).status d v 4)
    | some none => .error (.park (.job d n)))

/-! ### Tiles -/

/-- The key of a tile word. -/
def tileKey (t row col : Nat) : Nat := (t * 128 + row) * 128 + col

def Core.tileWord (c : Core) (t row col : Nat) : Lane := (look c.tiles (tileKey t row col)).getD 0

/-- The uid below which jobs count as accepted before a wait (R185): the one the wait began with. -/
def State.tileBound (s : State) (t : Nat) : Nat :=
  match s.cur.wait with
  | some (.tile u upto) => if u = t then upto else s.nextId
  | _ => s.nextId

/-- Every job of a core on a tile that was accepted before a bound has ended. -/
def State.tileQuiet (s : State) (core t upto : Nat) : Bool :=
  (s.jobsOf core).all (fun j => decide (jobTile j ≠ t ∨ upto ≤ j.uid))

/-- The wait of R185. -/
def State.tileWait (s : State) (t : Nat) : Res Unit :=
  if s.tileQuiet s.core t (s.tileBound t) then .ok () else .error (.wait (.tile t (s.tileBound t)))

/-- The frame's wait in place is over. -/
def State.waitOver (s : State) : State := s.setCur { s.cur with wait := none }

/-- R389. -/
def execMmzero (m : BitVec 5) (s : State) : Host.Outcome State Fault Refusal :=
  let w := s.cur.gpr m
  let t := bitsOf w.toNat 1 0
  s.finish (
    if w >>> 2 ≠ 0 then .error (.trap ILLEGAL w)
    else do
      s.tileWait t
      let c := s.curCore
      .ok ((s.setCurCore { c with tiles := c.tiles.filter (fun p => decide (p.1 / 16384 ≠ t)) }).waitOver.skip 4))

/-! ### Drains (R190, R390) -/

/-- Output formats by code (R179); 6 is s32. -/
def outFmt (f : Nat) : Fmt :=
  if f = 1 then f32 else if f = 2 then bf16 else if f = 3 then f16 else if f = 4 then e4m3 else e5m2

def outBytes (f : Nat) : Nat := if f = 1 ∨ f = 6 then 4 else if f = 2 ∨ f = 3 then 2 else 1

/-- One tile word drained: one exact product, one rounding (R190). -/
def drainWord (c0 c1 : Word) (f : Nat) (t : Lane) : Nat :=
  if f = 6 then t.toNat
  else
    let x := if 7 ≤ ctxA c0 ∧ ctxA c0 ≤ 8 then fpInt t.toInt else fpOf t
    let p := (x.mul (fpOf (c1.extractLsb' 0 32))).mul (fpOf (c1.extractLsb' 32 32))
    (outFmt f).round .rne (ctxSat c0) p

/-- A drain register that breaks the limits of R190. -/
def drainBad (w : Nat) : Bool :=
  decide (bitsOf w 63 44 ≠ 0 ∨ 7 ≤ bitsOf w 43 40 ∨ bitsOf w 39 39 ≠ 0 ∨ bitsOf w 31 31 ≠ 0 ∨ bitsOf w 23 23 ≠ 0 ∨
    bitsOf w 15 15 ≠ 0 ∨ bitsOf w 7 2 ≠ 0 ∨ 128 < bitsOf w 14 8 + bitsOf w 22 16 + 1 ∨
    128 < bitsOf w 30 24 + bitsOf w 38 32 + 1)

/-- A place whose stores enter the buffer. -/
def Place.near : Place → Bool
  | .here _ _ => true
  | .migrating _ => true
  | _ => false

/-- R190, R390: the layout check is the one of the frame's own stores (log 24). -/
def execMmdrain (m : BitVec 5) (a : BitVec 4) (s : State) : Host.Outcome State Fault Refusal :=
  let g := s.cur.gpr m
  let w := g.toNat
  let t := bitsOf w 1 0
  let c := s.cur.cap a
  let f := if bitsOf w 43 40 ≠ 0 then bitsOf w 43 40 else ctxOut s.cur.fctx0
  let rows := bitsOf w 22 16 + 1
  let cols := bitsOf w 38 32 + 1
  let n := outBytes f
  s.finish (
    if drainBad w then .error (.trap ILLEGAL g)
    else do
      let (o, off) ← s.access s.core c 0 (rows * cols * n) n rightW [1] .frame false
      s.layoutCheck s.core s.frame c o
      let cells := (List.range rows).flatMap (fun i => (List.range cols).map (fun j => (i, j)))
      let ps ← cells.mapM (fun q => s.locate s.core o (off + (q.1 * cols + q.2) * n) .store true)
      if s.fenced s.core s.frame && ps.any (fun p => !p.near) then .error (.wait (.release 0)) else .ok ()
      s.tileWait t
      let acts ← (if o.pageReg then [] else cells).mapM (fun q =>
        s.storeAct s.core s.frame c o (off + (q.1 * cols + q.2) * n)
          (leBytes n (drainWord s.cur.fctx0 s.cur.fctx1 f
            (s.curCore.tileWord t (bitsOf w 14 8 + q.1) (bitsOf w 30 24 + q.2)))) none .store)
      .ok ((s.waitOver.skip 4).commitStores s.core s.frame acts .store))

/-! ### lut8 tables (R174, R184, R388) -/

/-- An f32 value as an E8M10 entry (R174). -/
def lutOf (x : Lane) : BitVec 19 :=
  match fpOf x with
  | .num neg m e => BitVec.ofNat 19 (e8m10.round .rne true (.num neg m e))
  | _ => 0x3FE00

/-- A bank takes a table, at one instant. -/
def Core.setBank (c : Core) (b : Nat) (t : List (Nat × Lane)) : Core :=
  { c with lut := t.foldl (fun m q => put m (256 * b + q.1) (lutOf q.2)) c.lut }

/-- One table word is read from its place, or its request leaves; the state, the words, the requests. -/
def State.tableWord (s : State) (o : Desc) (r : State × List (Nat × Lane) × List (Nat × Nat)) (q : Nat × Nat × Place) :
    State × List (Nat × Lane) × List (Nat × Nat) :=
  let t := r.1
  let here (addr : Nat) : State × List (Nat × Lane) × List (Nat × Nat) :=
    (t.served (s.ctxOf s.core) o.oid q.2.1 addr,
      put r.2.1 q.1 (BitVec.ofNat 32 (leNat (s.readOwn s.core s.frame addr 4))), r.2.2)
  match q.2.2 with
  | .here addr _ => here addr
  | .migrating addr => here addr
  | .remote h oid =>
    let p := t.request s.core s.frame h oid o.oid q.2.1 (.load 4) .load true false
    (p.1, r.2.1, put r.2.2 p.2 q.1)
  | .host pasid va =>
    let rid := t.nextId
    (({ t with nextId := rid + 1 }).post (.remoteValue s.core s.frame rid
      (.word (BitVec.ofNat 64 (t.readNat (hostAddr pasid va) 4)))), r.2.1, put r.2.2 rid q.1)
  | .bus a =>
    let rid := t.nextId
    (({ t with nextId := rid + 1 }).emit (.busRead rid a 4), r.2.1, put r.2.2 rid q.1)
  | _ => (t, r.2.1, r.2.2)

/-- R388: a table whose words have all arrived is written; else the words are read, and remote ones awaited. -/
def execMmldt (m : BitVec 5) (a : BitVec 4) (s : State) : Host.Outcome State Fault Refusal :=
  let w := s.cur.gpr m
  let b := bitsOf w.toNat 0 0
  let off := bitsOf w.toNat 63 32
  let c := s.cur.cap a
  s.finish (
    if bitsOf w.toNat 31 1 ≠ 0 ∨ off % 4 ≠ 0 then .error (.trap ILLEGAL w)
    else
      match s.cur.park with
      | some (.remote _ [] (.table _ got _)) =>
        .ok ((s.setCurCore (s.curCore.setBank b got)).unpark.skip 4)
      | _ => do
        let (o, base) ← s.access s.core c off 1024 4 rightR [1] .frame false
        s.layoutCheck s.core s.frame c o
        if (s.jobsOf s.core).any (usesBank b) then .error (.wait (.bank b)) else .ok ()
        s.watermark s.core o.oid base (base + 1024)
        let ps ← (List.range 256).mapM (fun i => do
          let p ← s.locate s.core o (base + 4 * i) .load false
          s.placeSound 4 p
          .ok (i, base + 4 * i, p))
        if o.pageReg then .error (.trap CAPKIND 0) else .ok ()
        let r := ps.foldl (s.tableWord o) (s, [], [])
        if r.2.2.isEmpty then .ok ((r.1.setCurCore (r.1.curCore.setBank b r.2.1)).skip 4)
        else .ok (r.1.parkFrame s.core s.frame (.remote 4 (r.2.2.map (·.1)) (.table b r.2.1 r.2.2))))

/-! ### The exact order of a job (R186 to R189) -/

/-- The element formats by code (R179); 7 and 8 are integers. -/
def elemFmt (c : Nat) : Fmt :=
  if c = 0 then e2m1 else if c = 1 ∨ c = 3 then e4m3 else if c = 2 ∨ c = 4 then e5m2
  else if c = 5 then bf16 else f16

/-- The bits of element k of a row with nb blocks (R167, R180). -/
def elemBits (c nb row k : Nat) (bs : Array Byte) : Nat :=
  let at_ (i : Nat) : Nat := (bs.getD ((row * nb + k / 32) * blockBytes c + i) 0).toNat
  let p := k % 32
  if c = 0 then at_ (p / 2) / 16 ^ (p % 2) % 16
  else if c = 5 ∨ c = 6 then at_ (2 * p) + 256 * at_ (2 * p + 1)
  else at_ p

/-- An element as an exact value; lut8 codes go through the bank (R189). -/
def elemValue (core : Core) (bank c bits : Nat) : Fp :=
  if c = 9 then core.lutEntry bank bits
  else if c = 7 then fpInt (BitVec.ofNat 8 bits).toInt
  else if c = 8 then fpInt bits
  else (elemFmt c).value bits

/-- The guard exponent of a pair of element formats (R186). -/
def guardExp (a b : Nat) : Int :=
  let wide (c : Nat) : Nat := if c = 2 ∨ c = 4 then 1 else 0
  if a = 0 then -26
  else match wide a + wide b with
    | 0 => -42
    | 1 => -49
    | _ => -47

/-- The sum of the exact products of a block. -/
def blockSum (xs ys : List Fp) : Fp := ((xs.zip ys).map (fun q => q.1.mul q.2)).foldl Fp.add (.num false 0 0)

/-- The magnitude m 2^e on the grid 2^q, truncated toward zero. -/
def onGrid (m : Nat) (e q : Int) : Nat := if q ≤ e then m * 2 ^ (e - q).toNat else m / 2 ^ (q - e).toNat

/-- The exponent of the grid (R186 step 3): from the block exponents for the scaled classes and FP8, else from the
largest block sum. None when every sum is 0 and no block exponent counts. -/
def gridExp (a b : Nat) (blocks : List (Fp × Int)) : Option Int :=
  if a ≤ 4 then
    (blocks.map (·.2)).foldl (fun (m : Option Int) x => some (match m with | none => x | some y => max x y)) none
      |>.map (· + guardExp a b)
  else
    (blocks.filterMap (fun q => match q.1 with
      | .num _ m e => if m = 0 then none else some ((m.log2 : Int) + e)
      | _ => none)).foldl (fun (m : Option Int) x => some (match m with | none => x | some y => max x y)) none
      |>.map (· - 71)

/-- The first rounding (R186 steps 3 and 4, R188). nanScale tells that a block scale is NaN. -/
def firstRounding (a b : Nat) (blocks : List (Fp × Int)) (nanScale : Bool) : Lane :=
  if nanScale then lane32 .nan
  else
    match (blocks.map (·.1)).foldl Fp.add (.num false 0 0) with
    | .nan => lane32 .nan
    | .inf n => lane32 (.inf n)
    | .num _ _ _ =>
      match gridExp a b blocks with
      | none => 0
      | some q =>
        let sum : Int := (blocks.map (fun p => match p.1 with
          | .num neg m e => if neg then -((onGrid m (e + p.2) q : Nat) : Int) else ((onGrid m (e + p.2) q : Nat) : Int)
          | _ => 0)).sum
        lane32 (.num (decide (sum < 0)) sum.natAbs q)

/-- The bytes of a job's operands. -/
structure Operands where
  a  : Array Byte
  b  : Array Byte
  as : Array Byte
  bs : Array Byte

/-- One output of a job: the tile word after it (R186 to R189). -/
def outputWord (core : Core) (j : Job) (x : Operands) (row col : Nat) (old : Lane) : Lane :=
  let a := ctxA j.fctx0
  let b := ctxB j.fctx0
  let nb := blocksOf j.k
  let bank := ctxLut j.fctx0
  let old := if j.w.getLsbD 8 then 0 else old
  let elems (blk : Nat) : List Nat := (List.range 32).filterMap (fun p => if 32 * blk + p < j.k then some (32 * blk + p) else none)
  let xa (blk : Nat) : List Fp := (elems blk).map (fun k => elemValue core bank a (elemBits a nb row k x.a))
  let xb (blk : Nat) : List Fp := (elems blk).map (fun k => elemValue core bank b (elemBits b nb col k x.b))
  if 7 ≤ a ∧ a ≤ 8 then
    let ia (blk : Nat) : Int := ((elems blk).map (fun k =>
      let p := elemBits a nb row k x.a
      let q := elemBits b nb col k x.b
      (if a = 7 then (BitVec.ofNat 8 p).toInt else (p : Int)) * (if b = 7 then (BitVec.ofNat 8 q).toInt else (q : Int)))).sum
    old + BitVec.ofInt 32 ((List.range nb).map ia).sum
  else
    let sa (blk : Nat) : Nat := if isScaled a then (x.as.getD (row * nb + blk) 0).toNat else 127
    let sb (blk : Nat) : Nat := if isScaled b then (x.bs.getD (col * nb + blk) 0).toNat else 127
    let blocks := (List.range nb).map (fun blk => (blockSum (xa blk) (xb blk), ((sa blk : Int) - 127) + ((sb blk : Int) - 127)))
    let nanScale := (List.range nb).any (fun blk => decide (sa blk = 255 ∨ sb blk = 255))
    addF old (firstRounding a b blocks nanScale)

/-- The 32 × 32 output blocks of a job (R186), by number, and the outputs of one. -/
def Job.blockCols (j : Job) : Nat := (j.n + 31) / 32

def Job.blockList (j : Job) : List Nat := List.range ((j.m + 31) / 32 * j.blockCols)

def Job.cells (j : Job) (b : Nat) : List (Nat × Nat) :=
  let r := b / j.blockCols * 32
  let c := b % j.blockCols * 32
  (List.range (min 32 (j.m - r))).flatMap (fun i => (List.range (min 32 (j.n - c))).map (fun k => (r + i, c + k)))

/-- Outputs of a job are added to its core's tile. -/
def Core.applyCells (c : Core) (j : Job) (x : Operands) (cells : List (Nat × Nat)) : Core :=
  let t := jobTile j
  let row0 := bitsOf j.w.toNat 22 16
  let col0 := bitsOf j.w.toNat 30 24
  { c with tiles := cells.foldl (fun m q =>
      put m (tileKey t (row0 + q.1) (col0 + q.2))
        (outputWord c j x q.1 q.2 (c.tileWord t (row0 + q.1) (col0 + q.2)))) c.tiles }

/-! ### The engine at work -/

/-- R184. -/
def execMatrixBankSelect (cluster : Nat) (bank : Bool) (s : State) : Host.Outcome State Fault Refusal :=
  .next (s.setCluster cluster { s.clusterAt cluster with matBank := bank })

/-- The job that the engine takes next (R177). -/
def Cluster.nextJob (c : Cluster) : Option Job :=
  ((List.range 8).map (fun i => (c.lastCore + 1 + i) % 8)).findSome? (fun n =>
    c.jobs.find? (fun j => decide (j.core % 8 = n)))

/-- R177: an idle engine takes its next job, and a freed entry goes to the frame that waits longest. -/
def execMatrixJobStart (cluster : Nat) (s : State) : Host.Outcome State Fault Refusal :=
  let c := s.clusterAt cluster
  match c.running, c.nextJob with
  | none, some j =>
    let s := s.setCluster cluster { c with
      running := some j, lastCore := j.core % 8, jobs := c.jobs.filter (fun i => decide (i.uid ≠ j.uid)) }
    .next (s.freePlace (siblings (8 * cluster)) true)
  | _, _ => .next s

def matrixRecord (cl uid : Nat) : Held → Bool
  | .matrix c _ i _ _ => decide (c = cl ∧ i = uid)
  | _ => false

/-- A job ends with a status: its record, and the frames that wait for it (R191, R387). -/
def State.endJob (s : State) (cl : Nat) (j : Job) (st : Int) : State :=
  let s := (s.setCluster cl { s.clusterAt cl with running := none }).dropRecords (matrixRecord cl j.uid)
  let waiting := (List.range 11).filterMap (fun f => match (s.frameAt j.core f).park with
    | some (.job d id) => if id = j.id then some (f, d) else none
    | _ => none)
  let c := s.coreAt j.core
  let s := s.setCore j.core { c with
    records := if waiting.isEmpty then put c.records j.id (some st) else drop c.records j.id }
  waiting.foldl (fun s q => s.wake j.core q.1 (fun fr => (fr.setGpr q.2 (Sys2Proof.status st)).advance 4)) s

/-- The operands of a job for the engine of a cluster. -/
def Job.reads (cl : Nat) (j : Job) : List Operand :=
  j.operands.zipIdx.map (fun q => ⟨j.core, j.ctx, 5, cl / 128, q.2, q.1.1, q.1.2, fun g => .matrix cl j.core j.uid q.2 g⟩)

/-- A frame whose drain or zeroing waits for the jobs accepted before it: later jobs of the tile take effect after it
(R185). -/
def State.tileClaimed (s : State) (j : Job) : Bool :=
  (List.range 11).any (fun f => match (s.frameAt j.core f).wait with
    | some (.tile t upto) => decide (t = jobTile j ∧ upto ≤ j.uid)
    | _ => false)

/-- The operands by their places, as far as they have been read. -/
def Job.operand (cl : Nat) (j : Job) : Operands :=
  let bs := (j.reads cl).map (fun o => (j.intake.bytes o.part (cuts o.cap.base.toNat o.len)).1)
  let sa := isScaled (ctxA j.fctx0)
  ⟨(bs.getD 0 []).toArray, (bs.getD 1 []).toArray, if sa then (bs.getD 2 []).toArray else #[],
    (bs.getD (if sa then 3 else 2) []).toArray⟩

/-- The bytes of an operand that rows lo to hi - 1 of n take have been read. -/
def Job.rowsRead (j : Job) (o : Operand) (n lo hi : Nat) : Bool :=
  let w := o.len / n
  let a := o.cap.base.toNat
  (cuts a o.len).all (fun q => decide (q.1 + q.2 ≤ a + lo * w ∨ a + hi * w ≤ q.1) || (j.intake.at_ o.part q.1).isSome)

/-- What an output block takes of the operands has been read: A and its scales by rows, B and its scales by columns. -/
def Job.blockReady (cl : Nat) (j : Job) (b : Nat) : Bool :=
  let r := b / j.blockCols * 32
  let c := b % j.blockCols * 32
  let sa := isScaled (ctxA j.fctx0)
  (j.reads cl).all (fun o =>
    if o.part = 0 ∨ (o.part = 2 ∧ sa) then j.rowsRead o j.m r (min j.m (r + 32)) else j.rowsRead o j.n c (min j.n (c + 32)))

/-- The running job of a cluster changes. -/
def State.onJob (s : State) (cl uid : Nat) (g : Job → Job) : State :=
  let c := s.clusterAt cl
  s.setCluster cl { c with running := c.running.map (fun j => if j.uid = uid then g j else j) }

/-- The engine reads what it can of the operands of its job (R287); a job whose operand is gone or bad is aborted (R191, R286). -/
def State.readOperands (s : State) (cl : Nat) (j : Job) : State × Option Job :=
  match s.fetchOperands (j.reads cl) j.intake with
  | .ok (t, x) => (t.onJob cl j.uid (fun j => { j with intake := x }), some { j with intake := x })
  | .error (.bad a) => ((s.endJob cl j (-2)).memoryError j.core a, none)
  | .error _ => (s.endJob cl j (-2), none)

/-- Output blocks are added to the tile, once each. -/
def State.addBlocks (s : State) (cl : Nat) (j : Job) (bs : List Nat) : State :=
  let new := bs.filter (fun b => !j.blocks.contains b)
  (s.setCore j.core ((s.coreAt j.core).applyCells j (j.operand cl) (new.flatMap j.cells))).onJob cl j.uid
    (fun j => { j with blocks := j.blocks ++ new })

/-- R186 to R189, R191: the running job ends once its operands have been read. A job with an earlier drain of its tile goes on
running; one that is aborted keeps the blocks that it has added. -/
def execMatrixJobEnd (cluster : Nat) (s : State) : Host.Outcome State Fault Refusal :=
  match (s.clusterAt cluster).running with
  | none => .next s
  | some j =>
    if j.failed then .next (s.endJob cluster j (-2))
    else if s.tileClaimed j then .next s
    else match s.readOperands cluster j with
      | (t, none) => .next t
      | (t, some j) =>
        .next (if j.intake.complete (j.reads cluster) then (t.addBlocks cluster j j.blockList).endJob cluster j 0 else t)

/-- The engine reads for its job ahead of the end. -/
def execMatrixRead (cluster : Nat) (s : State) : Host.Outcome State Fault Refusal :=
  match (s.clusterAt cluster).running with
  | some j => .next (if j.failed then s else (s.readOperands cluster j).1)
  | none => .next s

/-- The engine adds one output block whose operands have been read (R186, R191). -/
def execMatrixBlock (cluster : Nat) (s : State) : Host.Outcome State Fault Refusal :=
  match (s.clusterAt cluster).running with
  | some j =>
    if j.failed || s.tileClaimed j then .next s
    else match j.blockList.find? (fun b => !j.blocks.contains b && j.blockReady cluster b) with
      | some b => .next (s.addBlocks cluster j [b])
      | none => .next s
  | none => .next s

end Sys2Proof.Machine
end

