-- ==== Sys2Proof/Machine/Collective.lean ====
section
/-! DEFINITION. Address groups and collective operations (R225 to R230, R238, R324, R325, R377, R378): AGSET, MCRED, MCST,
the accesses at the members, the answers, and the end of a collective. -/
namespace Sys2Proof.Machine

/-! ### AGSET (R226, R324) -/

/-- The group is assigned to the partition of a core (R225). -/
def State.assigned (s : State) (n g : Nat) : Bool := (s.ctxAt (s.ctxOf n)).policy.agmask.getLsbD g

/-- The members that a bitmap of 128 bytes names, in ascending order. -/
def membersOf (w : List (Nat × Word)) : List Nat :=
  (List.range 1024).filter (fun p => ((look w (p / 64)).getD 0).getLsbD (p % 64))

/-- A collective of the device on a group is in flight (R226, R378). -/
def State.groupBusy (s : State) (g : Nat) : Bool := s.colls.any (fun p => decide (p.2.group = g))

/-- AGSET once MEMBERS has been read. The words read are kept while it waits. -/
def State.setMembers (s : State) (g : Nat) (c : Cap) (d : BitVec 5) (got : List (Nat × Word)) : State :=
  let k := s.ctxOf s.core
  if s.groupBusy g then
    (s.setCur { s.cur with park := some (.remote 4 [] (.members d g got [])) }).waitHere s.core s.frame (.group g)
  else
    let s := s.unpark
    let ms := membersOf got
    if ms.isEmpty then s.status d (-1) 4
    else if ms.any (fun p => decide (p ≠ s.pos) && !(s.ctxAt k).policy.peers.contains p) then s.status d (-2) 4
    else ({ s with agroups := put s.agroups g ⟨ms, c, k⟩ } : State).status d ms.length 4

/-- One dword of MEMBERS is read from its place, or its request leaves; the state, the words, the requests. -/
def State.memberWord (s : State) (o : Desc) (r : State × List (Nat × Word) × List (Nat × Nat)) (q : Nat × Nat × Place) :
    State × List (Nat × Word) × List (Nat × Nat) :=
  let t := r.1
  let here (addr : Nat) : State × List (Nat × Word) × List (Nat × Nat) :=
    (t.served (s.ctxOf s.core) o.oid q.2.1 addr,
      put r.2.1 q.1 (BitVec.ofNat 64 (leNat (s.readOwn s.core s.frame addr 8))), r.2.2)
  match q.2.2 with
  | .here addr _ => here addr
  | .migrating addr => here addr
  | .remote h oid =>
    let p := t.request s.core s.frame h oid o.oid q.2.1 (.load 8) .load true false
    (p.1, r.2.1, put r.2.2 p.2 q.1)
  | .host pasid va =>
    let rid := t.nextId
    (({ t with nextId := rid + 1 }).post (.remoteValue s.core s.frame rid
      (.word (BitVec.ofNat 64 (t.readNat (hostAddr pasid va) 8)))), r.2.1, put r.2.2 rid q.1)
  | .bus a =>
    let rid := t.nextId
    (({ t with nextId := rid + 1 }).emit (.busRead rid a 8), r.2.1, put r.2.2 rid q.1)
  | _ => (t, r.2.1, r.2.2)

/-- R324. -/
def execAgset (g : BitVec 6) (c : BitVec 4) (d : BitVec 5) (s : State) : Host.Outcome State Fault Refusal :=
  let w := s.cur.cap c
  s.finish (
    if !s.assigned s.core g.toNat then .error (.trap PRIV 0)
    else
      match s.cur.park with
      | some (.remote _ [] (.members _ _ got _)) => .ok (s.setMembers g.toNat w d got)
      | _ => do
        let (o, base) ← s.access s.core w 0 272 8 (rightR ||| rightW) [1] .frame false
        s.layoutCheck s.core s.frame w o
        s.watermark s.core o.oid base (base + 128)
        let ps ← (List.range 16).mapM (fun i => do
          let p ← s.locate s.core o (base + 8 * i) .load false
          s.placeSound 8 p
          .ok (i, base + 8 * i, p))
        if o.pageReg then .error (.trap CAPKIND 0) else .ok ()
        let r := ps.foldl (s.memberWord o) (s, [], [])
        if r.2.2.isEmpty then .ok (r.1.setMembers g.toNat w d r.2.1)
        else .ok (r.1.parkFrame s.core s.frame (.remote 4 (r.2.2.map (·.1)) (.members d g.toNat r.2.1 r.2.2))))

/-! ### The fold (R227) -/

/-- Bytes of an input and of an output element by TY. -/
def inSize (ty : Nat) : Nat := if ty = 1 ∨ ty = 2 then 2 else 4

def outSize (ty : Nat) : Nat := if ty = 2 then 2 else 4

/-- Op of R227 by SUB and TY: f32, or s32. -/
def collOp (sub ty : Nat) : Lane → Lane → Lane :=
  let t : BitVec 3 := if ty = 3 then 1 else 0
  if sub = 0 then laneAdd t else if sub = 1 then laneMax t else laneMin t

/-- An input element as f32 or s32: bf16 is widened exactly. -/
def widen (ty v : Nat) : Lane := if ty = 1 ∨ ty = 2 then BitVec.ofNat 32 (v * 65536) else BitVec.ofNat 32 v

/-- Out of R227: bf16 results are rounded once. -/
def outElem (ty : Nat) (x : Lane) : Nat := if ty = 2 then bf16.round .rne false (fpOf x) else x.toNat

/-- The fold of a list of values; none for no values. -/
def foldOp (op : Lane → Lane → Lane) (xs : List Lane) : Option Lane :=
  xs.foldl (fun m x => match m with
    | none => some x
    | some a => some (op a x)) none

/-- Element e of a member's bytes. -/
def elemAt (ty : Nat) (bs : List Byte) (e : Nat) : Lane := widen ty (leNat ((bs.drop (e * inSize ty)).take (inSize ty)))

/-- One element of the result: first along each row, then over the rows (R227). -/
def collElem (sub ty : Nat) (got : List (Nat × List Byte)) (e : Nat) : Nat :=
  let rows := (List.range 32).filterMap (fun r =>
    foldOp (collOp sub ty) ((got.filter (fun p => decide (p.1 / 32 = r))).map (fun p => elemAt ty p.2 e)))
  outElem ty ((foldOp (collOp sub ty) rows).getD 0)

/-! ### The end of a collective (R227, R238, R378) -/

/-- Every member has answered or is absent. -/
def Coll.complete (c : Coll) : Bool :=
  c.members.all (fun p => c.absent.contains p || c.got.any (fun q => decide (q.1 = p)))

/-- The dwords of the absence record behind MEMBERS: ABSENT, WHEN, NABS and OP (R226). -/
def absenceWords (absent : List Nat) (time sub : Nat) : List (Nat × Nat) :=
  (List.range 16).map (fun i => (128 + 8 * i,
    ((absent.filter (fun p => decide (p / 64 = i))).map (fun p => 2 ^ (p % 64))).sum)) ++
  [(256, time), (264, absent.length + sub * 2 ^ 32)]

/-- A collective whose members have all answered or are absent ends there, at t0 + 5,000 ns at the latest (R238). -/
def Coll.close (c : Coll) (time : Nat) : Coll :=
  if c.complete && c.ended.isNone then { c with ended := some (min time (c.t0 + 5000)) } else c

/-- The members of a collective that have not answered become absent. -/
def Coll.giveUp (c : Coll) (gone : Nat → Bool) : Coll :=
  { c with absent := c.absent ++
      c.members.filter (fun p => gone p && !c.absent.contains p && !c.got.any (fun q => decide (q.1 = p))) }

/-- At t0 + 5,000 ns every member that has not answered is absent (R227, R238). -/
def Coll.timeOut (c : Coll) (time : Nat) : Coll :=
  (if c.t0 + 5000 ≤ time then c.giveUp (fun _ => true) else c).close time

/-- The stores that end a collective: its result, or the absence record. -/
def State.collStores (s : State) (c : Coll) : Res (List StoreAct) :=
  let x := s.ctxAt c.ctx
  let put_ (w : Cap) (q : Nat × List Byte) : Res StoreAct :=
    match s.liveAt x w.oid with
    | none => .error (.trap CAPTAG 0)
    | some d => s.storeAct c.core c.frame w d (w.base.toNat + q.1) q.2 none .store
  if c.absent.isEmpty then
    if c.op = 3 then .ok []
    else
      let n := (((c.got.head?).map (fun p => p.2.length)).getD 0) / inSize c.ty
      ((List.range n).map (fun e => (e * outSize c.ty, leBytes (outSize c.ty) (collElem c.op c.ty c.got e)))).mapM (put_ c.cd)
  else ((absenceWords c.absent (c.ended.getD s.ftime) c.op).map (fun q => (q.1, leBytes 8 q.2))).mapM (put_ c.record)

/-- The frame of a complete collective makes its stores and takes its status. -/
def State.collFinish (s : State) (id : Nat) (c : Coll) : Res State := do
  let acts ← s.collStores c
  let s := s.commitStores c.core c.frame acts .store
  let fr := (s.frameAt c.core c.frame).setGpr c.d (Sys2Proof.status (-(c.absent.length : Int)))
  .ok { s.setFrame c.core c.frame (fr.advance 4) with colls := drop s.colls id }

/-- R227, R238: a complete collective ends; one whose frame waits no more leaves nothing. A page fault of its stores parks
the frame, and a translation that they lack is asked for. -/
def execCollectiveEnd (coll : Nat) (s : State) : Host.Outcome State Fault Refusal :=
  match look s.colls coll with
  | none => .next s
  | some c =>
    if !c.complete then .next s
    else if c.frame = 15 then .next { s with colls := drop s.colls coll }
    else
      let fr := s.frameAt c.core c.frame
      if fr.park ≠ some (.coll coll) then .next s
      else match s.collFinish coll c with
        | .ok t => .next (t.wake c.core c.frame id)
        | .error (.page p) => if fr.saved.isSome then .next s else .next (s.pageFault c.core c.frame p)
        | .error (.trap cause eval) =>
          .next (({ s with colls := drop s.colls coll } : State).wakeTrap c.core c.frame cause eval)
        | .error (.bad a) =>
          .next ((({ s with colls := drop s.colls coll } : State).retireAt a).wakeTrap c.core c.frame MACHINE (machineEval a))
        | .error (.wait (.translation die pasid page write)) => .next (s.askTranslation die pasid page write)
        | .error (.hole a) => .fault (.hole a)
        | .error _ => .next s

/-! ### The issue of MCRED and MCST (R227, R228, R377) -/

/-- Every page of a window finds its frame or its translation before anything is issued. -/
def State.pagesReady (s : State) (n : Nat) (d : Desc) (off len : Nat) (acc : Acc) (write : Bool) : Res Unit := do
  let _ ← (pieces off len).mapM (fun q => s.locate n d q.1 acc write)
  .ok ()

/-- The member accesses leave, and the frame parks until they have ended (R227, R238). -/
def State.issueColl (s : State) (c : Coll) (base len : Nat) (data : Option (List Byte)) : State :=
  let id := s.nextId
  let gone := c.members.filter (fun p => (look s.declared p).isSome || s.unreachable.contains p)
  let oid := if data.isSome then c.cd.oid else c.cs.oid
  let gen := (s.via c.core c.ctx).gen
  let s : State := { s with nextId := id + 1, colls := put s.colls id (({ c with absent := gone } : Coll).close s.ftime) }
  let s := (c.members.filter (fun p => !gone.contains p)).foldl (fun s p =>
    match data with
    | none =>
      if p = s.pos then s.post (.memberRead (s.coreid c.core) id c.ctx oid base len)
      else s.emit (.memberRead gen p (s.coreid c.core) id oid base len)
    | some bs =>
      if p = s.pos then s.post (.memberWrite (s.coreid c.core) id c.ctx oid base bs)
      else s.emit (.memberWrite gen p (s.coreid c.core) id oid base bs)) s
  s.parkFrame c.core c.frame (.coll id)

/-- A complete collective of this frame whose stores met a page fault ends now, with nothing issued again (R227). -/
def State.collAgain (s : State) : Option (Nat × Coll) :=
  s.colls.find? (fun p => decide (p.2.core = s.core ∧ p.2.frame = s.frame) && p.2.complete)

/-- The gates of R377 before any window is looked at: the group, or how the instruction ends. -/
def State.collGroup (s : State) (g : Nat) : Res (Option AGroup) :=
  if !s.assigned s.core g then .error (.trap PRIV 0)
  else match look s.agroups g with
    | some x => if x.ctx = s.ctxOf s.core then .ok (some x) else .ok none
    | none => .ok none

/-- Every page of the absence record, which a collective translates before it issues anything. -/
def State.recordReady (s : State) (n : Nat) (r : Cap) : Res Unit :=
  match s.liveAt (s.ctxAt (s.ctxOf n)) r.oid with
  | some d => s.pagesReady n d r.base.toNat 272 .store true
  | none => .ok ()

/-- MCRED (R227). -/
def State.mcred (s : State) (sub : Nat) (t : BitVec 2) (g : BitVec 6) (cs cd : BitVec 4) (d : BitVec 5) : Res State := do
  let ty := t.toNat
  let a := s.cur.cap cs
  let b := s.cur.cap cd
  let n := a.len.toNat / inSize ty
  match s.collAgain with
  | some q => s.collFinish q.1 q.2
  | none =>
    match ← s.collGroup g.toNat with
    | none => .ok (s.status d (-2048) 4)
    | some x =>
      if a.len = 0 ∨ 65536 < a.len.toNat ∨ a.len.toNat % inSize ty ≠ 0 then .error (.trap ILLEGAL (zext64 a.len)) else .ok ()
      let (os, base) ← s.access s.core a 0 a.len.toNat (inSize ty) rightR [1] .engine false
      let (od, off) ← s.access s.core b 0 (n * outSize ty) (outSize ty) rightW [1] .engine false
      s.layoutCheck s.core s.frame b od
      s.layoutCheck s.core s.frame a os
      s.release s.core s.frame 6 true
      s.pagesReady s.core od off (n * outSize ty) .store true
      s.recordReady s.core x.record
      .ok (s.issueColl ⟨s.core, s.frame, s.ctxOf s.core, sub, ty, d, b, a, g.toNat, x.members, x.record, s.ftime, [], [], none⟩
        base a.len.toNat none)

/-- R227, SUB 0. -/
def execMcredAdd (t : BitVec 2) (g : BitVec 6) (s_ c : BitVec 4) (d : BitVec 5) (s : State) :
    Host.Outcome State Fault Refusal := s.finish (s.mcred 0 t g s_ c d)

/-- R227, SUB 1. -/
def execMcredMax (t : BitVec 2) (g : BitVec 6) (s_ c : BitVec 4) (d : BitVec 5) (s : State) :
    Host.Outcome State Fault Refusal := s.finish (s.mcred 1 t g s_ c d)

/-- R227, SUB 2. -/
def execMcredMin (t : BitVec 2) (g : BitVec 6) (s_ c : BitVec 4) (d : BitVec 5) (s : State) :
    Host.Outcome State Fault Refusal := s.finish (s.mcred 2 t g s_ c d)

/-- R228: the data are those of the window at the issue. -/
def execMcst (g : BitVec 6) (cs cd : BitVec 4) (d : BitVec 5) (s : State) : Host.Outcome State Fault Refusal :=
  let a := s.cur.cap cs
  let b := s.cur.cap cd
  let n := a.len.toNat
  s.finish (do
    match s.collAgain with
    | some q => s.collFinish q.1 q.2
    | none =>
      match ← s.collGroup g.toNat with
      | none => .ok (s.status d (-2048) 4)
      | some x =>
        if n = 0 ∨ 65536 < n ∨ n % 4 ≠ 0 then .error (.trap ILLEGAL (zext64 a.len)) else .ok ()
        let (os, base) ← s.access s.core a 0 n 4 rightR [1] .engine false
        let (od, off) ← s.access s.core b 0 n 4 rightW [1] .engine false
        s.layoutCheck s.core s.frame b od
        s.layoutCheck s.core s.frame a os
        s.release s.core s.frame 6 true
        s.pagesReady s.core os base n .load false
        s.recordReady s.core x.record
        match ← s.readImage s.core s.frame os base n with
        | (none, t) => .ok t
        | (some bytes, t) =>
          .ok (t.issueColl ⟨s.core, s.frame, s.ctxOf s.core, 3, 0, d, b, a, g.toNat, x.members, x.record, s.ftime, [], [], none⟩
            off n (some bytes)))

/-! ### At a member (R227, R228) -/

/-- A member's answer goes to the issuer, from the service hart of the home. -/
def State.answerMember (s : State) (home req coll ctx : Nat) (absent : Bool) (data : List Byte) : State :=
  if req / 4096 = s.pos then s.post (.memberValues coll s.pos absent data)
  else s.emit (.memberAnswer (s.via home ctx) req coll absent data)

/-- What a member access does: it ends, or it waits first in line. -/
inductive MemberEnd where
  | done (s : State)
  | held (s : State)

/-- The sectors of a member access, and the record that holds it: that of the first span of the page (R275). -/
def memberHeld (req coll ctx : Nat) (oid : BitVec 40) (base len : Nat) (data : Option (List Byte)) (host : Bool) (off : Nat)
    (g : List Nat) : Held :=
  if g.head? = (inPage host off (cutAt base len) (List.range (cutCount base len))).head? then .member req coll ctx oid base len data
  else .nothing

/-- The access of a collective at this member, made for a core of the pod as one operation: with every page there, it is
performed; a page that is missing enters the fault queue (R275; log 32). A member that has been struck is absent (R229), and so
is one whose object is a bus window (log 32). -/
def State.member (s : State) (req coll ctx : Nat) (oid : BitVec 40) (base len : Nat) (data : Option (List Byte)) : MemberEnd :=
  let x := s.ctxAt ctx
  match s.liveAt x oid with
  | none => .done (s.answerMember 0 req coll ctx true [])
  | some d =>
    let home := s.homeOf x d (d.stripe base) % 4096
    let absent := s.answerMember home req coll ctx true []
    if x.struck ∨ s.far d ∨ s.exterior d ∨ d.pw ∨ d.size < base + len then .done absent
    else
      match s.homePieces x d base len data.isSome with
      | .ok ps =>
        match data with
        | none =>
          let r := s.engineBytes ctx oid ps
          .done (r.2.answerMember home req coll ctx false r.1)
        | some bs => .done ((s.engineWrite home ctx 7 oid ps bs []).1.answerMember home req coll ctx false [])
      | .error .gone => .done absent
      | .error (.bad a) =>
        if req / 4096 = s.pos then .done (absent.memoryError (req % 4096) a)
        else .done (((s.retireAt a).answerMember home req coll ctx true []).emit (.machineNotice (s.via home ctx) req (machineEval a)))
      | .error .held => .held s
      | .error (.ask pasid page write) => .held (s.askTranslation (dieOf home) pasid page write)
      | .error (.fault host off) =>
        match s.enterSpans ctx (dieOf home) req 7 d host off (List.range (cutCount base len)) (cutAt base len)
            (memberHeld req coll ctx oid base len data host off) with
        | some t => .done t
        | none => .held s

/-- A member access is served in the order of arrival at its home (R222, R227): one behind another that the home holds joins the
line; one that is held stays first there. -/
def State.serveMember (s : State) (i : Instr) (req coll ctx : Nat) (oid : BitVec 40) (base len : Nat) (data : Option (List Byte)) : State :=
  if s.behind i then s.joinLine i
  else
    let s := s.setCome i false
    match s.member req coll ctx oid base len data with
    | .done t => t.meet (((s.arrivalAt i).getD (0, 0, 0)).1 % 4096) 8 req oid
    | .held t => t.hold i

/-- R227. -/
def execMemberRead (req coll ctx : Nat) (oid : BitVec 40) (base len : Nat) (s : State) :
    Host.Outcome State Fault Refusal :=
  .next (s.serveMember (.memberRead req coll ctx oid base len) req coll ctx oid base len none)

/-- R228. -/
def execMemberWrite (req coll ctx : Nat) (oid : BitVec 40) (base : Nat) (data : List Byte) (s : State) :
    Host.Outcome State Fault Refusal :=
  .next (s.serveMember (.memberWrite req coll ctx oid base data) req coll ctx oid base data.length (some data))

/-! ### At the issuer -/

/-- R227: values that arrive after the member has been declared absent, or after t0 + 5,000 ns, are discarded. -/
def execMemberValues (coll pos : Nat) (absent : Bool) (data : List Byte) (s : State) : Host.Outcome State Fault Refusal :=
  match look s.colls coll with
  | none => .next s
  | some c =>
    if !c.members.contains pos || c.absent.contains pos || c.got.any (fun q => decide (q.1 = pos)) || decide (c.t0 + 5000 < s.ftime)
    then .next s
    else
      let c := if absent then c.giveUp (fun p => decide (p = pos)) else { c with got := put c.got pos data }
      .next (({ s with colls := put s.colls coll (c.close s.ftime) } : State).meet c.core 8 0 0)

/-- R227, R238: at t0 + 5,000 ns every member that has not answered is absent. -/
def execCollectiveTimeout (coll : Nat) (s : State) : Host.Outcome State Fault Refusal :=
  match look s.colls coll with
  | none => .next s
  | some c => if c.t0 + 5000 ≤ s.ftime then .next { s with colls := put s.colls coll (c.timeOut s.ftime) } else .next s

/-- Collectives whose time is up, as time passes (R238). -/
def State.collsDue (s : State) : State := { s with colls := s.colls.map (fun p => (p.1, p.2.timeOut s.ftime)) }

end Sys2Proof.Machine
end

