-- ==== Sys2Proof/Machine/Remote.lean ====
section
/-! DEFINITION. The service hart of a home (R222, R223): remote requests arriving, and the values, acknowledgements and
notices that come back to the frames and the engines that issued them (R93, R124, R125). -/
namespace Sys2Proof.Machine

/-- What a service hart does with a request: it serves it, holds it (R111, R276), or meets an address that does not
exist. -/
inductive Served where
  | done (s : State)
  | held
  | hole (a : Nat)

/-- A posted store or a write of the home. -/
def isWrite : ReqOp → Bool
  | .store _ => true | .storeCap _ => true | .amo _ _ _ _ => true | .write _ _ => true
  | _ => false

/-- The answer to a performed write: an acknowledgement, or the old value. -/
def State.answerOld (s : State) (r : Request) (old : Word) : State :=
  if r.returns then s.sendValue r (.word old) else s.sendAck r

/-- A request is performed at an address of the home's memory, under the tenant's key (R118, R222). A CLDC of the object table
that mints nothing reads an untagged capability (R106). -/
def State.performAt (s : State) (r : Request) (a : Nat) : State :=
  let s := match r.op with
    | .read n => s.servedAll r.ctx r.oid r.off a n
    | .write b _ => s.servedAll r.ctx r.oid r.off a b.length
    | _ => s.served r.ctx r.oid r.off a
  match r.op with
  | .load n => s.sendValue r (.word (BitVec.ofNat 64 (leNat (s.plain r.ctx a n))))
  | .loadCap => s.sendValue r (.cap (capOf (s.tags.contains (a / 16)) (leNat (s.plain r.ctx a 16))))
  | .loadTable rights =>
    let x := s.ctxAt r.ctx
    let w := s.ctxNat x (x.descAddr (r.off / 64)) 64
    s.sendValue r (.cap ((x.mint w rights r.off).getD (capOf false (leNat (s.plain r.ctx a 16)))))
  | .store b => (s.performFor r.ctx a b none).sendAck r
  | .storeCap c => (s.performFor r.ctx a (leBytes 16 (capNat c)) (some c)).sendAck r
  | .amo op w e x =>
    let q := s.atomicAt r.ctx a op w e x
    q.2.answerOld r q.1
  | .read n => s.sendValue r (.data (s.plain r.ctx a n) (s.tagsOf r.off a n))
  | .write b tags => ((s.performFor r.ctx a b none).setTags a tags).sendAck r
  | _ => s

/-- A request is performed in host memory, which holds no tags (R99). -/
def State.performHost (s : State) (r : Request) (a : Nat) : State :=
  let store (b : List Byte) : State := ({ s with mem := memPut s.mem a b } : State).sendAck r
  match r.op with
  | .load n => s.sendValue r (.word (BitVec.ofNat 64 (s.readNat a n)))
  | .loadCap => s.sendValue r (.cap (capOf false (s.readNat a 16)))
  | .store b => store b
  | .storeCap c => store (leBytes 16 (capNat c))
  | .amo op w e x =>
    let n := atomicSize w
    let old : Word := BitVec.ofNat 64 (s.readNat a n)
    let new := if op = 13 ∧ old ≠ e then old else combine op w e old x
    ({ s with mem := memPut s.mem a (leBytes n new.toNat) }).answerOld r old
  | .read n => s.sendValue r (.data (memBytes s.mem a n) [])
  | .write b _ => store b
  | _ => s

/-- The object of a request is gone (R101, R223): the store of a frame is recorded. -/
def State.noObject (s : State) (die : Nat) (r : Request) : Served :=
  let posted := match r.op with
    | .store _ => true | .storeCap _ => true
    | _ => false
  if posted then
    if s.queueFull die then .held
    else .done ((s.addRecord die r.home (requestRec r 3 3 0 .nothing)).sendNotice r .noobj)
  else .done (s.sendNotice r .noobj)

/-- The accesses that R151 has the home check: those of other devices' frames, but for the reads of images and windows. -/
def checkedOp (r : Request) : Bool :=
  decide (r.agent = 0 ∧ r.frame ≠ 10) && (match r.op with
    | .read _ => false | .write _ _ => false
    | _ => true)

/-- What the layout check of a far request finds at the home (R151), by the issuer's VCTX and layout: nothing, a trap for the
issuer, or a conversion, in the version that the issuer runs in. -/
def State.farLayout (s : State) (x : Context) (r : Request) (d : Desc) : Option (BitVec 8 ⊕ BitVec 8) :=
  if r.core / 4096 = s.pos ∨ checkedOp r = false ∨ d.owner ≠ r.modid ∨ d.layout = r.layout then none
  else if r.layout < d.layout then some (.inl STRAGGLER)
  else
    match x.entered r.modid r.ver with
    | some v => if (look v.convs d.layout.toNat).isSome then some (.inr v.ver) else some (.inl LAYOUT)
    | none => some (.inl LAYOUT)

/-- A far request that fails the layout check (R151). -/
def State.layoutFailed (s : State) (die : Nat) (r : Request) (cause : BitVec 8) (tag : BitVec 16) : Served :=
  if r.returns then .done (s.sendNotice r (.trap cause (layoutEval r.layout tag)))
  else if s.queueFull die then .held
  else .done ((s.addRecord die r.home (requestRec r 4 3 0 .nothing)).sendAck r)

/-- A far request waits behind a conversion, which starts where none is under way (R151, R152). -/
def State.waitConversion (s : State) (r : Request) (d : Desc) (ver : BitVec 8) : State :=
  let x := s.ctxAt r.ctx
  if x.convs.any (fun v => v.oid = d.oid) then
    s.setCtx r.ctx { x with convs := x.convs.map (fun v =>
      if v.oid = d.oid then { v with waiting := v.waiting ++ [r] } else v) }
  else
    let home := s.homeOf x d 0 % 4096
    let s := s.setCtx r.ctx { x with convs := x.convs ++ [⟨d.oid, home, none, [r]⟩] }
    let c := s.coreAt home
    s.setCore home { c with starts := c.starts ++ [.converter r.ctx d.oid r.modid ver d.layout none] }

/-- A request at its place in memory (R222, R286): an uncorrectable error is a MACHINE event of the home core, or, where an engine
asked, of the engine's core. -/
def State.serveAt (s : State) (n : Nat) (r : Request) (a : Nat) : Served :=
  if !spanExists a (sizeOfOp r.op) then .hole a
  else match s.badAt a (sizeOfOp r.op) with
    | some b =>
      if r.agent ≠ 0 then .done ((s.retireAt b).sendNotice r (.uncorrectable (machineEval b)))
      else
        let s := s.memoryError n b
        match r.op with
        | .store _ => .done (s.sendAck r)
        | .storeCap _ => .done (s.sendAck r)
        | _ => if r.returns then .done (s.sendNotice r .machine) else .done (s.sendAck r)
    | none => .done (s.performAt r a)

/-- Whose request of an engine one is: of a copy unit's request, of the job of a matrix engine, of a kick of a media engine. -/
inductive EngineJob where
  | copy (cl : Nat) (q : CopyReq)
  | matrix (cl : Nat) (j : Job)
  | media (die : Nat) (q : CopyReq)

/-- The engines' work to which a request belongs. -/
def State.engineJob (s : State) (rid : Nat) : Option EngineJob :=
  let mine (x : Intake) : Bool := x.sent.any (fun g => decide (g.1 = rid))
  let his (q : CopyReq) : Bool := mine q.intake || q.wsent.any (fun w => decide (w.1 = rid))
  match s.clusters.findSome? (fun p => (p.2.accepted.find? his).map (fun q => EngineJob.copy p.1 q)) with
  | some e => some e
  | none =>
    match s.clusters.findSome? (fun p => (p.2.running.filter (fun j => mine j.intake)).map (fun j => EngineJob.matrix p.1 j)) with
    | some e => some e
    | none => s.dies.findSome? (fun p => ((p.2.media ++ p.2.mediaQ).find? his).map (fun q => EngineJob.media p.1 q))

/-- A request of a copy request, of whatever kind, is no longer under way. -/
def CopyReq.lost (q : CopyReq) (rid : Nat) : CopyReq :=
  { q with intake := q.intake.lost rid, wsent := q.wsent.filter (fun w => decide (w.1 ≠ rid)) }

/-- The operand that a request of an engine was to read. -/
def Intake.partOf (x : Intake) (rid : Nat) : Nat := ((x.sent.find? (fun g => decide (g.1 = rid))).map (fun g => g.2.1)).getD 0

/-- A page is missing at the home, on another die of this device, of a request that one of its engines has made: the sectors of
the engine's work wait for it (R275, R287). The write of a media engine waits as it stands. -/
def State.engineFault (s : State) (die : Nat) (r : Request) (d : Desc) : Served :=
  match s.engineJob r.rid with
  | none => .done s
  | some (.copy cl q) =>
    let p := q.lost r.rid
    let s := s.onReq cl q.id (fun _ => p)
    .done (if q.ending = 0 then s.sectorMiss cl p d (isWrite r.op) (.fault false r.off)
      else if q.ending = 3 then s.abortReq cl p else s)
  | some (.matrix cl j) =>
    (match (j.reads cl)[j.intake.partOf r.rid]? with
    | none => .done s
    | some o =>
      let t := s.operandFault o d (j.intake.lost r.rid) false r.off
      .done (t.1.onJob cl j.uid (fun j => { j with intake := t.2 })))
  | some (.media m q) =>
    if isWrite r.op then
      if s.queueFull die then .held else .done (s.addRecord die r.home (requestRec r 1 1 (r.off / 65536) (.request r)))
    else
      let part := q.intake.partOf r.rid
      let o : Option Operand := match q.mediaJob with
        | some j => (mediaReads m q j).find? (fun o => decide (o.part = part))
        | none => none
      let t := s.operandFault (o.getD (mediaOperand m q 0 q.src 96)) d (q.intake.lost r.rid) false r.off
      .done (t.1.onMedia m q.id (fun q => { q with intake := t.2 }))

/-- The arrival of a copy request of another device whose digest its barrier's home has stored. -/
def State.digestArrives (s : State) (r : Request) : State := (s.updateBarrier r.ctx r.oid r.off .arrive).sendAck r

/-- The digest of a copy request of another device reaches its barrier's home, which stores it and then counts the arrival (R197, R200,
R212). A slot that lies on a third device cannot be written there (log 86). -/
def State.serveDigest (s : State) (r : Request) (digest : List Byte) : Served :=
  let w := s.slotOf r.ctx r.oid r.off
  match s.digestAt (r.home % 4096) r.ctx r.oid r.off digest with
  | .ok (t, []) => .done (t.digestArrives r)
  | .ok _ => .done ((s.updateBarrier r.ctx r.oid r.off (.err 92)).digestArrives r)
  | .error (.fault host off) =>
    (match s.liveAt (s.ctxAt r.ctx) w.1 with
    | none => .held
    | some d =>
      let q := s.faultDie (s.ctxAt r.ctx) d off (dieOf (r.home % 4096)) host
      if s.queueFull q then .held
      else
        let x := requestRec r (if host then 2 else 1) 1 (if host then off / 4096 else off / 65536) (.request r)
        .done (s.addRecord q r.home { x with oid := w.1, off := off }))
  | .error _ => .held

/-- A read on the PCI Express bus for a request of another core. -/
def State.askBus (s : State) (r : Request) (a n : Nat) : State :=
  ({ s with nextId := s.nextId + 1, busWaits := s.busWaits ++ [(s.nextId, r)] } : State).emit (.busRead s.nextId a n)

/-- A posted write on the PCI Express bus for a request of another core. -/
def State.putBus (s : State) (r : Request) (a : Nat) (b : List Byte) : State :=
  (({ s with nextId := s.nextId + 1 } : State).emit (.busWrite s.nextId a b)).sendAck r

/-- A request meets a window of the PCI Express bus (R113). The bus has no atomic, which the home does not support (log 105). -/
def State.serveBus (s : State) (r : Request) (a : Nat) : State :=
  match r.op with
  | .load k => s.askBus r a k
  | .loadCap => s.askBus r a 16
  | .loadTable _ => s.askBus r a 16
  | .read k => s.askBus r a k
  | .store b => s.putBus r a b
  | .storeCap c => s.putBus r a (leBytes 16 (capNat c))
  | .write b _ => s.putBus r a b
  | _ => s.sendNotice r .unsupported

/-- The bus device answers a read that a request of another core has made: the value goes on to its issuer. -/
def State.busAnswer (s : State) (rid : Nat) (bs : List Byte) : State :=
  match look s.busWaits rid with
  | none => s
  | some r =>
    let s := { s with busWaits := s.busWaits.filter (fun q => decide (q.1 ≠ rid)) }
    s.sendValue r (match r.op with
      | .load _ => .word (BitVec.ofNat 64 (leNat bs))
      | .read _ => .data bs []
      | _ => .cap (capOf false (leNat bs)))

/-- A home reads a barrier for a request; an uncorrectable error there is a machine event of its core, and the issuer learns of it
(R286). -/
def State.barAsked (s : State) (r : Request) (g : State → Option Nat → State) : State :=
  match s.barBad r.ctx r.oid r.off with
  | some x => (s.memoryError (r.home % 4096) x).sendNotice r .machine
  | none => g s (s.barRead r.ctx r.oid r.off)

/-- The service hart serves a request that has arrived (R201, R222, R223). -/
def State.serve (s : State) (r : Request) : Served :=
  let n := r.home % 4096
  let die := dieOf n
  let x := s.ctxAt r.ctx
  match s.liveAt x r.oid with
  | none => s.noObject die r
  | some d =>
    match r.op with
    | .objver => .done (s.sendValue r (.word (BitVec.ofNat 64 (d.owner.toNat * 65536 + d.layout.toNat))))
    | .barAdd k => .done ((s.updateBarrier r.ctx r.oid r.off (.add k)).sendAck r)
    | .barSub k => .done ((s.updateBarrier r.ctx r.oid r.off (.sub k)).sendAck r)
    | .barArrive => .done ((s.updateBarrier r.ctx r.oid r.off .arrive).sendAck r)
    | .barAbort k => .done ((s.updateBarrier r.ctx r.oid r.off (.abortArrive k)).sendAck r)
    | .barDigest b => s.serveDigest r b
    | .barInit k => .done ((s.updateBarrier r.ctx r.oid r.off (.init k)).sendAck r)
    | .barTest => .done (s.barAsked r (fun s w => s.sendValue r (.word (match w.filter barComplete with
        | some b => barWord (barErr b)
        | none => 0))))
    | .barWait => .done (s.barAsked r (fun s w => match w.filter barComplete with
      | some b => s.sendValue r (.word (BitVec.ofNat 64 (barErr b)))
      | none => { s with barWaits := s.barWaits ++ [r] }))
    | _ =>
      match s.farLayout x r d with
      | some (.inl cause) => s.layoutFailed die r cause d.layout
      | some (.inr ver) => .done (s.waitConversion r d ver)
      | none =>
        if r.op = .check then .done (s.sendValue r (.word 0)) else
        match s.placeOf x d r.off die with
        | .here a _ => s.serveAt n r a
        | .migrating a => if isWrite r.op then .held else s.serveAt n r a
        | .remote h oid =>
          if h / 4096 = s.pos ∧ h ≠ r.home then .done (s.post (.remoteRequest { r with home := h, oid := oid }))
          else s.noObject die r
        | .host pasid va =>
          match s.translation die pasid (va / 4096) (isWrite r.op) with
          | none =>
            if (s.dieAt die).asked.any (fun q => decide (q.1 = pasid ∧ q.2.1 = va / 4096)) then .held
            else
              .done ((s.askTranslation die pasid (va / 4096) (isWrite r.op)).hold (.remoteRequest r))
          | some false =>
            if s.queueFull die then .held
            else .done (s.addRecord die r.home (requestRec r 2 1 (va / 4096) (.request r)))
          | some true => .done (s.performHost r (hostAddr pasid va))
        | .bus a => .done (s.serveBus r a)
        | .register => s.noObject die r
        | .unmapped =>
          if r.agent ≠ 0 ∧ r.core / 4096 = s.pos then s.engineFault die r d
          else if s.queueFull die then .held
          else .done (s.addRecord die r.home (requestRec r 1 1 (r.off / 65536) (.request r)))

/-- R222: a request that comes behind one that its home holds joins the line; one of an EVICTED context waits for its restore. One for a
home elsewhere changes nothing (log 22). -/
def execRemoteRequest (r : Request) (s : State) : Host.Outcome State Fault Refusal :=
  if r.home / 4096 ≠ s.pos then .next s
  else
    let i := Instr.remoteRequest r
    if s.asleep i then .next (s.post i)
    else if s.behind i then .next (s.joinLine i)
    else
      let s := s.setCome i false
      match s.serve r with
      | .done t => .next (if (s.liveAt (s.ctxAt r.ctx) r.oid).isSome then t.meet (r.home % 4096) (requestKind r.op) r.core r.oid else t)
      | .held => .next (s.hold i)
      | .hole a => .fault (.hole a)

/-! ### At the issuer -/

/-- The value of a lane. -/
def rvalWord : RVal → Word
  | .word w => w
  | .cap c => BitVec.ofNat 64 (capNat c)
  | .data bs _ => BitVec.ofNat 64 (leNat bs)

/-- The bytes of a value. -/
def rvalBytes : RVal → List Byte
  | .word w => leBytes 8 w.toNat
  | .cap c => leBytes 16 (capNat c)
  | .data bs _ => bs

/-- The tagged granules of a value. -/
def rvalTags : RVal → List Nat
  | .data _ tags => tags
  | .cap c => if c.tag then [0] else []
  | .word _ => []

/-- A value arrives for a parked frame (R70, R77, R281, R328, R437). -/
def State.valueArrived (s : State) (n f rid : Nat) (v : RVal) : State :=
  let fr := s.frameAt n f
  match fr.park with
  | some (.remote len pend fin) =>
    if !pend.contains rid then s
    else
      let rest := pend.filter (fun i => decide (i ≠ rid))
      let w := rvalWord v
      match fin with
      | .word d size signed => s.wake n f (fun fr => (fr.setGpr d (extendLoad size signed w.toNat)).advance len)
      | .cap d =>
        let c := match v with
          | .cap c => c
          | v => capOf false (leNat (rvalBytes v))
        s.wake n f (fun fr => (fr.setCap d c).advance len)
      | .lanes d acc rids size =>
        let l := (look rids rid).getD 0
        let acc := acc.setIfInBounds l (BitVec.ofNat 32 (w.toNat % 2 ^ (8 * size)))
        if rest.isEmpty then s.wake n f (fun fr => (fr.setVreg d acc).advance len)
        else s.setFrame n f { fr with park := some (.remote len rest (.lanes d acc rids size)) }
      | .atomic d wide => s.wake n f (fun fr =>
          (fr.setGpr d (if wide then w else BitVec.ofNat 64 (w.toNat % 2 ^ 32))).advance len)
      | .objver d => s.wake n f (fun fr => (fr.setGpr d w).advance len)
      | .members d g got rids =>
        let got := put got ((look rids rid).getD 0) w
        let p := Park.remote len rest (.members d g got rids)
        if rest.isEmpty then s.collected n f p else s.setFrame n f { fr with park := some p }
      | .table b got rids =>
        let got := put got ((look rids rid).getD 0) (w.setWidth 32)
        let p := Park.remote len rest (.table b got rids)
        if rest.isEmpty then s.collected n f p else s.setFrame n f { fr with park := some p }
      | .tests got rids =>
        let p := Park.remote len rest (.tests (put got ((look rids rid).getD 0) w) rids)
        if rest.isEmpty then s.collected n f p else s.setFrame n f { fr with park := some p }
      | .checked place =>
        let p := Park.remote len rest (.checked place)
        if rest.isEmpty then s.collected n f p else s.setFrame n f { fr with park := some p }
      | .image got rids =>
        let p := Park.remote len rest (.image (put got ((look rids rid).getD 0) (rvalBytes v)) rids)
        if rest.isEmpty then s.collected n f p else s.setFrame n f { fr with park := some p }
  | some (.barrier d any bars) =>
    let hit (b : BarRef) : Bool := decide (b.rid = some rid)
    if bars.any hit && fr.saved.isNone then
      s.barWake n f d any bars hit (rvalWord v).toNat
    else s
  | _ => s

/-- What an engine has asked for comes (R93). -/
def State.engineValue (s : State) (rid : Nat) (v : RVal) : State :=
  let take (x : Intake) : Intake := x.answer rid (rvalBytes v) (rvalTags v)
  match s.engineJob rid with
  | some (.copy cl q) => s.onReq cl q.id (fun q => { q with intake := take q.intake })
  | some (.matrix cl j) => s.onJob cl j.uid (fun j => { j with intake := take j.intake })
  | some (.media die q) => s.onMedia die q.id (fun q => { q with intake := take q.intake })
  | none => s

/-- A parked frame waits for a request. -/
def waitsFor (p : Option Park) (rid : Nat) : Bool :=
  match p with
  | some (.remote _ pend _) => pend.contains rid
  | some (.barrier _ _ bars) => bars.any (fun b => decide (b.rid = some rid))
  | _ => false

/-- A posted access is no longer awaited; an AMO that waits for it in place is complete, its pc moved on already (R330). -/
def Frame.settle (fr : Frame) (rid : Nat) : Frame :=
  { fr with
    posted := fr.posted.filter (fun p => decide (p.rid ≠ rid))
    wait := if fr.wait = some (.ack rid) then none else fr.wait }

/-- The barrier of a request is another device's. -/
def State.farBarrier (s : State) (q : CopyReq) : Bool :=
  match s.liveAt (s.ctxAt q.ctx) q.bar.oid with
  | some b => s.far b
  | none => false

/-- An engine's write has been performed at its home (R128): with the last one of a sector the sector is performed; with that of
a digest the request arrives, or has arrived where its home did both. -/
def State.engineAck (s : State) (rid : Nat) : State :=
  match s.engineJob rid with
  | some (.copy cl q) =>
    let i := ((q.wsent.find? (fun w => decide (w.1 = rid))).map (·.2)).getD q.count
    let q := q.lost rid
    let s := s.onReq cl q.id (fun _ => q)
    if q.wsent.any (fun w => decide (w.2 = i)) then s
    else if q.ending = 1 then (if s.farBarrier q then s.dropReq cl q.id else s.arriveReq cl q)
    else s.sectorDone cl q i
  | some (.media die q) => s.onMedia die q.id (fun q => q.lost rid)
  | _ => s

/-- R124; a trap that stood behind the access is taken at the boundary after it (R65, R331). -/
def execAcknowledgement (core frame rid : Nat) (s : State) : Host.Outcome State Fault Refusal :=
  .next (if s.asleep (.acknowledgement core frame rid) then s.post (.acknowledgement core frame rid)
    else if frame = engineFrame then s.engineAck rid
    else s.onCore core (fun s => (s.setFrame core frame ((s.frameAt core frame).settle rid)).takeNext core))

/-- KIND of R221 of the value that a frame waits for: the reply of an atomic or of a load. -/
def valueKind (p : Option Park) : Nat :=
  match p with
  | some (.remote _ _ (.atomic _ _)) => 6
  | _ => 3

/-- The trap that a notice makes at a parked issuer (R223, R265). -/
def noticeTrap (oid : BitVec 40) : Notice → BitVec 8 × Word
  | .noobj => (REMOTEERR, BitVec.ofNat 64 (oid.toNat * 256 + 1))
  | .unreachable => (REMOTEERR, BitVec.ofNat 64 (oid.toNat * 256 + 2))
  | .machine => (REMOTEERR, BitVec.ofNat 64 (oid.toNat * 256 + 3))
  | .failed => (REMOTEERR, BitVec.ofNat 64 (oid.toNat * 256 + 4))
  | .unsupported => (AMOUNSUP, zext64 oid)
  | .trap c e => (c, e)
  | .uncorrectable _ => (REMOTEERR, BitVec.ofNat 64 (oid.toNat * 256 + 3))

/-- The code that a notice records in AMOERR for a posted access (R223, R224). -/
def noticeCode (atomic : Bool) : Notice → Option Nat
  | .noobj => if atomic then some 2 else none
  | .unreachable => some 3
  | .unsupported => if atomic then some 1 else none
  | _ => none

/-- A home could not perform a request of an engine (R191, R199, R211, R279): the work ends as its operand's loss ends it. A digest
that could not be written sets ERR.DIGEST (R200). -/
def State.engineNotice (s : State) (core rid : Nat) (n : Notice) : State :=
  let t := match s.engineJob rid with
    | some (.copy cl q) =>
      if q.ending ≠ 1 then s.abortReq cl (q.lost rid)
      else if s.farBarrier q then s.dropReq cl q.id
      else (s.updateBarrier q.ctx q.bar.oid q.bar.base.toNat (.err 92)).arriveReq cl q
    | some (.matrix cl j) => s.endJob cl j (-2)
    | some (.media die q) => s.mediaAbort die q
    | none => s
  match n with
  | .uncorrectable e => t.machine core false e 15
  | _ => t

/-- R124, R222: a value that no frame waits for is discarded (R159). Poisoned data ends the work of an engine (R199; log 99). -/
def execRemoteValue (core frame rid : Nat) (v : RVal) (s : State) : Host.Outcome State Fault Refusal :=
  .next (if s.asleep (.remoteValue core frame rid v) then s.post (.remoteValue core frame rid v)
    else if frame = engineFrame then
      (if s.isTainted core 7 0 0 then s.engineNotice core rid .failed else s.engineValue rid v).meet core 7 0 0
    else s.onCore core (fun s =>
      let park := (s.frameAt core frame).park
      let t := s.valueArrived core frame rid v
      if waitsFor park rid then t.meet core (valueKind park) 0 0 else t))

/-- A notice reaches a frame: a parked issuer takes the trap; a posted access is recorded, and the notice stands in for its
acknowledgement (R223). -/
def State.noticeArrived (s : State) (core frame rid : Nat) (oid : BitVec 40) (n : Notice) : State :=
  let fr := s.frameAt core frame
  if waitsFor fr.park rid then
    let t := noticeTrap oid n
    s.wakeTrap core frame t.1 t.2
  else
    match fr.posted.find? (fun p => decide (p.rid = rid)) with
    | none => s
    | some p =>
      let fr := fr.settle rid
      (s.setFrame core frame (match noticeCode p.atomic n with
        | some c => { fr with amoerr := amoerrAdd fr.amoerr c oid }
        | none => fr)).takeNext core

/-- R223. -/
def execRemoteNotice (core frame rid : Nat) (oid : BitVec 40) (n : Notice) (s : State) :
    Host.Outcome State Fault Refusal :=
  .next (if s.asleep (.remoteNotice core frame rid oid n) then s.post (.remoteNotice core frame rid oid n)
    else if frame = engineFrame then s.engineNotice core rid n
    else s.onCore core (fun s => s.noticeArrived core frame rid oid n))

end Sys2Proof.Machine
end

