-- ==== Sys2Proof/Machine/Fabric.lean ====
section
/-! DEFINITION. The fabric (R216 to R221, R231, R243): ports, paths, flits, tag groups, poison, declarations of unreachable devices, the
correction of fabric time; and inter-pod datagrams (R233, R416). -/
namespace Sys2Proof.Machine

/-! ### Ports (R216, R218, R220) -/

/-- The position of the device at the other end of a port (R216). -/
def portPeer (pos port : Nat) : Nat :=
  let row := pos / 32
  let col := pos % 32
  if port < 31 then row * 32 + (if port < col then port else port + 1)
  else
    let q := port - 31
    (if q < row then q else q + 1) * 32 + col

/-- The port of the first hop of the fixed path to a device: the row port to its column, then the column port (R217). -/
def portTo (pos dst : Nat) : Nat :=
  let row := pos / 32
  let col := pos % 32
  if dst % 32 ≠ col then (if dst % 32 < col then dst % 32 else dst % 32 - 1)
  else 31 + (if dst / 32 < row then dst / 32 else dst / 32 - 1)

/-- The port through which traffic to a device leaves (R217, R218). -/
def State.routeTo (s : State) (dst : Nat) : Nat := (look s.routes dst).getD (portTo s.pos dst)

/-- The lowest-numbered port that is up, one port apart. -/
def State.upPort (s : State) (but : Nat) : Option Nat :=
  (List.range 62).find? (fun p => decide (p ≠ but ∧ (s.linkAt p).state = .up))

/-- The port by which a flit of a class leaves for a device: one of class 0 or 2 on the fixed path, or on the path that took its place
(R217, R218); one of class 1 or 3 there too while that port is up, and by the lowest-numbered port that is up else (log 98). -/
def State.portOf (s : State) (cls dst : Nat) : Nat :=
  let p := s.routeTo dst
  if cls % 2 = 0 ∨ (s.linkAt p).state = .up then p else (s.upPort p).getD p

/-- A flit of class 0 or 2 for a device: its path is fixed. -/
def fixedTo (dst : Nat) (f : Flit) : Bool := decide (f.dst / 4096 = dst ∧ f.cls % 2 = 0)

/-- A flit for a device that went out on a link has not been accepted at the other end yet. -/
def Link.owes (x : Link) (dst : Nat) : Bool := (x.replay.flatMap (·.2) ++ x.partialGroup).any (fixedTo dst)

/-- The traffic of class 0 and 2 to a device takes another port, with the flits that still wait. -/
def State.moveRoute (s : State) (dst port : Nat) : State :=
  let old := s.routeTo dst
  let x := s.linkAt old
  let s := s.setLink old { x with waiting := x.waiting.filter (fun f => !fixedTo dst f) }
  let y := s.linkAt port
  { s.setLink port { y with waiting := y.waiting ++ x.waiting.filter (fixedTo dst) } with
    routes := if port = portTo s.pos dst then drop s.routes dst else put s.routes dst port
    moves := drop s.moves dst }

/-- R218: traffic moves once every flit already sent on its old path has been accepted. -/
def State.moveRoutes (s : State) : State :=
  s.moves.foldl (fun t m => if (t.linkAt (t.routeTo m.1)).owes m.1 then t else t.moveRoute m.1 m.2) s

/-- The port by which the traffic to a device leaves, or is about to leave. -/
def State.boundFor (s : State) (dst : Nat) : Nat := (look s.moves dst).getD (s.routeTo dst)

/-- The traffic to some devices is to leave by a port. -/
def State.moveAll (s : State) (dsts : List Nat) (port : Nat) : State :=
  ({ s with moves := dsts.foldl (fun m d => put m d port) s.moves } : State).moveRoutes

/-- A port is lost: the traffic of the devices whose path begins there is to move to the lowest-numbered port that is up, whose peer
begins a detour that R217 allows for class 3. Which of them is left open (log 98). -/
def State.reroute (s : State) (port : Nat) : State :=
  match s.upPort port with
  | none => s
  | some p => s.moveAll ((List.range 1024).filter (fun d => decide (d ≠ s.pos ∧ s.boundFor d = port))) p

/-- R218: the second link of the fixed path to a device is down. The traffic to that device is to move to another port. -/
def State.secondDown (s : State) (dst : Nat) : State :=
  if 1024 ≤ dst ∨ dst = s.pos then s
  else match s.upPort (s.boundFor dst) with
    | none => s
    | some p => s.moveAll [dst] p

/-- A link runs in skid mode only when the policy of every tenant bound on either device selects it (R220); with no
tenant bound here it runs in containment mode. -/
def State.skid (s : State) (port : Nat) : Bool :=
  let bound := s.contexts.filter (fun p => decide (p.2.state = .bound ∨ p.2.state = .running ∨ p.2.state = .paused))
  !bound.isEmpty && bound.all (fun p => p.2.policy.flags.getLsbD 2) && Config.peerSkid port

/-- R216: the port retrains on its fifth lane; one that has lost two is down. -/
def execLaneFailure (port : Nat) (s : State) : Host.Outcome State Fault Refusal :=
  let x := s.linkAt port
  if 62 ≤ port then .next s
  else
    let t := s.setLink port { x with lanesLost := x.lanesLost + 1, state := if 1 ≤ x.lanesLost then .down else .fenced }
    .next (if 1 ≤ x.lanesLost then t.reroute port else t)

/-- R218: a link is down; the class 0 and 2 traffic of its pairs moves to another path. -/
def execLinkDown (port : Nat) (s : State) : Host.Outcome State Fault Refusal :=
  if 62 ≤ port then .next s else .next ((s.setLink port { s.linkAt port with state := .down }).reroute port)

/-- A device is declared unreachable no more. -/
def State.reachable (s : State) (pos : Nat) : State :=
  { s with declared := drop s.declared pos, unreachable := s.unreachable.filter (fun p => decide (p ≠ pos)) }

/-! ### Unreachable devices (R218, R238, R243, R254) -/

/-- R243: the halyard plane declares a device unreachable. It objects with that member's position to every claim that
counts it as a member and whose T_e lies at least B ahead (R254), and collectives await it no longer (R238). -/
def execDeclaredUnreachable (pos : Nat) (s : State) : Host.Outcome State Fault Refusal :=
  if (look s.declared pos).isSome ∨ pos = s.pos then .next s
  else .next { s with
    declared := put s.declared pos s.ftime
    claims := s.claims.map (fun p =>
      let q := p.2
      if q.state = .announced ∧ s.ftime + boundB ≤ q.ann.te ∧ q.ann.members.contains pos = true ∧
          q.objections.contains (pos, reasonUnreachable) = false
      then (p.1, { q with objections := q.objections ++ [(pos, reasonUnreachable)] }) else p)
    colls := s.colls.map (fun p => (p.1, (p.2.giveUp (fun m => decide (m = pos))).close s.ftime)) }

/-- R218: 50 µs after the declaration with no path back, the device is unreachable for classes 1 and 2. -/
def execUnreachableClasses (pos : Nat) (s : State) : Host.Outcome State Fault Refusal :=
  match look s.declared pos with
  | some t => if t + 50000 ≤ s.ftime ∧ s.unreachable.contains pos = false
      then .next { s with unreachable := insertNat s.unreachable pos } else .next s
  | none => .next s

/-! ### Flits (R219) -/

/-- The n low bytes of a list, filled up with zeros. -/
def padded (n : Nat) (b : List Byte) : List Byte := (b ++ List.replicate (n - b.length) 0).take n

/-- HDR of R219. -/
def flitHeader (f : Flit) : Nat :=
  f.cls % 4 + bitOf f.first * 2 ^ 4 + bitOf f.last * 2 ^ 5 + f.dst % 2 ^ 22 * 2 ^ 12 + f.src % 2 ^ 22 * 2 ^ 34 +
    f.hops % 4 * 2 ^ 56 + f.data.length * 2 ^ 58 + f.gen.toNat * 2 ^ 66

/-- The bytes under the CRC: HDR and DATA. -/
def flitBody (f : Flit) : List Byte := leBytes 16 (flitHeader f) ++ padded 220 f.data

/-- One bit of the CRC's register, in the reflected form of the IEEE 802.3 polynomial. -/
def crcBit (r : Nat) : Nat := if r % 2 = 1 then Nat.xor (r / 2) 0xEDB88320 else r / 2

def crcBits : Nat → Nat → Nat
  | 0, r => r
  | n + 1, r => crcBits n (crcBit r)

/-- CRC-32 of IEEE 802.3. -/
def crc32 (b : List Byte) : Nat :=
  Nat.xor (b.foldl (fun r x => crcBits 8 (Nat.xor r x.toNat)) 0xFFFFFFFF) 0xFFFFFFFF

/-- A flit as it leaves, its CRC in it. -/
def sealFlit (f : Flit) : Flit := { f with crc := crc32 (flitBody f) }

def flitSound (f : Flit) : Bool := decide (f.crc = crc32 (flitBody f) ∧ f.data.length ≤ 220)

/-- The 256 bytes of a flit with a tag. -/
def flitBytes (f : Flit) (tag : List Byte) : List Byte := flitBody f ++ leBytes 4 f.crc ++ padded 16 tag

/-- An idle flit. -/
def idleFlit : Flit := sealFlit ⟨0, false, false, 0, 0, 0, 0, [], 0, [], 0, 0, 0⟩

/-- The 96 bytes of a message (R73). -/
def msgBytes (m : Msg) : List Byte :=
  leBytes 32 (m.cls.toNat + m.modid.toNat * 2 ^ 8 + m.objid.toNat * 2 ^ 32 + m.sender.toNat * 2 ^ 72 + m.slot.toNat * 2 ^ 96 +
    m.slotseq.toNat * 2 ^ 104 + m.gen.toNat * 2 ^ 120 + m.deadline.toNat * 2 ^ 128 + m.stripe.toNat * 2 ^ 192 +
    m.nw.toNat * 2 ^ 212 + bitOf m.u * 2 ^ 216 + bitOf m.rq * 2 ^ 217 + bitOf m.dlv * 2 ^ 218 + bitOf m.sl * 2 ^ 219 +
    bitOf m.host * 2 ^ 220) ++
  (List.range 8).flatMap (fun i => leBytes 8 (m.payload.getD i 0).toNat)

/-- What the DATA bytes hold of traffic other than messages is not stated (log 97). -/
opaque packetData : Packet → List Byte

/-- What the flits of one packet say: class, DST, SRC, and of a poison record KIND, object and offset; GEN; DATA. -/
structure Carried where
  cls  : Nat
  dst  : Nat
  src  : Nat
  kind : Nat
  oid  : BitVec 40
  off  : Nat
  gen  : BitVec 8
  data : List Byte

/-- The devices at the other ends of the ports. -/
def State.neighbours (s : State) : List Nat := (List.range 62).map (portPeer s.pos)

/-- The data of a packet that is one flit: a message, a load, a store or a reply (R219, R222). -/
def oneFlit (p : Packet) : List Byte := (packetData p).take 220

/-- The bytes of a message's flit. -/
def msgData (m : Msg) : List Byte := (msgBytes m).take 220

/-- A packet of the fabric, by its destinations (R217). Announcements, objections and the barriers of the pod go to every
neighbour, which forwards them (R243). The words of REPLY travel in class 1, as R405 has it (log 103). -/
def State.carried (s : State) (p : Packet) : List Carried :=
  let toAll (v : Via) : List Carried := s.neighbours.map (fun d => ⟨0, d * 4096, v.src, 0, 0, 0, v.gen, packetData p⟩)
  let member (pos src : Nat) (oid : BitVec 40) (gen : BitVec 8) : List Carried := [⟨3, pos * 4096, src, 8, oid, 0, gen, packetData p⟩]
  match p with
  | .request r _ =>
    let gen := (s.vfAt (s.ctxAt r.ctx).vf).gen
    if orderedOp r then [⟨2, r.home, r.core, requestKind r.op, r.oid, r.off, gen, oneFlit p⟩]
    else [⟨3, r.home, r.core, requestKind r.op, r.oid, r.off, gen, packetData p⟩]
  | .value v kind _ core frame _ =>
    if frame = engineFrame then [⟨3, core, v.src, kind, 0, 0, v.gen, packetData p⟩] else [⟨1, core, v.src, kind, 0, 0, v.gen, oneFlit p⟩]
  | .acknowledge v _ core _ => [⟨1, core, v.src, 0, 0, 0, v.gen, oneFlit p⟩]
  | .notice v _ core _ _ _ => [⟨1, core, v.src, 0, 0, 0, v.gen, oneFlit p⟩]
  | .message dst m => [⟨2, dst, m.sender.toNat, 1, m.objid, 0, m.gen, msgData m⟩]
  | .reply v dst _ => [⟨1, dst, v.src, 2, 0, 0, v.gen, oneFlit p⟩]
  | .hostReply v pos _ _ _ _ _ => [⟨1, pos * 4096, v.src, 2, 0, 0, v.gen, oneFlit p⟩]
  | .hostStage v pos _ _ _ _ => [⟨1, pos * 4096, v.src, 0, 0, 0, v.gen, oneFlit p⟩]
  | .announcement _ => toAll ⟨s.coreid 0, 0⟩
  | .objection _ => toAll ⟨s.coreid 0, 0⟩
  | .arrive v _ => toAll v
  | .memberRead gen pos req _ oid _ _ => member pos req oid gen
  | .memberWrite gen pos req _ oid _ _ => member pos req oid gen
  | .memberAnswer v req _ _ _ => member (req / 4096) v.src 0 v.gen
  | .reservation v c _ _ => [⟨1, c, v.src, 0, 0, 0, v.gen, oneFlit p⟩]
  | .machineNotice v c _ => [⟨1, c, v.src, 0, 0, 0, v.gen, oneFlit p⟩]
  | .tableRequest _ pos => [⟨0, pos * 4096, s.coreid 0, 0, 0, 0, 0, packetData p⟩]
  | _ => []

/-- The flits of what is carried: up to 220 bytes of data in each (R219). -/
def Carried.flits (c : Carried) : List Flit :=
  let n := max 1 ((c.data.length + 219) / 220)
  (List.range n).map (fun i =>
    sealFlit ⟨c.cls, i = 0, i + 1 = n, 0, c.gen, c.src, c.dst, (c.data.drop (220 * i)).take 220, 0, [], c.kind, c.oid, c.off⟩)

/-! ### Tag groups (R220) -/

/-- The pair of a link's devices, and its direction bit: 0 from the lower position. -/
def linkPair (pos port : Nat) : Nat := min pos (portPeer pos port) * 1024 + max pos (portPeer pos port)

def linkDir (pos port : Nat) (out : Bool) : Bool := decide (pos < portPeer pos port) != out

/-- The tag over five flits, TAG taken as zero, under the key of so many derivations and rollovers. -/
def groupTag (pos port derived epoch : Nat) (out : Bool) (counter : Nat) (fs : List Flit) : List Byte :=
  Config.linkTag (linkPair pos port) (derived * 2 ^ 24 + epoch) (linkDir pos port out) counter (fs.flatMap (fun f => flitBytes f []))

/-- A flit is sent: five of them make a group, whose fifth has the tag, under the key of the group's counter; the replay buffer keeps
the group until it has been accepted. -/
def Link.send (x : Link) (pos port : Nat) (f : Flit) : Link :=
  let g := x.partialGroup ++ [f]
  if g.length < 5 then { x with partialGroup := g }
  else
    let e := max x.epoch (x.counter / 2 ^ 40)
    let tag := groupTag pos port x.derived e true x.counter g
    { x with
      partialGroup := []
      replay := x.replay ++ [(x.counter, g.dropLast ++ g.getLast?.toList.map (fun f => { f with tag := tag }))]
      counter := x.counter + 1
      epoch := e }

/-- A flit is to leave, by the port of its class and destination. -/
def State.queueFlit (s : State) (f : Flit) : State :=
  let p := s.portOf f.cls (f.dst / 4096)
  let x := s.linkAt p
  s.setLink p { x with waiting := x.waiting ++ [f] }

/-- The next packet that leaves the device goes into flits, each to its port. -/
def execFlitsSend (s : State) : Host.Outcome State Fault Refusal :=
  match s.outbox[s.framed]? with
  | none => .next s
  | some p => .next (((s.carried p).flatMap Carried.flits).foldl State.queueFlit { s with framed := s.framed + 1 })

/-- A waiting flit can leave: the port has a credit of its class (R217), and the traffic of its destination is not about to move
(R218). -/
def State.mayLeave (s : State) (x : Link) (f : Flit) : Bool :=
  !x.dry.contains f.cls && !(decide (f.cls % 2 = 0) && (look s.moves (f.dst / 4096)).isSome)

/-- A port sends the first of its waiting flits that can leave: no class blocks another (R217). -/
def execPortSend (port : Nat) (s : State) : Host.Outcome State Fault Refusal :=
  let x := s.linkAt port
  match (if x.state = .up then x.waiting.find? (s.mayLeave x) else none) with
  | none => .next s
  | some f => .next (s.setLink port ({ x with waiting := x.waiting.erase f }.send s.pos port f))

/-- The link-level credits of a class at the other end of a port are used up, or there are some again (R217; log 104). -/
def State.linkCredit (s : State) (port cls : Nat) (spent : Bool) : State :=
  let x := s.linkAt port
  if 62 ≤ port ∨ 4 ≤ cls then s
  else s.setLink port { x with dry := if spent then insertNat x.dry cls else x.dry.filter (fun c => decide (c ≠ cls)) }

/-- R243: an idle flit at least every 100 ns. -/
def execHalyardIdleFlit (port : Nat) (s : State) : Host.Outcome State Fault Refusal :=
  let x := s.linkAt port
  if 62 ≤ port ∨ x.state ≠ .up then .next s
  else .next ((s.setLink port { x.send s.pos port idleFlit with idle := s.ftime }).emit (.idle port))

/-- R220: a partial group is completed with idle flits. -/
def execTagGroupIdleFill (port : Nat) (s : State) : Host.Outcome State Fault Refusal :=
  let x := s.linkAt port
  if x.partialGroup.isEmpty then .next s
  else .next (s.setLink port ((List.range (5 - x.partialGroup.length)).foldl (fun x _ => x.send s.pos port idleFlit) x))

/-- R220: at every group counter of a direction that is a multiple of 2^40 both sides move to a new key. -/
def execLinkKeyRollover (port : Nat) (s : State) : Host.Outcome State Fault Refusal :=
  let x := s.linkAt port
  if x.epoch < x.counter / 2 ^ 40 ∨ x.epochIn < x.received / 2 ^ 40 then
    .next (s.setLink port { x with epoch := max x.epoch (x.counter / 2 ^ 40), epochIn := max x.epochIn (x.received / 2 ^ 40) })
  else .next s

/-- Of a group whose tag failed at the other end, the flits that go out again: in containment mode all; in skid mode those of the
halyard and those of messages whose last flit is not in the group (R220). -/
def resent (skid : Bool) : List Flit → List Flit
  | [] => []
  | f :: fs =>
    let forwarded := (f :: fs).any (fun g => g.last && decide (g.src = f.src ∧ g.dst = f.dst ∧ g.cls = f.cls))
    if skid && (!f.first && !f.last && f.data.isEmpty || decide (f.cls ≠ 0) && forwarded) then resent skid fs else f :: resent skid fs

/-- What a link owes its peer is sent again, in tag groups of the new key (R220): after the failure of a group's tag from that group
on, in skid mode without what had been forwarded; else every group that has not been accepted. -/
def Link.repeats (x : Link) (pos port : Nat) (skid : Bool) : Link × List Flit :=
  match x.resend with
  | none => (x, [])
  | some (n, failed) =>
    let first := if failed then n else ((x.replay.head?).map (·.1)).getD x.counter
    let again := x.replay.filter (fun q => decide (first ≤ q.1))
    let fs := (again.flatMap (fun q => if skid && failed && decide (q.1 = first) then resent true q.2 else q.2) ++ x.partialGroup).map
      (fun f => { f with tag := [] })
    let c := if skid && failed then first + 1 else first
    let y := { x with
      replay := x.replay.filter (fun q => decide (q.1 < first)), partialGroup := [], counter := c, epoch := c / 2 ^ 40, resend := none }
    (fs.foldl (fun y f => y.send pos port f) y, fs)

/-- R216, R220, R218: a fenced or down link returns to service, and with it a path to its peer; what it owes is sent again, and the
traffic whose fixed path begins there returns to it. A port that has lost two lanes stays down. -/
def execLinkRetrained (port : Nat) (s : State) : Host.Outcome State Fault Refusal :=
  let x := s.linkAt port
  if 62 ≤ port ∨ x.state = .up ∨ 2 ≤ x.lanesLost then .next s
  else
    let r := { x with state := .up }.repeats s.pos port (s.skid port)
    let t : State := { (s.setLink port r.1).reachable (portPeer s.pos port) with halyardLost := false }
    let t := if r.2.isEmpty then t else t.emit (.resend port r.2)
    .next (t.moveAll ((List.range 1024).filter (fun d => decide (d ≠ s.pos ∧ portTo s.pos d = port ∧ s.boundFor d ≠ port))) port)

/-- The peer of a port asks for one flit of a group again, which failed its CRC: it is resent, and nothing else happens (R219). -/
def State.resendTo (s : State) (port group i : Nat) : State :=
  let x := s.linkAt port
  let fs := if group = x.counter then x.partialGroup else (look x.replay group).getD []
  match fs[i]? with
  | some f => s.emit (.resend port [f])
  | none => s

/-- The tag of a group that a port sent failed at its peer (R220). -/
def State.groupFailed (s : State) (port group : Nat) : State :=
  let x := s.linkAt port
  if 62 ≤ port ∨ x.state ≠ .up ∨ (look x.replay group).isNone then s
  else s.setLink port { x with state := .fenced, derived := x.derived + 1, resend := some (group, true) }

/-- The peer has accepted the groups of a port up to one: the replay buffer drops them, and traffic that waited for it moves (R218,
R220). -/
def State.groupAccepted (s : State) (port group : Nat) : State :=
  let x := s.linkAt port
  if 62 ≤ port then s
  else (s.setLink port { x with replay := x.replay.filter (fun q => decide (group < q.1)) }).moveRoutes

/-! ### Poison (R221) -/

/-- The poison record of a message of a failed group. -/
def poisonOf (port group : Nat) (f : Flit) : Poison :=
  ⟨group, port, f.kind, f.cls, f.src, false, f.oid, if 3 ≤ f.kind ∧ f.kind ≤ 7 then f.off else 0, f.data.length⟩

/-- The 32 bytes of a poison record. -/
def Poison.bytes (p : Poison) : List Byte :=
  leBytes 8 p.group ++ leBytes 2 p.port ++ leBytes 1 p.kind ++ leBytes 1 p.cls ++ leBytes 4 (p.src % 2 ^ 22 + bitOf p.ovfl * 2 ^ 31) ++
    leBytes 5 p.oid.toNat ++ List.replicate 3 0 ++ leBytes 6 p.off ++ leBytes 2 p.len

/-- What a core will meet when something that is under way comes to it: the core, KIND, source and object. -/
def State.toMeet (s : State) : Instr → Option (Nat × Nat × Nat × BitVec 40)
  | .messageArrival n m _ => some (n, 1, m.sender.toNat, m.objid)
  | .replyArrival n r => some (n, 2, ((look (s.coreAt n).slots r.slot.toNat).bind (·.dest)).getD 0, 0)
  | .remoteValue n f _ _ =>
    some (n, if f = engineFrame then 7 else valueKind (s.frameAt n f).park, 0, 0)
  | .remoteRequest r => if r.home / 4096 = s.pos then some (r.home % 4096, requestKind r.op, r.core, r.oid) else none
  | _ => none

/-- A poisoned message has not been met by its core yet: it is under way, or stands in a queue. -/
def State.unmet (s : State) (n : Nat) (p : Poison) : Bool :=
  ((s.coreAt n).normalQ ++ (s.coreAt n).urgentQ).any (fun e => poisonAbout p 1 e.msg.sender.toNat e.msg.objid) ||
    s.inflight.any (fun i => match s.toMeet i with
      | some (k, kind, src, oid) => decide (k = n) && poisonAbout p kind src oid
      | none => false)

/-- A poisoned message for a core of this device: the core is told once it meets the message, at once when it has, and never where
it does not (log 99). -/
def State.poison (s : State) (n : Nat) (p : Poison) : State :=
  if s.unmet n p then { s with tainted := s.tainted ++ [(n, p)] }
  else if s.met.any (fun q => decide (q.1 = n) && poisonAbout p q.2.1 q.2.2.1 q.2.2.2) then s.post (.poisonNotice n p)
  else s

/-- R219, R220, R221: four flits and the fifth, which carries their tag. Flits that fail their CRC change nothing. A group whose tag
checks moves the counter on. One whose tag fails fences the link and derives new keys; in containment mode it is discarded, and comes
again; in skid mode its messages whose last flit had been forwarded are poisoned, and a notice goes on to later devices. -/
def execTagGroupReceive (port : Nat) (flits : List Flit) (fifth : Flit) (s : State) : Host.Outcome State Fault Refusal :=
  let x := s.linkAt port
  let flits := flits ++ [fifth]
  let key := max x.epochIn (x.received / 2 ^ 40)
  let fenced := { x with
    state := .fenced, derived := x.derived + 1
    resend := match x.resend, x.replay with
      | none, q :: _ => some (q.1, false)
      | r, _ => r }
  if 62 ≤ port ∨ x.state ≠ .up ∨ flits.length ≠ 5 ∨ flits.all flitSound = false then .next s
  else if fifth.tag = groupTag s.pos port x.derived key false x.received flits then
    .next (s.setLink port { x with received := x.received + 1, epochIn := key })
  else if !s.skid port then .next (s.setLink port fenced)
  else
    let t := s.setLink port { fenced with received := x.received + 1 }
    let bad := flits.filter (fun f => f.last && decide (f.cls ≠ 0))
    let here := bad.filter (fun f => decide (f.dst / 4096 = s.pos))
    let t := here.foldl (fun (t : State) f => t.poison (f.dst % 4096) (poisonOf port x.received f)) t
    .next (if bad.length = here.length then t else t.emit (.poisonNotice port x.received))

/-- R221: a record enters the core's poison list of 64, and the core takes LINKFAIL; a full list sets OVFL in its last
record. EVAL is the number of records added (R265). -/
def execPoisonNotice (core : Nat) (p : Poison) (s : State) : Host.Outcome State Fault Refusal :=
  let c := s.coreAt core
  if c.poison.length < 64 then
    .next ((s.setCore core { c with poison := c.poison ++ [p] }).machine core true 1 15)
  else
    let l := (List.range 64).filterMap (fun i => (c.poison[i]?).map (fun r => if i = 63 then { r with ovfl := true } else r))
    .next ((s.setCore core { c with poison := l }).machine core true 0 15)

/-! ### Fabric time (R231) -/

/-- R231: the halyard plane tells the device how far its FTIME is off; its rate changes until the error is gone. -/
def execFtimeCorrection (error : Int) (s : State) : Host.Outcome State Fault Refusal :=
  if s.halyardLost then .next s else .next { s with ftimeErr := error }

/-! ### Inter-pod datagrams (R232, R233, R416) -/

def State.peerAt (s : State) (pod pos : Nat) : Peer := (look s.peers (pod * 1024 + pos)).getD ⟨0, 0, [], []⟩

def State.setPeer (s : State) (pod pos : Nat) (p : Peer) : State := { s with peers := put s.peers (pod * 1024 + pos) p }

/-- The 112 bytes of an entry: destination, far object and the reply's binding in 16, then the message. -/
def podBytes (e : PodEntry) : List Byte :=
  padded 16 (Config.podName e.dest e.oid (match e.reply with
    | some r => 1 + 2 * (r.slot.toNat + 64 * (r.slotseq.toNat + 2 ^ 16 * r.status))
    | none => 0)) ++ padded 96 (msgBytes e.msg)

/-- The 32 bytes of a datagram's header. -/
def datagramHeader (d : Datagram) : List Byte :=
  leBytes 2 d.spod ++ leBytes 2 d.dpod ++ leBytes 2 d.spos ++ leBytes 2 d.dpos ++ leBytes 8 d.seq ++ leBytes 8 d.ack ++
    [BitVec.ofNat 8 d.entries.length] ++ List.replicate 7 0

/-- The key of a device pair. -/
def datagramPair (d : Datagram) : Nat :=
  let a := d.spod * 1024 + d.spos
  let b := d.dpod * 1024 + d.dpos
  min a b * 2 ^ 20 + max a b

/-- The payload of a datagram: the header, the entries encrypted under the key of the device pair, and TAGX over both. -/
def datagramWire (d : Datagram) : List Byte :=
  let h := datagramHeader d
  let c := padded (112 * d.entries.length) (Config.podCipher (datagramPair d) h (d.entries.flatMap podBytes))
  h ++ c ++ padded 16 (Config.podTag (datagramPair d) h c)

/-- A payload that is a datagram's, with its TAGX. -/
def authentic (wire : List Byte) (d : Datagram) : Bool :=
  decide (1 ≤ d.entries.length ∧ d.entries.length ≤ 64 ∧ wire = datagramWire d)

/-- R233: up to 64 waiting messages for one device go out in one datagram, which is kept until it is acknowledged. -/
def execDatagramSend (pod pos count : Nat) (s : State) : Host.Outcome State Fault Refusal :=
  let mine (e : Nat × Nat × PodEntry) : Bool := decide (e.1 = pod ∧ e.2.1 = pos)
  let n := min (min count 64) (max 1 (Config.mtuEntries pod))
  let out := (s.txbuf.filter mine).take n
  if out.isEmpty then .next s
  else
    let p := s.peerAt pod pos
    let d : Datagram := ⟨s.pod, pod, s.pos, pos, p.sent + 1, p.seen, out.map (fun e => e.2.2)⟩
    let s := s.setPeer pod pos { p with sent := p.sent + 1, unacked := p.unacked ++ [(d, s.ftime)] }
    .next (({ s with txbuf := s.txbuf.filter (fun e => !mine e) ++ (s.txbuf.filter mine).drop n } : State).emit (.datagram (datagramWire d) d))

/-- R233: 20 µs without an acknowledgement. -/
def execDatagramResend (pod pos seq : Nat) (s : State) : Host.Outcome State Fault Refusal :=
  let p := s.peerAt pod pos
  match p.unacked.find? (fun q => decide (q.1.seq = seq ∧ q.2 + 20000 ≤ s.ftime)) with
  | none => .next s
  | some q =>
    let d := { q.1 with ack := p.seen }
    let s := s.setPeer pod pos { p with unacked := p.unacked.map (fun x => if x.1.seq = seq then (d, s.ftime) else x) }
    .next (s.emit (.datagram (datagramWire d) d))

/-- Datagrams that the peer has received in order are done with, and the accesses of their messages settle (R125, R234). -/
def State.ackDatagrams (s : State) (pod pos ack : Nat) : State :=
  let p := s.peerAt pod pos
  let done := p.unacked.filter (fun q => decide (q.1.seq ≤ ack))
  let s := s.setPeer pod pos { p with unacked := p.unacked.filter (fun q => decide (ack < q.1.seq)) }
  (done.flatMap (fun q => q.1.entries)).foldl (fun s e => match e.track with
    | some (n, f, rid) =>
      let fr := s.frameAt n f
      s.setFrame n f { fr with posted := fr.posted.filter (fun x => decide (x.rid ≠ rid)) }
    | none => s) s

/-- An entry of a datagram arrives: a reply at its core, a message in its queue; none when the queue is full (R416). -/
def State.podArrival (s : State) (d : Datagram) (e : PodEntry) : Option State :=
  let n := e.dest % 4096
  match e.reply with
  | some r => some (s.post (.replyArrival n r))
  | none =>
    let m := { e.msg with objid := e.oid }
    let o := Origin.pod d.spod d.spos
    if s.evictedCluster (clusterOf n) then none
    else if !s.takesMessages n then some (s.answerUnrun n ⟨m, s.ftime, 0, o, false⟩ 2 0)
    else if 0 < s.roomAt n m.u then some (s.enqueue n m o)
    else none

/-- The highest sequence received in order, and what lies beyond it. -/
def advanceSeen : Nat → Nat → List Nat → Nat × List Nat
  | 0, n, l => (n, l)
  | fuel + 1, n, l => if l.contains (n + 1) then advanceSeen fuel (n + 1) (l.filter (fun x => decide (x ≠ n + 1))) else (n, l)

/-- R233: a datagram that is authentic, for this device and no duplicate is taken whole, or held unacknowledged while a queue
it needs is full. -/
def execDatagramReceive (wire : List Byte) (d : Datagram) (s : State) : Host.Outcome State Fault Refusal :=
  if !authentic wire d ∨ d.dpod ≠ s.pod ∨ d.dpos ≠ s.pos then .next s
  else
    let s := s.ackDatagrams d.spod d.spos d.ack
    let p := s.peerAt d.spod d.spos
    if d.seq ≤ p.seen ∨ p.beyond.contains d.seq = true then .next s
    else match d.entries.foldlM (fun s e => s.podArrival d e) s with
      | none => .next s
      | some t =>
        let q := t.peerAt d.spod d.spos
        let l := q.beyond ++ [d.seq]
        let r := advanceSeen l.length q.seen l
        .next (t.setPeer d.spod d.spos { q with seen := r.1, beyond := r.2 })

end Sys2Proof.Machine
end

