-- ==== Sys2Proof/Machine/LoadStore.lean ====
section
/-! DEFINITION. Scalar loads and stores (R370 to R372, R422 to R424), capability loads and stores with minting (R352 to
R354, R106), and the page-request window (R278). -/
namespace Sys2Proof.Machine

/-- A load whose value comes from elsewhere: the frame parks in REMOTE until the value of the request arrives. -/
def State.parkRemote (s : State) (n f len rid : Nat) (fin : Then) : State :=
  s.parkFrame n f (.remote len [rid] fin)

/-- A load from host memory through a granted translation: one PCI Express read, whose value arrives as a remote
value (R371). -/
def State.hostLoad (s : State) (n f len : Nat) (v : RVal) (fin : Then) : State :=
  let rid := s.nextId
  let s := { s with nextId := rid + 1 }
  (s.post (.remoteValue n f rid v)).parkRemote n f len rid fin

/-- A load from the PCI Express bus (R113). -/
def State.busLoad (s : State) (n f len a size : Nat) (fin : Then) : State :=
  let rid := s.nextId
  let s := { s with nextId := rid + 1 }
  (s.emit (.busRead rid a size)).parkRemote n f len rid fin

/-- LD and LDS (R371). -/
def State.load (s : State) (c : Cap) (off : Int) (size : Nat) (signed : Bool) (d : BitVec 5) (len : Nat) :
    Res State := do
  let (o, a) ← s.access s.core c off size size rightR [1, 6] .frame false
  s.layoutCheck s.core s.frame c o
  s.watermark s.core o.oid a (a + size)
  let p ← s.locate s.core o a .load false
  let here (addr : Nat) : Res State := do
    s.sound addr size
    let v := leNat (s.readOwn s.core s.frame addr size)
    .ok ((s.writeG d (extendLoad size signed v) len).served (s.ctxOf s.core) o.oid a addr)
  match p with
  | .here addr _ => here addr
  | .migrating addr => here addr
  | .remote h oid =>
    let q := s.request s.core s.frame h oid o.oid a (.load size) .load true false
    .ok (q.1.parkRemote s.core s.frame len q.2 (.word d size signed))
  | .host pasid va =>
    .ok (s.hostLoad s.core s.frame len (.word (BitVec.ofNat 64 (s.readNat (hostAddr pasid va) size)))
      (.word d size signed))
  | .bus addr => .ok (s.busLoad s.core s.frame len addr size (.word d size signed))
  | _ => .error (.trap CAPKIND 0)

/-! ### The page-request window (R278) -/

/-- The page requests of a function that are outstanding. -/
def State.pageCount (s : State) (vf : Nat) : Nat := (s.pageReqs.filter (fun q => decide (q.vf = vf))).length

/-- A value is stored to the page-request window: a page request goes to the host, or the upcall answers BADREQ. -/
def State.pageRequest (s : State) (n : Nat) (value : Word) (write : Bool) : State :=
  let k := s.ctxOf n
  let x := s.ctxAt k
  let page := bitsOf value.toNat 63 40
  let good := match s.liveAt x (value.setWidth 40) with
    | some d => if d.hb then some d else none
    | none => none
  match good with
  | some d =>
    let s := { s with pageReqs := s.pageReqs ++ [PageReq.mk k n x.vf d.pasid ((d.xbase + 4096 * page) / 4096) write value] }
    s.emit (.pageRequest d.pasid (d.xbase + 4096 * page) write)
  | none =>
    let c := s.coreAt n
    s.setCore n { c with starts := c.starts ++ [.page k value 3 (BitVec.ofNat 64 (bitOf write))] }

/-- A store to the page-request window; only one of eight bytes asks for a page (log 19). -/
def State.storePageReg (s : State) (off size : Nat) (v : Word) (len : Nat) : Res State :=
  let x := s.ctxAt (s.ctxOf s.core)
  if size ≠ 8 then .ok (s.skip len)
  else if 64 ≤ s.pageCount x.vf then .error (.wait .pageRequests)
  else .ok ((s.skip len).pageRequest s.core v (decide (off = 8)))

/-! ### Stores -/

/-- ST and STX (R423). -/
def State.store (s : State) (c : Cap) (off : Int) (size sc : Nat) (v : Word) (len : Nat) : Res State := do
  let (o, a) ← s.access s.core c off size size rightW [1, 6] .frame false
  s.layoutCheck s.core s.frame c o
  if o.pageReg then
    if sc ≠ 0 then s.releaseSend s.core s.frame sc true else .ok ()
    s.storePageReg a size v len
  else
    let act ← s.storeAct s.core s.frame c o a (leBytes size (v.toNat % 2 ^ (8 * size))) none .store
    if sc ≠ 0 then s.releaseSend s.core s.frame sc (act.buffered.isNone) else .ok ()
    s.room s.core s.frame [act]
    .ok ((s.skip len).commitStores s.core s.frame [act] .store)

/-! ### Capabilities -/

/-- CLDC (R353). A load of the object table from another die mints at the table's home (R106). -/
def State.loadCap (s : State) (c : Cap) (off : Int) (d : BitVec 4) : Res State := do
  let (o, a) ← s.access s.core c off 16 16 (rightR ||| rightC) [1] .frame false
  s.layoutCheck s.core s.frame c o
  s.watermark s.core o.oid a (a + 16)
  let p ← s.locate s.core o a .cldc false
  let x := s.ctxAt (s.ctxOf s.core)
  let table := o.whole.isSome && c.rights &&& rightO ≠ 0
  let here (addr : Nat) : Res State := do
    s.sound addr 16
    let minted := if table then x.mint (leNat (s.readOwn s.core s.frame (x.descAddr (a / 64)) 64)) c.rights a else none
    let v := match minted with
      | some m => m
      | none => capOf (!table && s.tagOwn s.core s.frame addr) (leNat (s.readOwn s.core s.frame addr 16))
    .ok ((s.writeC d v 4).served (s.ctxOf s.core) o.oid a addr)
  match p with
  | .here addr _ => here addr
  | .migrating addr => here addr
  | .remote h oid =>
    let q := s.request s.core s.frame h oid o.oid a (if table then .loadTable c.rights else .loadCap) .cldc true false
    .ok (q.1.parkRemote s.core s.frame 4 q.2 (.cap d))
  | .host pasid va =>
    .ok (s.hostLoad s.core s.frame 4 (.cap (capOf false (s.readNat (hostAddr pasid va) 16))) (.cap d))
  | _ => .error (.trap CAPKIND 0)

/-- CSTC (R353). -/
def State.storeCap (s : State) (c : Cap) (off : Int) (sc : Nat) (v : Cap) : Res State := do
  let (o, a) ← s.access s.core c off 16 16 (rightW ||| rightC) [1] .frame false
  s.layoutCheck s.core s.frame c o
  if o.hb then .error (.trap CAPRIGHT (rightEval 4 0)) else .ok ()
  if o.pageReg then .ok (s.skip 4)
  else
    let act ← s.storeAct s.core s.frame c o a (leBytes 16 (capNat v)) (some v) .cstc
    if sc ≠ 0 then s.releaseSend s.core s.frame sc (act.buffered.isNone) else .ok ()
    s.room s.core s.frame [act]
    .ok ((s.skip 4).commitStores s.core s.frame [act] .cstc)

/-! ### The meanings -/

/-- R371, M form: a scoped load is an acquire, which needs nothing of a frame that works in order (R125). -/
def execLd (o : BitVec 10) (_sc : BitVec 3) (z : BitVec 2) (c : BitVec 4) (d : BitVec 5) (s : State) :
    Host.Outcome State Fault Refusal :=
  s.finish (s.load (s.cur.cap c) (off10 o (sizeOf2 z)) (sizeOf2 z) false d 4)

/-- R371, M form, sign-extending. -/
def execLds (o : BitVec 10) (_sc : BitVec 3) (z : BitVec 2) (c : BitVec 4) (d : BitVec 5) (s : State) :
    Host.Outcome State Fault Refusal :=
  s.finish (s.load (s.cur.cap c) (off10 o (sizeOf2 z)) (sizeOf2 z) true d 4)

/-- R371, MX form. -/
def execLdIndexed (g : BitVec 5) (_sc : BitVec 3) (z : BitVec 2) (c : BitVec 4) (d : BitVec 5) (s : State) :
    Host.Outcome State Fault Refusal :=
  s.finish (s.load (s.cur.cap c) (indexOff s.cur g) (sizeOf2 z) false d 4)

/-- R371, MX form, sign-extending. -/
def execLdsIndexed (g : BitVec 5) (_sc : BitVec 3) (z : BitVec 2) (c : BitVec 4) (d : BitVec 5) (s : State) :
    Host.Outcome State Fault Refusal :=
  s.finish (s.load (s.cur.cap c) (indexOff s.cur g) (sizeOf2 z) true d 4)

/-- R423, M form. -/
def execSt (o : BitVec 10) (sc : BitVec 3) (z : BitVec 2) (c : BitVec 4) (d : BitVec 5) (s : State) :
    Host.Outcome State Fault Refusal :=
  s.finish (s.store (s.cur.cap c) (off10 o (sizeOf2 z)) (sizeOf2 z) sc.toNat (s.cur.gpr d) 4)

/-- R423, MX form. -/
def execStx (g : BitVec 5) (sc : BitVec 3) (z : BitVec 2) (c : BitVec 4) (d : BitVec 5) (s : State) :
    Host.Outcome State Fault Refusal :=
  s.finish (s.store (s.cur.cap c) (indexOff s.cur g) (sizeOf2 z) sc.toNat (s.cur.gpr d) 4)

/-- R61, R370: the 16-bit load of eight bytes at the window base. -/
def execLdD16 (a : BitVec 4) (d : BitVec 5) (s : State) : Host.Outcome State Fault Refusal :=
  s.finish (s.load (s.cur.cap a) 0 8 false d 2)

/-- R61, R422: the 16-bit store of eight bytes at the window base. -/
def execStD16 (a : BitVec 4) (d : BitVec 5) (s : State) : Host.Outcome State Fault Refusal :=
  s.finish (s.store (s.cur.cap a) 0 8 0 (s.cur.gpr d) 2)

/-- R353. -/
def execCldc (o : BitVec 10) (_sc : BitVec 3) (c : BitVec 4) (d : BitVec 4) (s : State) :
    Host.Outcome State Fault Refusal :=
  s.finish (s.loadCap (s.cur.cap c) (off10 o 16) d)

/-- R353. -/
def execCstc (o : BitVec 10) (sc : BitVec 3) (c : BitVec 4) (d : BitVec 4) (s : State) :
    Host.Outcome State Fault Refusal :=
  s.finish (s.storeCap (s.cur.cap c) (off10 o 16) sc.toNat (s.cur.cap d))

/-- R278: a store of eight bytes to offset 0 of the page-request window of the tenant of a core. -/
def execPageRequestRead (core : Nat) (value : Word) (s : State) : Host.Outcome State Fault Refusal :=
  .next (s.pageRequest core value false)

/-- R278: offset 8 asks for read-write access. -/
def execPageRequestWrite (core : Nat) (value : Word) (s : State) : Host.Outcome State Fault Refusal :=
  .next (s.pageRequest core value true)

end Sys2Proof.Machine
end

