-- ==== Sys2Proof/Machine/Sched.lean ====
section
/-! DEFINITION. What a core does between instructions: dispatch (R81 to R83), the urgent quota (R85), balancing and
forwarding of queued messages (R80, R87), the store buffer (R123, R451), converter starts (R152), hardware barriers
completing (R88, R90), and the ends of PAUSE and WAITA (R398, R443). -/
namespace Sys2Proof.Machine

/-! ### The urgent quota (R85) -/

/-- WINDOW of a value of UQUOTA. -/
def windowOf (u : Word) : Nat := max (bitsOf u.toNat 39 8) 1

/-- Cycles of the running window in which urgent frames may issue. -/
def Core.quota (c : Core) : Nat := min (bitsOf c.uwin.toNat 7 0) 100 * windowOf c.uwin / 100

/-- The length of the running window. -/
def Core.window (c : Core) : Nat := windowOf c.uwin

/-- Urgent messages are held back. -/
def Core.quotaHeld (c : Core) : Bool := c.exhausted || decide (c.quota ≤ c.winCount)

/-- R85, R382: a new window begins when the current one has run its cycles, with UQUOTA as it then stands. -/
def execUrgentQuotaWindow (core : Nat) (s : State) : Host.Outcome State Fault Refusal :=
  let c := s.coreAt core
  if c.winStart + c.window ≤ s.cycles then
    let next := c.winStart + c.window
    .next (s.setCore core { c with
      winStart := next + (s.cycles - next) / windowOf c.uquota * windowOf c.uquota, winCount := 0, exhausted := false
      uwin := c.uquota })
  else .next s

/-- R85: urgent frames that run urgent messages are held, and drop to READY. -/
def execUrgentQuotaExhausted (core : Nat) (s : State) : Host.Outcome State Fault Refusal :=
  let c := s.coreAt core
  if c.quota ≤ c.winCount then
    let drop (c : Core) (f : Nat) : Core :=
      let fr := c.frameAt f
      match fr.act with
      | some a => if a.kind = .message ∧ fr.state = .running ∧ fr.wait = none
          then c.setFrame f { fr with state := .ready } else c
      | none => c
    .next (s.setCore core { drop (drop c 8) 9 with exhausted := true })
  else .next s

/-! ### Dispatch (R80, R83, R280) -/

/-- A core dispatches no message while its partition is reefed, stopped or being torn down (R310), no urgent one while the quota is
spent or a converter or upcall can start (R80, R85, R152, R271). -/
def State.mayDispatch (s : State) (n : Nat) (urgent : Bool) : Bool :=
  (s.clusterAt (clusterOf n)).owner.isSome && !s.reefed (s.ctxOf n) && (s.ctxAt (s.ctxOf n)).teardown.isNone &&
    (!urgent || (!(s.coreAt n).quotaHeld && !(s.coreAt n).starts.any (s.startable n)))

/-- R83; a core whose frame dispatches a poisoned message is told (R221). -/
def execDispatch (core : Nat) (urgent : Bool) (s : State) : Host.Outcome State Fault Refusal :=
  if s.mayDispatch core urgent then
    match (s.coreAt core).freeFrame urgent, s.chosen core urgent with
    | some f, some e =>
      let t := s.dispatchTo core f urgent e
      .next (if (t.frameAt core f).state = .free then t
        else t.meet core 1 e.msg.sender.toNat e.msg.objid)
    | _, _ => .next s
  else .next s

/-! ### Converters and upcalls that wait (R152, R271, R280) -/

/-- Converters and upcalls start while the partition runs or is reefed; later they wait for its restore (R284). -/
def State.mayStart (s : State) (n : Nat) : Bool :=
  let x := s.ctxAt (s.ctxOf n)
  !x.stopped && (match x.ladder with
    | some l => l.stage = .reef
    | none => true)

/-- The first start of a kind that can begin; upcalls wait behind any converter (R271). -/
def State.nextStart (s : State) (n : Nat) (kind : Start → Bool) : Option Start :=
  let c := s.coreAt n
  if !s.mayStart n then none
  else
    match c.starts.find? isConverter with
    | some u => if kind u && s.startable n u then some u else none
    | none => c.starts.find? (fun u => kind u && s.startable n u)

/-- The list of starts without the first one equal to u. -/
def dropStart : List Start → Start → List Start
  | [], _ => []
  | x :: xs, u => if x = u then xs else x :: dropStart xs u

def State.takeStart (s : State) (n : Nat) (u : Start) : State :=
  let c := s.coreAt n
  s.setCore n { c with starts := dropStart c.starts u }

/-- R152: the next converter is dispatched; where none can be, those that hold frames go on taking their locks. -/
def execConverterStart (core : Nat) (s : State) : Host.Outcome State Fault Refusal :=
  match s.nextStart core isConverter with
  | some (.converter k oid m ver from_ trig) =>
    .next ((s.takeStart core (.converter k oid m ver from_ trig)).startConverter core k oid m ver from_ trig)
  | _ => .next (if s.mayStart core then (s.lockConverter core 8).lockConverter core 9 else s)

/-! ### Stateless messages (R87) and forwarding (R80) -/

/-- The stateless messages of a core's normal queue. -/
def Core.stateless (c : Core) : List QEntry := c.normalQ.filter (fun e => e.msg.sl)

/-- The neighbours of the i-th of n cores, without duplicates and the core itself. -/
def neighbours (n i : Nat) : List Nat :=
  (([i + n - 2 % n, i + n - 1 % n, i + 1, i + 2].map (· % n)).filter (fun j => decide (j ≠ i))).eraseDups

/-- The place in a core's order of arrival of a message forwarded to it: before those of its stream that came there later (R80). -/
def Core.placeFor (c : Core) (e : QEntry) : Nat :=
  ((c.normalQ ++ c.urgentQ).filter (fun x => sameStream x.msg e.msg && decide (e.arrival ≤ x.arrival))).foldl
    (fun m x => min m x.serial) c.serial

/-- An entry moves up by one in the order of arrival where it stands behind a place. -/
def QEntry.moveUp (e : QEntry) (place : Nat) : QEntry := if place ≤ e.serial then { e with serial := e.serial + 1 } else e

/-- The message that a frame runs keeps its place among those of the queue, to which it may go back (R360). -/
def Frame.makeRoom (fr : Frame) (place : Nat) : Frame :=
  { fr with act := fr.act.map (fun a => { a with entry := a.entry.map (fun e => e.moveUp place) }) }

/-- A forwarded entry takes its place in a core's queue. -/
def Core.insertEntry (c : Core) (e : QEntry) : Core :=
  let p := c.placeFor e
  let d := { c with
    normalQ := c.normalQ.map (fun (x : QEntry) => x.moveUp p), urgentQ := c.urgentQ.map (fun (x : QEntry) => x.moveUp p)
    frames := c.frames.map (fun (fr : Frame) => fr.makeRoom p), serial := c.serial + 1 }
  d.setQueue e.msg.u (putEntry (d.queue e.msg.u) { e with serial := p })

/-- A queued message leaves a core. -/
def Core.dropEntry (c : Core) (e : QEntry) : Core :=
  c.setQueue e.msg.u ((c.queue e.msg.u).filter (fun x => decide (x.serial ≠ e.serial)))

/-- A stateless entry moves to another core's normal queue, with its arrival time (R87). -/
def State.moveEntry (s : State) (src dst : Nat) (e : QEntry) : State :=
  let s := s.setCore src ((s.coreAt src).dropEntry e)
  let d := s.coreAt dst
  s.setCore dst { d.setQueue e.msg.u (putEntry (d.queue e.msg.u) { e with serial := d.serial }) with serial := d.serial + 1 }

/-- An entry goes to a new home, with its arrival time and before what its sender sent there since (R80). -/
def State.rehome (s : State) (src dst : Nat) (e : QEntry) : State :=
  let s := s.setCore src ((s.coreAt src).dropEntry e)
  s.setCore dst ((s.coreAt dst).insertEntry e)

/-- R87: the kernel of a core balances its normal queue, every 10 µs, counted from the last time and first at once
(log 80). -/
def execStatelessBalance (core : Nat) (s : State) : Host.Outcome State Fault Refusal :=
  let c := s.coreAt core
  let p := (s.ctxAt (s.ctxOf core)).cores
  if s.ftime < c.balanceAt ∨ !p.contains core then .next s
  else
    let s := s.setCore core { c with balanceAt := s.ftime + 10000 }
    let i := p.idxOf core
    let count (j : Nat) : Nat := (s.coreAt (p.getD j 0)).stateless.length
    let best := (neighbours p.length i).foldl (fun (m : Option Nat) j => match m with
      | none => some j
      | some b => if count j < count b ∨ (count j = count b ∧ j < b) then some j else some b) none
    match best with
    | none => .next s
    | some j =>
      let d := c.stateless.length
      if d ≤ count j + 8 then .next s
      else
        let dst := p.getD j 0
        let k := min ((d - count j) / 4) (s.roomAt dst false)
        .next ((c.stateless.drop (d - k)).foldl (fun s e => s.moveEntry core dst e) s)

/-- A queued message whose home has changed goes to the new one, whatever that queue holds (R80; log 81). -/
def State.forwardOne (s : State) (n : Nat) (e : QEntry) : State :=
  let x := s.ctxAt (s.ctxOf n)
  match (if e.msg.sl then none else s.liveAt x e.msg.objid) with
  | none => s
  | some d =>
    if s.far d then
      (s.setCore n ((s.coreAt n).dropEntry e)).emit (.message d.home { e.msg with objid := BitVec.ofNat 40 d.xbase })
    else
      let h := s.homeOf x d e.msg.stripe.toNat % 4096
      if h = n then s else s.rehome n h e

/-- The entries of both queues of a core in the order of their arrival. -/
def Core.arrived (c : Core) : List QEntry := c.urgentQ.foldl putEntry c.normalQ

/-- A queued message has a home on another device now. -/
def State.leavesDevice (s : State) (n : Nat) (e : QEntry) : Bool :=
  match (if e.msg.sl then none else s.liveAt (s.ctxAt (s.ctxOf n)) e.msg.objid) with
  | some d => s.far d
  | none => false

/-- The kernel of a core forwards what has another home now, each sender's messages in their order (R80): to other devices the first
first; on this device the last first, since each goes before those that follow it. -/
def State.forwardCore (s : State) (n : Nat) : State :=
  let es := (s.coreAt n).arrived
  let s := (es.filter (s.leavesDevice n)).foldl (fun s e => s.forwardOne n e) s
  (es.filter (fun e => !s.leavesDevice n e)).reverse.foldl (fun s e => s.forwardOne n e) s

/-- R80: before dispatch resumes, the kernels forward what has another home now. -/
def execForwardQueuedMessages (ctx : Nat) (s : State) : Host.Outcome State Fault Refusal :=
  if s.reefed ctx then
    .next ((s.ctxAt ctx).cores.foldl (fun s n => s.forwardCore n) s)
  else .next s

/-! ### The store buffer (R123, R451) -/

/-- A frame that has more stores than the buffer had room for enters what fits now; with the last one its instruction is
complete (R451). -/
def State.enterStores (s : State) (n f : Nat) : State :=
  let c := s.coreAt n
  let fr := c.frameAt f
  if fr.entering.isEmpty then s
  else
    let room := 16 - c.buffer.length
    let rest := fr.entering.drop room
    let fr' := { fr with
      entering := rest
      wait := if rest.isEmpty ∧ fr.wait = some .entering then none else fr.wait }
    s.setCore n { c.setFrame f fr' with buffer := c.buffer ++ fr.entering.take room }

/-- An activation that was waiting for its stores to drain ends when they have (R361); a release fence with nothing before it
holds nothing back. -/
def State.drainedFrame (s : State) (n f : Nat) : State :=
  if s.buffered n f then s
  else
    let fr := s.frameAt n f
    let s := if fr.relStores then s.setFrame n f { fr with relStores := false } else s
    match fr.wait with
    | some (.ending e) => s.endActivation n f false e
    | _ => s

/-- After a store has left the buffer: stores that wait for room enter, the lower frame number first (log 82), activations
end, and traps that waited for either are taken. -/
def State.afterDrain (s : State) (n : Nat) : State :=
  let s := (List.range 11).foldl (fun s f => s.enterStores n f) s
  ((List.range 11).foldl (fun s f => s.drainedFrame n f) s).takeNext n

/-- The oldest store of a core is performed, and what waited for it goes on. -/
def State.drainFirst (s : State) (core : Nat) (p : PStore) (ps : List PStore) : State :=
  let gone := match s.deletes p with
    | some oid => [(p.frame, p.ctx, oid)]
    | none => []
  let s := s.performStore p
  let s := s.setCore core { s.coreAt core with buffer := ps }
  let s := s.stillDeleting core ((s.coreAt core).deleting ++ gone)
  (s.outgoingMove core p.frame).afterDrain core

/-- Up to so many stores of a core are performed, as far as none has to wait. -/
def State.drainSome (core : Nat) : Nat → State → State
  | 0, s => s
  | k + 1, s =>
    match (s.coreAt core).buffer with
    | [] => s
    | p :: ps => if (s.currentAddr p).2 || s.deleteWaits core p then s else State.drainSome core k (s.drainFirst core p ps)

/-- R123: the oldest store is performed, unless its page is migrating (R111) or it deletes an object whose
stores other cores still hold (R107), and messages behind it leave (R126); the frames
whose stores wait for room enter them. -/
def execStoreBufferDrain (core : Nat) (s : State) : Host.Outcome State Fault Refusal :=
  let c := s.coreAt core
  match c.buffer with
  | [] => .next (s.afterDrain core)
  | p :: ps =>
    .next (if (s.currentAddr p).2 || s.deleteWaits core p then s else s.drainFirst core p ps)

/-! ### Hardware barriers (R88, R90) -/

/-- Every enrolled core of this device has arrived. -/
def Hbar.full (b : Hbar) : Bool := !b.cores.isEmpty && b.cores.all (fun n => b.arrived.contains n)

/-- The frames of a core that wait in an episode resume. -/
def State.resumeHbar (s : State) (k : HbarKey) (n : Nat) : State :=
  (List.range 11).foldl (fun s f =>
    if (s.frameAt n f).park = some (.hbar k) then s.wake n f (fun fr => fr.advance 4) else s) s

/-- The episode ends: every frame parked in it resumes, also in the image of an EVICTED context, and the next episode starts
(R90, R281). -/
def State.endEpisode (s : State) (k : HbarKey) : State :=
  let s : State := { s with hbars := s.hbars.map (fun p => if p.1 = k then (k, { p.2 with arrived := [] }) else p) }
  (s.cores.map (·.1)).foldl (fun s n => s.onCore n (fun s => s.resumeHbar k n)) s

def State.hbarAt (s : State) (k : HbarKey) : Option Hbar := (s.hbars.find? (fun p => decide (p.1 = k))).map (·.2)

/-- R90: the last enrolled participant has arrived. At pod scope the halyard plane has told that every other device
has. -/
def execHbarEpisodeComplete (b : HbarKey) (s : State) : Host.Outcome State Fault Refusal :=
  match s.hbarAt b with
  | none => .next s
  | some x => if x.full then .next (s.endEpisode b) else .next s

/-- R88: a device declared unreachable leaves a pod-scope enrolment. With this device alone left and arrived, the episode
completes at once. -/
def execHbarEnrolRemove (id pos : Nat) (s : State) : Host.Outcome State Fault Refusal :=
  let k : HbarKey := ⟨6, 0, id⟩
  match s.hbarAt k with
  | none => .next s
  | some x =>
    if (look s.declared pos).isSome ∧ x.devices.contains pos then
      let ds := x.devices.filter (fun p => decide (p ≠ pos))
      let s : State := { s with hbars := s.hbars.map (fun p => if p.1 = k then (k, { p.2 with devices := ds }) else p) }
      if x.full && ds.all (fun p => decide (p = s.pos)) then .next (s.endEpisode k) else .next s
    else .next s

/-! ### PAUSE and WAITA (R398, R443) -/

/-- R398: 64 cycles after PAUSE the frame competes again. -/
def execPauseExpiry (core frame : Nat) (s : State) : Host.Outcome State Fault Refusal :=
  let fr := s.frameAt core frame
  if fr.pauseTo ≤ s.cycles then .next (s.setFrame core frame { fr with pauseTo := 0 }) else .next s

/-- A WAITA ends with a status: its monitor entry frees and the frame resumes (R443). -/
def State.endWaita (s : State) (n f : Nat) (d : BitVec 5) (st : Int) : State :=
  (s.freeMonitor n f).wake n f (fun fr => (fr.setGpr d (Sys2Proof.status st)).advance 4)

/-- R443: 1 ms parked with the dword equal. -/
def execWaitaTimeout (core frame : Nat) (s : State) : Host.Outcome State Fault Refusal :=
  match (s.frameAt core frame).park with
  | some (.waita d x a false since) =>
    if since + 1000000 ≤ s.ftime ∧ leNat (s.plain (s.ctxOf core) a 8) = x.toNat then .next (s.endWaita core frame d 1) else .next s
  | _ => .next s

/-- R443: 1 µs parked without a monitor entry. -/
def execWaitaFullExpiry (core frame : Nat) (s : State) : Host.Outcome State Fault Refusal :=
  match (s.frameAt core frame).park with
  | some (.waita d _ _ true since) =>
    if since + 1000 ≤ s.ftime then .next (s.endWaita core frame d 2) else .next s
  | _ => .next s

/-- The writes since the last look have changed a dword that a WAITA watches: the frame resumes with status 0 (R443). -/
def State.watch (s : State) : State :=
  s.allFrames.foldl (fun s p =>
    let fr := s.frameAt p.1 p.2
    match fr.park with
    | some (.waita d x a false _) =>
      if fr.state = .parked ∧ leNat (s.plain (s.ctxOf p.1) a 8) ≠ x.toNat then s.endWaita p.1 p.2 d 0 else s
    | _ => s) s

end Sys2Proof.Machine
end

