-- ==== Sys2Proof/Machine/Faults.lean ====
section
/-! DEFINITION. Traps and machine events taken, upcalls started, faults replayed, page responses, translations, hotness
records and scrubbing (R64, R112, R115, R116, R267 to R279, R285, R286). -/
namespace Sys2Proof.Machine

/-! ### Traps and machine events -/

/-- R64: a fetched pattern that is not an instruction. -/
def execIllegal (eval : Word) (s : State) : Host.Outcome State Fault Refusal := s.finish (.error (.trap ILLEGAL eval))

/-- R267: the next pending trap of a core, or its next machine event, is taken when the supervisor frame is free. -/
def execTrapEntry (core : Nat) (s : State) : Host.Outcome State Fault Refusal := .next (s.takeNext core)

/-- The frame that a machine event names: 15 for none (R265, R286). -/
def frameOf : EventSource → Nat
  | .frame f => if f < 10 then f else 15
  | _ => 15

/-- R286, R221; an error in a register frame is one of its cluster (R317). -/
def execMachineEvent (core : Nat) (source : EventSource) (eval : Word) (s : State) : Host.Outcome State Fault Refusal :=
  let s := if frameOf source = 15 then s else s.wearCluster (clusterOf core)
  .next (s.machine core (decide (source = .poison)) eval (frameOf source))

/-! ### Upcalls (R269, R271, R276, R278) -/

/-- The first waiting upcall of a kind starts, or the kernel takes it. -/
def State.upcallOfKind (s : State) (core : Nat) (kind : Start → Bool) : State :=
  match s.nextStart core kind with
  | some u => (s.takeStart core u).startUpcall core u
  | none => s

/-- R269. -/
def execTrapUpcall (core : Nat) (s : State) : Host.Outcome State Fault Refusal :=
  .next (s.upcallOfKind core (fun u => match u with
    | .trap _ _ _ _ _ _ => true
    | _ => false))

/-- R271. -/
def execFaultUpcall (core : Nat) (s : State) : Host.Outcome State Fault Refusal :=
  .next (s.upcallOfKind core (fun u => match u with
    | .frameFault _ _ _ _ _ _ _ _ => true
    | _ => false))

/-- R276. -/
def execMemorySideUpcall (core : Nat) (s : State) : Host.Outcome State Fault Refusal :=
  .next (s.upcallOfKind core (fun u => match u with
    | .memory _ _ _ _ _ _ _ _ => true
    | _ => false))

/-- R278. -/
def execPageRequestUpcall (core : Nat) (s : State) : Host.Outcome State Fault Refusal :=
  .next (s.upcallOfKind core (fun u => match u with
    | .page _ _ _ _ => true
    | _ => false))

/-! ### Replay (R277) -/

/-- Sectors of a request no longer wait in a fault queue; each is performed now unless it must come later (R196). -/
def State.replaySectors (s : State) (cl id : Nat) (sectors : List Nat) : State :=
  let s := s.onReq cl id (fun q => { q with
    held := q.held.filter (fun i => !sectors.contains i)
    ending := if q.ending = 2 then 0 else q.ending })
  sectors.foldl (fun s i =>
    match (s.clusterAt cl).accepted.find? (fun q => decide (q.id = id)) with
    | some q => if q.ending ≠ 3 ∧ i < q.count ∧ !q.done.contains i ∧ !q.held.contains i ∧ !q.busy i ∧ q.inOrder i then s.copySector cl q i else s
    | none => s) s

/-- A replaying record is freed and what it holds is performed, once (R277). -/
def State.replay (s : State) (die : Nat) (r : FRec) : Served :=
  let t := s.freeRecord die r.index
  match r.held with
  | .request q =>
    (match t.serve q with
    | .done u => .done u
    | .held => .done (t.hold (.remoteRequest q))
    | .hole a => .hole a)
  | .copy cl id sectors => .done (t.replaySectors cl id sectors)
  | .matrix cl _ uid part sectors =>
    let t := t.onJob cl uid (fun j => { j with intake := j.intake.freed part sectors })
    (match (t.clusterAt cl).running with
    | some j => .done (if j.uid = uid ∧ !j.failed then (t.readOperands cl j).1 else t)
    | none => .done t)
  | .media d id part sectors =>
    let t := t.onMedia d id (fun q => { q with intake := q.intake.freed part sectors })
    (match (t.dieAt d).media.find? (fun q => decide (q.id = id)) with
    | some q => .done (if q.result.isNone then t.mediaFetch d q else t)
    | none => .done t)
  | .member req coll ctx oid base len data =>
    (match t.member req coll ctx oid base len data with
    | .done u => .done u
    | .held u => .done (u.hold (match data with
      | none => .memberRead req coll ctx oid base len
      | some bs => .memberWrite req coll ctx oid base bs)))
  | .nothing => .done t

/-- PASID of a record's object. -/
def State.pasidOf (s : State) (r : FRec) : Option Nat := (s.descAt (s.ctxAt r.ctx) r.oid).map (·.pasid)

/-- A record of a host page replays once the die has the page's translation anew (R112, R277). -/
def State.replayReady (s : State) (die : Nat) (r : FRec) : Bool :=
  decide (r.kind ≠ 2) || (match s.pasidOf r with
    | some p => (s.translation die p r.page false).isSome
    | none => true)

/-- R277: the records that replay do so in ascending index. -/
def execFaultReplay (die index : Nat) (s : State) : Host.Outcome State Fault Refusal :=
  let q := (s.dieAt die).faultq
  match q.find? (fun r => decide (r.index = index ∧ r.state = 2)) with
  | none => .next s
  | some r =>
    if q.any (fun x => decide (x.state = 2 ∧ x.index < index)) || !s.replayReady die r then .next s
    else match s.replay die r with
      | .done t => .next t
      | .held => .next s
      | .hole a => .fault (.hole a)

/-! ### Page requests (R278, R279) -/

/-- A response covers a record of kind 2: its page, under its PASID. -/
def State.covers (s : State) (q : PageReq) (r : FRec) : Bool :=
  decide (r.kind = 2 ∧ r.state ≠ 3 ∧ r.page = q.page ∧ s.pasidOf r = some q.pasid)

/-- The digest of a copy request of another device (R197). -/
def isDigest : ReqOp → Bool
  | .barDigest _ => true
  | _ => false

/-- A record whose page request failed (R279). -/
def State.failRecord (s : State) (die : Nat) (r : FRec) : State :=
  let t := s.freeRecord die r.index
  match r.held with
  | .request q =>
    if isDigest q.op then (t.updateBarrier q.ctx q.oid q.off (.err 92)).digestArrives q
    else if q.agent ≠ 0 ∨ q.returns then t.sendNotice q .failed
    else (t.addRecord die q.home (requestRec q 5 3 r.page .nothing)).sendAck q
  | .copy cl id _ =>
    (match (t.clusterAt cl).accepted.find? (fun q => decide (q.id = id)) with
    | some q =>
      if q.ending = 2 then (t.updateBarrier q.ctx q.bar.oid q.bar.base.toNat (.err 92)).arriveReq cl q else t.abortReq cl q
    | none => t)
  | .matrix cl _ uid _ _ => t.onJob cl uid (fun j => { j with failed := true })
  | .media d id _ _ =>
    (match (t.dieAt d).media.find? (fun q => decide (q.id = id)) with
    | some q => t.mediaAbort d q
    | none => t)
  | .member req coll k oid base _ _ =>
    t.answerMember (((t.memberArrival req coll k oid base).getD (0, 0, 0)).1 % 4096) req coll k true []
  | .nothing => t

/-- The covered records of every die, in ascending index. -/
def State.coveredBy (s : State) (q : PageReq) : List (Nat × Nat) :=
  s.dies.flatMap (fun p => (((p.2.faultq.filter (s.covers q)).map (·.index)).mergeSort (· ≤ ·)).map (fun i => (p.1, i)))

/-- A stale translation leaves every die's cache (R277), with the range that it was granted for. -/
def State.dropAts (s : State) (pasid page : Nat) : State :=
  { s with dies := s.dies.map (fun p => (p.1, { p.2 with
      ats := p.2.ats.filter (fun t => decide (t.pasid ≠ pasid ∨ page < t.page ∨ t.page + t.count ≤ page)) })) }

/-- Every record that a response covers fails (R279). -/
def State.failCovered (s : State) (q : PageReq) : State :=
  (s.coveredBy q).foldl (fun s p =>
    match (s.dieAt p.1).faultq.find? (fun r => decide (r.index = p.2)) with
    | some r => s.failRecord p.1 r
    | none => s) s

/-- Every record that a response covers is to be replayed, with the page's translation asked for anew (R277, R278). -/
def State.replayCovered (s : State) (q : PageReq) : State :=
  (s.coveredBy q).foldl (fun s p =>
    let d := s.dieAt p.1
    (s.setDie p.1 { d with faultq := d.faultq.map (fun r => if r.index = p.2 then { r with state := 2 } else r) }).askTranslation p.1
      q.pasid q.page q.write) (s.dropAts q.pasid q.page)

/-- The upcall of a page-request response (R278). -/
def State.pageUpcall (s : State) (q : PageReq) (code : Nat) : State :=
  let c := s.coreAt q.core
  s.setCore q.core { c with
    starts := c.starts ++ [.page q.ctx q.value (BitVec.ofNat 64 code) (BitVec.ofNat 64 (bitOf q.write))] }

/-- A record that a response covers is still to be replayed. -/
def State.replaying (s : State) (q : PageReq) : Bool :=
  s.dies.any (fun p => p.2.faultq.any (fun r => decide (r.state = 2) && s.covers q r))

/-- A page request is answered (R278, R279): the records that it covers fail, or are replayed before its upcall. -/
def State.pageResponse (s : State) (q : PageReq) (code : Nat) : State :=
  if code ≠ 0 then (s.failCovered q).pageUpcall q code
  else
    let t := s.replayCovered q
    if t.replaying q then { t with pageDone := t.pageDone ++ [q] } else t.pageUpcall q 0

/-- The answers to page requests of a context that was EVICTED when they came take effect once it has been restored, under its PASID
of then (log 102); those of one that is gone are dropped. Of the answered requests, the first whose records have been replayed has its upcall
(R278). -/
def execPageAnswered (s : State) : Host.Outcome State Fault Refusal :=
  match s.pageLate.find? (fun q => decide ((s.ctxAt q.1.ctx).state ≠ .evicted)) with
  | some q =>
    let t : State := { s with pageLate := s.pageLate.erase q }
    let x := s.ctxAt q.1.ctx
    .next (if x.state = .gone then t else t.pageResponse { q.1 with pasid := x.pasid.toNat } q.2)
  | none =>
    match s.pageDone.find? (fun q => decide ((s.ctxAt q.ctx).state ≠ .evicted) && !s.replaying q) with
    | none => .next s
    | some q => .next (({ s with pageDone := s.pageDone.filter (fun x => decide (x ≠ q)) } : State).pageUpcall q 0)

/-- R278, R279: the index-th outstanding request is answered, 0 Success, 1 Invalid Request, 2 Response Failure. -/
def execPrgResponse (index code : Nat) (s : State) : Host.Outcome State Fault Refusal :=
  match s.pageReqs[index]? with
  | none => .next s
  | some q =>
    let t : State := { s with pageReqs := s.pageReqs.eraseIdx index }
    .next (if (s.ctxAt q.ctx).state = .evicted then { t with pageLate := t.pageLate ++ [(q, code)] } else t.pageResponse q code)

/-! ### Translations (R112) -/

/-- R112: an answer of the host enters the die's cache of 4,096 entries, for a range of up to 2 MiB that holds the page asked for,
and the accesses that waited go on. -/
def execTranslationCompletion (die pasid : Nat) (range : PageRange) (r w : Bool) (s : State) : Host.Outcome State Fault Refusal :=
  let d := s.dieAt die
  let page := range.page
  let n := max 1 (min 512 range.count)
  match d.asked.find? (fun q => decide (q.1 = pasid ∧ page ≤ q.2.1 ∧ q.2.1 < page + n)) with
  | none => .next s
  | some q =>
    let rest := d.ats.filter (fun t => decide (t.pasid ≠ pasid ∨ t.page + t.count ≤ page ∨ page + n ≤ t.page))
    let all := rest ++ [Trans.mk pasid page n r w q.2.2]
    .next (s.setDie die { d with
      asked := d.asked.filter (fun x => decide (x.1 ≠ pasid ∨ x.2.1 ≠ q.2.1))
      ats := all.drop (all.length - 4096) })

/-- R112: a translation goes from every die; the requests that used it have been performed. -/
def execAtsInvalidation (pasid page : Nat) (s : State) : Host.Outcome State Fault Refusal :=
  .next ((s.dropAts pasid page).emit (.invalidated pasid page))

/-! ### Hotness records (R115, R116) -/

/-- The record object of a tenant on a die, when it can take the sections. One whose FLAGS.HOTREC is cleared while it is live goes on
taking records (DESIGN CHOICE, log 109). -/
def State.hotObject (s : State) (die k : Nat) : Option Desc :=
  match look (s.dieAt die).hotrec k with
  | none => none
  | some oid => match s.liveAt (s.ctxAt k) oid with
    | some d => if 3264 ≤ d.size then some d else none
    | none => none

/-- A memory controller's write of bytes into a record object. One whose page is not mapped is lost, which the spec does not
say (log 33). -/
def State.deviceWrite (s : State) (die k : Nat) (d : Desc) (off : Nat) (bs : List Byte) : State :=
  match s.enginePieces (s.ctxAt k) d off bs.length die true with
  | .ok ps => (s.engineWrite (s.homeOf (s.ctxAt k) d 0 % 4096) k 4 d.oid ps bs []).1
  | .error _ => s

def State.deviceRead (s : State) (die k : Nat) (d : Desc) (off n : Nat) : Nat :=
  match s.enginePieces (s.ctxAt k) d off n die false with
  | .ok ps => leNat (s.engineBytes k d.oid ps).1
  | .error _ => 0

/-- The tenants of a die that have records written: those that hold a slot there, each with its record object (R114). -/
def State.hotTenants (s : State) (die : Nat) : List (Nat × Desc) :=
  let d := s.dieAt die
  (d.hotrec.map (·.1)).filterMap (fun k =>
    match look d.slotsOf k with
    | some slot => if slot < 16 then (s.hotObject die k).map (fun o => (k, o)) else none
    | none => none)

/-- What the write of a section meets: a page under migration, for which it waits (R111), or a translation to ask for. -/
def State.hotWait (s : State) (die ctl : Nat) (p : Nat × Desc) : Option State :=
  match s.enginePieces (s.ctxAt p.1) p.2 (1088 * ctl) 1088 die true with
  | .error .held => some s
  | .error (.ask pasid page write) => some (s.askTranslation die pasid page write)
  | _ => none

/-- The interval of a tenant in ns: INTERVAL of section 0, in µs, between 100 and 100,000. -/
def State.hotInterval (s : State) (die k : Nat) (d : Desc) : Nat :=
  1000 * max 100 (min 100000 (s.deviceRead die k d 16 4))

/-- The 16 bytes of an entry (R115). -/
def State.hotEntry (s : State) (k : Nat) (t : Sketch) (key : Nat) : List Byte :=
  let oid := bitsOf key 59 20
  let page := bitsOf key 19 0
  let tier := match s.liveAt (s.ctxAt k) (BitVec.ofNat 40 oid) with
    | some d => (s.pageEntry (s.ctxAt k) d page).ptier
    | none => 0
  leBytes 5 oid ++ leBytes 3 page ++ leBytes 2 (t.estimate key) ++ leBytes 1 tier ++ leBytes 5 0

/-- The record of one tenant: entries, COUNT, TOTAL, TEND, and SEQ two higher (R116). -/
def State.writeHot (s : State) (die ctl k : Nat) (d : Desc) (t : Sketch) : State :=
  let base := 1088 * ctl
  let seq := s.deviceRead die k d base 8
  let slot := (look (s.dieAt die).slotsOf k).getD 16
  let keys := ((look t.cands slot).getD []).mergeSort (fun a b =>
    decide (t.estimate b < t.estimate a ∨ (t.estimate a = t.estimate b ∧ a ≤ b)))
  let s := (List.range keys.length).foldl (fun s i =>
    s.deviceWrite die k d (base + 64 + 16 * i) (s.hotEntry k t (keys.getD i 0))) s
  let s := s.deviceWrite die k d (base + 20) (leBytes 2 keys.length)
  let s := s.deviceWrite die k d (base + 24) (leBytes 8 (min ((look t.totals slot).getD 0) (2 ^ 64 - 1)))
  let s := s.deviceWrite die k d (base + 8) (leBytes 8 s.ftime)
  s.deviceWrite die k d base (leBytes 8 (seq + 2))

/-- R116: at the end of an interval the controller writes every tenant's record and clears its sketch. The interval is the
shortest that a record object of the die names (log 33). -/
def execHotRecordInterval (die ctl : Nat) (s : State) : Host.Outcome State Fault Refusal :=
  let t := (look (s.dieAt die).sketches ctl).getD ⟨[], [], [], 0⟩
  let ks := s.hotTenants die
  if ctl < 3 ∧ ks.any (fun p => decide (t.since + s.hotInterval die p.1 p.2 ≤ s.ftime)) then
    match ks.findSome? (s.hotWait die ctl) with
    | some u => .next u
    | none =>
    let u := ks.foldl (fun s p => s.writeHot die ctl p.1 p.2 t) s
    let y := u.dieAt die
    .next (u.setDie die { y with sketches := put y.sketches ctl ⟨[], [], [], u.ftime⟩ })
  else .next s

/-! ### Corrected errors (R285, R316, R317) -/

/-- The memory that holds a flat address of the device. The channel of an HBM address is the root's mapping (R315; log 92). -/
def memoryAt (a : Nat) : Option MemUnit :=
  if a < 2 ^ 42 then some (if a % 2 ^ 40 < 0x80000000 then .stacked (a / 2 ^ 40) else .hbm (a / 2 ^ 40) (Config.hbmChannel a))
  else if 2 ^ 43 ≤ a ∧ a < 2 ^ 44 then some (.tcm ((a - 2 ^ 43) / 2 ^ 17))
  else if 2 ^ 44 ≤ a ∧ a < 2 ^ 45 then some (.pad ((a - 2 ^ 44) / 2 ^ 21))
  else none

/-- The cluster whose memory one is. -/
def MemUnit.cluster : MemUnit → Option Nat
  | .tcm n => some (clusterOf n)
  | .pad c => some c
  | .code c => some c
  | .accumulators n => some (clusterOf n)
  | .lut n => some (clusterOf n)
  | .frames n => some (clusterOf n)
  | _ => none

/-- The cluster whose TCM or scratchpad holds a flat address. -/
def clusterAtAddr (a : Nat) : Option Nat := (memoryAt a).bind MemUnit.cluster

/-- One more of a memory's or lane's. -/
def bump (m : List (MemUnit × Nat)) (u : MemUnit) : List (MemUnit × Nat) :=
  if m.any (fun p => p.1 = u) then m.map (fun p => if p.1 = u then (u, p.2 + 1) else p) else m ++ [(u, 1)]

/-- An error that a memory or a lane has corrected is counted: for good, and for a cluster's memories among those of the last hour
(R285, R316, R317). -/
def State.countError (s : State) (u : MemUnit) : State :=
  let s : State := { s with corrected := bump s.corrected u }
  match u.cluster with
  | some c =>
    let y := s.clusterAt c
    s.setCluster c { y with errors := y.errors.filter (fun t => decide (s.ftime < t + 3600000000000)) ++ [s.ftime] }
  | none => s

/-- R285: scrubbing goes on from where it stood; what it corrects reads as before and is counted. -/
def execScrub (lo hi : Nat) (fixed : List Nat) (s : State) : Host.Outcome State Fault Refusal :=
  if lo ≤ s.scrubAt ∧ s.scrubAt ≤ hi then
    .next ((fixed.filterMap memoryAt).foldl (fun s u => s.countError u) { s with scrubAt := hi })
  else .next s

end Sys2Proof.Machine
end

