-- ==== Sys2Proof/Machine/Rings.lean ====
section
/-! DEFINITION. Submission rings (R293 to R299): their registers, the front end, packets, marks and fences. -/
namespace Sys2Proof.Machine

/-! ### Registers (R294) -/

/-- State 0 OFF, 1 RUN, 2 QERR, and the cause. -/
def Ring.state (x : Ring) : Nat := bitsOf x.rstate.toNat 1 0

def Ring.enabled (x : Ring) : Bool := x.rctl.getLsbD 0

/-- A size that R294 allows. -/
def ringSizeOk (n : BitVec 32) : Bool := decide (16 ≤ n.toNat ∧ n.toNat ≤ 65536) && n &&& (n - 1) == 0

/-- Sizes and addresses keep the limits of R294. -/
def Ring.limits (x : Ring) : Bool :=
  ringSizeOk x.rsize && ringSizeOk x.csize && x.rbase.toNat % 4096 = 0 && x.cbase.toNat % 4096 = 0

/-- Bit i of RCTL. -/
def Ring.setCtl (x : Ring) (i : Nat) (b : Bool) : Ring :=
  { x with rctl := BitVec.ofNat 32 (x.rctl.toNat - bitsOf x.rctl.toNat i i * 2 ^ i + bitOf b * 2 ^ i) }

/-- TotalVFs, First VF Offset, VF Stride and the MSI-X vectors of the PF and of each VF (R292). A function is named by its offset from
the PF, which is the number of the VF. -/
def totalVfs : Nat := 384
def firstVfOffset : Nat := 1
def vfStride : Nat := 1
def pfVectors : Nat := 8
def vfVectors : Nat := 17

/-- A VF that the device has (R292). -/
def vfExists (vf : Nat) : Bool := decide (firstVfOffset ≤ vf ∧ vf < firstVfOffset + totalVfs * vfStride)

/-- The registers of a ring as they lie in its page (R294); RESET reads 0. -/
def Ring.bytes (x : Ring) : List Byte :=
  leBytes 8 x.rbase.toNat ++ leBytes 4 x.rsize.toNat ++ leBytes 4 (x.rctl &&& 5).toNat ++ leBytes 4 x.tail.toNat ++
    leBytes 4 x.head.toNat ++ leBytes 8 x.cbase.toNat ++ leBytes 4 x.csize.toNat ++ leBytes 4 x.chead.toNat ++
    leBytes 4 x.ctail.toNat ++ leBytes 4 x.rstate.toNat ++ leBytes 8 x.maddr.toNat

/-- What a VF's BAR reads (R293): the registers of its sixteen rings, and zero elsewhere. -/
def State.vfByte (s : State) (vf off : Nat) : Byte :=
  if off < 0x1000 then (s.ringAt vf (off / 0x100)).bytes.getD (off % 0x100) 0 else 0

/-- The host cannot reach the registers of a VF in RUN; the tenant can (R293). -/
def State.hostReaches (s : State) (vf : Nat) : Bool := decide ((s.vfAt vf).tdi ≠ .run)

/-- The VF whose registers a write of the host goes to. -/
def ringWrite : Instr → Option Nat
  | .ringDoorbell vf _ _ => some vf
  | .completionHead vf _ _ => some vf
  | .ringEnable vf _ _ => some vf
  | .ringReset vf _ _ => some vf
  | .ringInterruptEnable vf _ _ => some vf
  | .registerWrite vf _ _ => some vf
  | _ => none

/-- Free completion entries: from CTAIL up to CHEAD − 1 modulo CSIZE, all of them where the two are equal (R294). -/
def Ring.free (x : Ring) : Nat := (x.chead.toNat + 2 * x.csize.toNat - x.ctail.toNat - 1) % x.csize.toNat + 1

/-- Free completion entries that nothing has reserved (R297). -/
def Ring.spare (x : Ring) : Nat := x.free - x.reserved

/-! ### The front end (R297, R298) -/

/-- The context whose rings a VF's are. -/
def State.ctxOfVf (s : State) (vf : Nat) : Option Nat :=
  s.contexts.findSome? (fun p => if p.2.vf = vf ∧ vf ≠ 0 ∧ p.2.state ≠ .gone then some p.1 else none)

/-- The must-be-zero fields of a packet (R295, R296). -/
def packetClean (ty w : Nat) : Bool :=
  let flags := bitsOf w 31 24
  let cls := bitsOf w 23 16
  bitsOf w 15 12 = 0 &&
  (if ty = 1 then
    flags < 16 && bitsOf w 127 104 = 0 && (bitsOf flags 3 3 = 0 || bitsOf w 103 64 = 0) && bitsOf w 191 152 = 0 &&
      (bitsOf flags 2 2 = 1 || bitsOf w 255 192 = 0) && bitsOf w 1023 768 = 0
   else if ty = 4 then cls = 0 && flags < 2
   else cls = 0 && flags = 0)

/-- Lengths that a type allows (R296). -/
def lenAllowed (ty len : Nat) : Bool := if ty = 1 then len = 2 else if ty = 3 then len = 1 else true

/-- The message that a MSG packet makes (R298). -/
def State.packetMsg (s : State) (vf r w : Nat) : Msg where
  host := true
  sl := bitsOf w 27 27 = 1
  dlv := bitsOf w 26 26 = 1
  rq := bitsOf w 24 24 = 1
  u := bitsOf w 25 25 = 1
  nw := 7
  stripe := 0
  deadline := BitVec.ofNat 64 (bitsOf w 255 192)
  gen := (s.vfAt vf).gen
  slotseq := 0
  slot := 0
  sender := BitVec.ofNat 22 (vf * 16 + r)
  objid := BitVec.ofNat 40 (bitsOf w 103 64)
  modid := BitVec.ofNat 24 (bitsOf w 151 128)
  cls := BitVec.ofNat 8 (bitsOf w 23 16)
  payload := (List.range 8).map (fun i => BitVec.ofNat 64 (bitsOf w (319 + 64 * i) (256 + 64 * i)))

/-- A ticket for a message that the ring has consumed. -/
def State.ticket (s : State) (vf r : Nat) (seq : BitVec 32) (m : Msg) (stage : Nat) (holds : Bool) : State × Nat :=
  let x := s.ringAt vf r
  let old := x.tickets.filter (fun q => decide (q.stage < 2) || q.holds || x.marks.any (fun k => decide (q.n < k.1)))
  (s.setRing vf r { x with tickets := old ++ [⟨x.next, seq, m.objid, m.rq, holds, stage, 0⟩], next := x.next + 1 }, x.next)

/-- A message goes to a core of the device; none when its queue is full. -/
def State.ringQueue (s : State) (vf r n : Nat) (seq : BitVec 32) (m : Msg) : Option State :=
  if s.takesMessages n && s.roomAt n m.u = 0 then none
  else
    let q := s.ticket vf r seq m 0 true
    let o := Origin.ring vf r q.2
    if s.takesMessages n then some (q.1.enqueue n m o)
    else
      let e : QEntry := ⟨m, s.ftime, 0, o, false⟩
      some ((q.1.answerUnrun n e 2 0).stageOf n e 2 s.ftime)

/-- A message goes to another device; none when its queue there is full, or cannot be reached. Its SLOTSEQ names the ticket in
what that device tells of it (log 83). -/
def State.ringFar (s : State) (vf r home : Nat) (seq : BitVec 32) (m : Msg) : Option State :=
  if s.unreachable.contains (home / 4096) || !Config.farReserve s.steps then none
  else
    let q := s.ticket vf r seq m 0 true
    some (q.1.emit (.message home { m with slotseq := BitVec.ofNat 16 q.2 }))

/-- What another device tells of a message of a ring: the ticket that its sequence number names. -/
def State.ticketOf (s : State) (vf r : Nat) (seq : BitVec 16) : Option Ticket :=
  (s.ringAt vf r).tickets.find? (fun q => decide (BitVec.ofNat 16 q.n = seq ∧ q.stage < 2) || (decide (BitVec.ofNat 16 q.n = seq) && q.holds))

/-- R298: the message runs or has ended there; 3 tells that it was struck (R283). Its reservation is released when it runs without
a reply, or was struck. -/
def State.ringStage (s : State) (vf r : Nat) (seq : BitVec 16) (stage dtime : Nat) : State :=
  match s.ticketOf vf r seq with
  | none => s
  | some q =>
    let s := s.onTicket vf r q.n (fun q => { q with stage := min stage 2, dtime := dtime })
    if q.holds && ((decide (stage = 1) && !q.rq) || decide (stage = 3)) then
      (s.onTicket vf r q.n (fun q => { q with holds := false })).releaseReservation vf r
    else s

/-- R298, R299: the reply comes, or the message ended unrun there. -/
def State.ringReply (s : State) (vf r : Nat) (seq : BitVec 16) (st dtime : Nat) (words : List Word) : State :=
  match s.ticketOf vf r seq with
  | none => s
  | some q => if q.holds then s.ringAnswer vf r q.n dtime st words else s

/-- A packet that the front end turns away completes at once, before HEAD moves: with a DMA error on that write HEAD stays
at it (R297). -/
def State.turnAway (s : State) (vf r head : Nat) (seq : BitVec 32) (oid : BitVec 40) (kind st : Nat) : State :=
  let t := s.complete vf r seq oid kind st 0 []
  let y := t.ringAt vf r
  if y.state = 2 then t.setRing vf r { y with head := BitVec.ofNat 32 head } else t

/-- A valid MSG packet (R298); none when it stays at HEAD. The reservation is made. -/
def State.actMsg (s : State) (vf r head w : Nat) : Option State :=
  let seq := BitVec.ofNat 32 (bitsOf w 63 32)
  let m := s.packetMsg vf r w
  match s.ctxOfVf vf with
  | none => none
  | some k =>
    let x := s.ctxAt k
    let p := x.cores
    if m.sl then s.ringQueue vf r (p.getD (seq.toNat % p.length) 0) seq m
    else match s.liveAt x m.objid with
      | none => some (s.turnAway vf r head seq m.objid 3 5)
      | some d =>
        if s.far d then s.ringFar vf r d.home seq { m with objid := BitVec.ofNat 40 d.xbase }
        else s.ringQueue vf r (s.homeOf x d 0 % 4096) seq m

/-- The rings of a VF are read: its context runs, or is paused; a doorbell of a context that is BOUND or EVICTED is
recorded and read once it runs (R319). -/
def State.ringsRead (s : State) (vf : Nat) : Bool :=
  match s.ctxOfVf vf with
  | some k => decide ((s.ctxAt k).state = .running ∨ (s.ctxAt k).state = .paused)
  | none => false

/-- The front end takes one packet (R297); none when it waits, or stands still. -/
def State.serveOne (s : State) (vf r : Nat) : Option State :=
  let x := s.ringAt vf r
  let head := x.head.toNat
  let tail := x.tail.toNat
  let size := x.rsize.toNat
  if x.state ≠ 1 ∨ head = tail ∨ s.ringsRead vf = false then none
  else if size ≤ tail then some (s.ringError vf r 4)
  else
    let base := dmaAddr vf (x.rbase.toNat + 64 * head)
    let h := s.readNat base 8
    let len := bitsOf h 11 8
    if (s.badAt base 8).isSome then some (s.dmaError vf r base 8)
    else if len = 0 then some (s.ringError vf r 1)
    else if 4 < len then some (s.ringError vf r 2)
    else if size < head + len then some (s.ringError vf r 3)
    else if (tail + size - head) % size < len then none
    else if x.spare = 0 then none
    else if (s.badAt base (64 * len)).isSome then some (s.dmaError vf r base (64 * len))
    else
      let w := s.readNat base (64 * len)
      let ty := bitsOf w 7 0
      let seq := BitVec.ofNat 32 (bitsOf w 63 32)
      let after := (head + len) % size
      let oid : BitVec 40 := if ty = 1 then BitVec.ofNat 40 (bitsOf w 103 64) else 0
      let t := s.setRing vf r { x with head := BitVec.ofNat 32 after, reserved := x.reserved + 1 }
      let y := t.ringAt vf r
      if ty = 0 ∨ 4 < ty then some (t.turnAway vf r head seq oid 1 0x10)
      else if !lenAllowed ty len then some (t.turnAway vf r head seq oid 1 0x12)
      else if !packetClean ty w then some (t.turnAway vf r head seq oid 1 0x11)
      else if ty = 1 then t.actMsg vf r head w
      else if ty = 3 then
        some ((t.setRing vf r { y with marks := y.marks ++ [(y.next, after, seq)] }).releaseReservation vf r)
      else if ty = 4 ∧ bitsOf w 24 24 = 1 then some (t.setRing vf r { y with fences := y.fences ++ [(y.next, seq, 0)] })
      else some (t.releaseReservation vf r)

/-- The front end serves a ring for at most so many packets. -/
def State.serveRing (s : State) (vf r : Nat) : Nat → State
  | 0 => s
  | fuel + 1 => match s.serveOne vf r with
    | some t => t.serveRing vf r fuel
    | none => s

/-- The units that TAIL has published. -/
def Ring.published (x : Ring) : Nat := if x.rsize = 0 then 1 else (x.tail.toNat + x.rsize.toNat - x.head.toNat) % x.rsize.toNat + 1

def State.serveAll (s : State) (vf r : Nat) : State := s.serveRing vf r (s.ringAt vf r).published

/-! ### Writes of the host -/

/-- R294, R297: TAIL is written and the front end serves the ring. -/
def execRingDoorbell (vf ring tail : Nat) (s : State) : Host.Outcome State Fault Refusal :=
  if vfExists vf = false ∨ 16 ≤ ring then .next s
  else .next ((s.setRing vf ring { s.ringAt vf ring with tail := BitVec.ofNat 32 tail }).serveAll vf ring)

/-- R294: CHEAD is written, which frees completion entries. -/
def execCompletionHead (vf ring head : Nat) (s : State) : Host.Outcome State Fault Refusal :=
  if vfExists vf = false ∨ 16 ≤ ring then .next s
  else .next ((s.setRing vf ring { s.ringAt vf ring with chead := BitVec.ofNat 32 head }).serveAll vf ring)

/-- R294, R283: EN is written; a ring enabled from OFF starts its mark at HEAD. -/
def execRingEnable (vf ring : Nat) (en : Bool) (s : State) : Host.Outcome State Fault Refusal :=
  let x := (s.ringAt vf ring).setCtl 0 en
  let y :=
    if en then
      (if x.state = 0 then
        if x.limits then { x with rstate := ringState 1 0, mark := x.head.toNat } else { x with rstate := ringState 0 6 }
       else x)
    else if x.state = 1 then { x with rstate := ringState 0 0 } else x
  if vfExists vf = false ∨ 16 ≤ ring then .next s else .next ((s.setRing vf ring y).serveAll vf ring)

/-- R294: RESET; packets already consumed keep their dispatch and completions, and marks not yet in effect are gone
with the indexes they name (log 34). -/
def execRingReset (vf ring : Nat) (en : Bool) (s : State) : Host.Outcome State Fault Refusal :=
  let x := (s.ringAt vf ring).setCtl 0 en
  if vfExists vf = false ∨ 16 ≤ ring then .next s else
  .next (s.setRing vf ring { x with
    head := 0, tail := 0, ctail := 0, phase := true, mark := 0, marks := []
    rstate := if en then (if x.limits then ringState 1 0 else ringState 0 6) else ringState 0 0 })

/-- R294. -/
def execRingInterruptEnable (vf ring : Nat) (ie : Bool) (s : State) : Host.Outcome State Fault Refusal :=
  if vfExists vf = false ∨ 16 ≤ ring then .next s else .next (s.setRing vf ring ((s.ringAt vf ring).setCtl 2 ie))

/-- R293, R294: a register of a VF's BAR that a write only stores to. RBASE, RSIZE, CBASE and CSIZE take a write while
the ring is OFF; the rest of the BAR discards it. -/
def execRegisterWrite (vf offset : Nat) (value : Word) (s : State) : Host.Outcome State Fault Refusal :=
  let r := offset / 0x100
  let x := s.ringAt vf r
  if vfExists vf = false ∨ 16 ≤ r then .next s
  else
    let off := decide (x.state = 0)
    match offset % 0x100 with
    | 0x00 => .next (if off then s.setRing vf r { x with rbase := value } else s)
    | 0x08 => .next (if off then s.setRing vf r { x with rsize := value.setWidth 32 } else s)
    | 0x18 => .next (if off then s.setRing vf r { x with cbase := value } else s)
    | 0x20 => .next (if off then s.setRing vf r { x with csize := value.setWidth 32 } else s)
    | 0x30 => .next (s.setRing vf r { x with maddr := value })
    | _ => .next s

/-! ### Packets -/

/-- The packet at HEAD has a type, and the front end takes it. -/
def State.servePacket (s : State) (vf r ty : Nat) : State :=
  let x := s.ringAt vf r
  if s.readNat (dmaAddr vf (x.rbase.toNat + 64 * x.head.toNat)) 1 = ty then (s.serveOne vf r).getD s else s

/-- R298. -/
def execMsg (vf ring : Nat) (s : State) : Host.Outcome State Fault Refusal := .next (s.servePacket vf ring 1)

/-- R296, R298. -/
def execPad (vf ring : Nat) (s : State) : Host.Outcome State Fault Refusal := .next (s.servePacket vf ring 2)

/-- R298. -/
def execReplaymark (vf ring : Nat) (s : State) : Host.Outcome State Fault Refusal := .next (s.servePacket vf ring 3)

/-- R298. -/
def execNopPacket (vf ring : Nat) (s : State) : Host.Outcome State Fault Refusal := .next (s.servePacket vf ring 4)

/-- R298, R74: a message that stayed at HEAD is tried again, and the ring goes on behind it. -/
def execRingPacketRetry (vf ring : Nat) (s : State) : Host.Outcome State Fault Refusal := .next (s.serveAll vf ring)

/-! ### Marks and fences (R283, R298) -/

/-- Every message consumed before a ticket has reached a stage. -/
def Ring.reached (x : Ring) (bound stage : Nat) : Bool := x.tickets.all (fun q => decide (bound ≤ q.n ∨ stage ≤ q.stage))

/-- R298: the oldest mark takes effect once every message before it has ended. -/
def execReplaymarkEffect (vf ring : Nat) (s : State) : Host.Outcome State Fault Refusal :=
  let x := s.ringAt vf ring
  match x.marks with
  | [] => .next s
  | (bound, i, seq) :: ms =>
    if x.reached bound 2 then
      let t := s.setRing vf ring { x with mark := i, marks := ms }
      .next (if x.maddr = 0 then t
        else t.writeBytes (dmaAddr vf x.maddr.toNat) (leBytes 8 (seq.toNat * 2 ^ 32 + i)) none)
    else .next s

/-- R298: a fence completes once every message before it has been dispatched. -/
def execNopFenceComplete (vf ring : Nat) (s : State) : Host.Outcome State Fault Refusal :=
  let x := s.ringAt vf ring
  match x.fences.find? (fun q => x.reached q.1 1) with
  | none => .next s
  | some q =>
    let t := s.setRing vf ring { x with fences := x.fences.filter (fun p => decide (p ≠ q)) }
    .next (t.complete vf ring q.2.1 q.2.2 2 0 0 [])

/-- After a strike an enabled ring is consumed again from its mark (R283). -/
def Ring.rewind (x : Ring) : Ring :=
  if x.state = 0 then { x with reserved := 0, tickets := [], marks := [], fences := [] }
  else { x with head := BitVec.ofNat 32 x.mark, reserved := 0, tickets := [], marks := [], fences := [] }

end Sys2Proof.Machine
end

