-- ==== Sys2Proof/Machine/System.lean ====
section
/-! DEFINITION. The system instructions: special registers (R53, R54, R380 to R382), traps and returns (R268, R270, R341,
R367, R426), FRESUME (R274), SAFE (R281, R411), fences (R126), PAUSE, WAITA, HBAR, NOP. -/
namespace Sys2Proof.Machine

/-! ### Special registers -/

/-- The pattern of MFS (sub 2) or MTS (sub 3), as EVAL of ILLEGAL (R54, R64). -/
def srPattern (sub : Nat) (r : BitVec 12) (d : BitVec 5) : Word :=
  BitVec.ofNat 64 (sub * 2 ^ 28 + r.toNat * 2 ^ 12 + d.toNat * 2 ^ 7 + 0x35)

/-- The registers that R53 lists for every frame, and those for the supervisor alone. -/
def srListed (r : BitVec 12) : Bool := decide (r.toNat ≤ 5 ∨ (0x10 ≤ r.toNat ∧ r.toNat ≤ 0x17) ∨ r = 0x20 ∨ r = 0x21)
def srSupervisor (r : BitVec 12) : Bool := decide (0x100 ≤ r.toNat ∧ r.toNat ≤ 0x107)
def srReadOnly (r : BitVec 12) : Bool := decide (1 ≤ r.toNat ∧ r.toNat ≤ 5) || r == 0x21

/-- AccessCheck (R54). -/
def srCheck (f : Nat) (r : BitVec 12) (d : BitVec 5) (write : Bool) : Res Unit :=
  let bad := srPattern (if write then 3 else 2) r d
  if 0x100 ≤ r.toNat ∧ r.toNat ≤ 0x1FF ∧ f ≠ 10 then .error (.trap PRIV 0)
  else if write && srReadOnly r then .error (.trap ILLEGAL bad)
  else if srListed r || srSupervisor r then .ok () else .error (.trap ILLEGAL bad)

/-- The value of a special register (R53). -/
def State.srRead (s : State) (n f : Nat) (r : BitVec 12) : Word :=
  let c := s.coreAt n
  let fr := c.frameAt f
  match r.toNat with
  | 0x000 => fr.status
  | 0x001 => BitVec.ofNat 64 f
  | 0x002 => BitVec.ofNat 64 (s.coreid n)
  | 0x003 => BitVec.ofNat 64 s.ftime
  | 0x004 => BitVec.ofNat 64 (s.cycles - c.born)
  | 0x005 => s.vctx n f
  | 0x010 => fr.dlnext
  | 0x011 => fr.clprio
  | 0x012 => fr.qrowlen
  | 0x013 => fr.barrot
  | 0x014 => fr.rstat
  | 0x015 => fr.clstat
  | 0x016 => fr.amoerr
  | 0x017 => c.dslack
  | 0x020 => c.fupc
  | 0x021 => fr.frec
  | 0x100 => c.epc
  | 0x101 => c.ecause
  | 0x102 => c.eval
  | 0x103 => c.sstatus
  | 0x104 => c.uquota
  | 0x105 => c.t1
  | 0x106 => c.t2
  | _ => c.t3

/-- A special register written (R382): reserved bits keep reading zero (R10), fields that only the device writes stand. -/
def State.srWrite (s : State) (n f : Nat) (r : BitVec 12) (v : Word) : State :=
  let c := s.coreAt n
  let fr := c.frameAt f
  match r.toNat with
  | 0x000 => s.setFrame n f { fr with status := statusMts fr.status v }
  | 0x010 => s.setFrame n f { fr with dlnext := v }
  | 0x011 => s.setFrame n f { fr with clprio := v &&& 0xFF }
  | 0x012 => s.setFrame n f { fr with qrowlen := v &&& 0x1FFFF }
  | 0x013 => s.setFrame n f { fr with barrot := v &&& 7 }
  | 0x014 => s.setFrame n f { fr with rstat := v &&& 0xFF }
  | 0x015 => s.setFrame n f { fr with clstat := v &&& 3 }
  | 0x016 => s.setFrame n f { fr with amoerr := v &&& 0xFFFFF0FFFFFFFFFF }
  | 0x017 => s.setCore n { c with dslack := v &&& 0xFFFFFFFF }
  | 0x020 => s.setCore n { c with fupc := v &&& 0xFFFFFFFFFFFFFF }
  | 0x100 => s.setCore n { c with epc := v }
  | 0x101 => s.setCore n { c with ecause := v &&& 0xFF }
  | 0x102 => s.setCore n { c with eval := v }
  | 0x103 => s.setCore n { c with sstatus := (c.sstatus &&& ~~~3) ||| (v &&& 3) }
  | 0x104 => s.setCore n { c with uquota := v &&& 0xFFFFFFFFFF }
  | 0x105 => s.setCore n { c with t1 := v &&& 0xFFFFFFFF }
  | 0x106 => s.setCore n { c with t2 := v &&& 0xFFFFFFFF }
  | 0x107 => s.setCore n { c with t3 := v &&& 0xFFFFFFFF }
  | _ => s

/-- R380. -/
def execMfs (r : BitVec 12) (d : BitVec 5) (s : State) : Host.Outcome State Fault Refusal :=
  s.finish (do
    srCheck s.frame r d false
    .ok (s.writeG d (s.srRead s.core s.frame r) 4))

/-- R380, R382. -/
def execMts (r : BitVec 12) (d : BitVec 5) (s : State) : Host.Outcome State Fault Refusal :=
  let x := s.cur.gpr d
  s.finish (do
    srCheck s.frame r d true
    if r = 0x20 ∧ x.getLsbD 0 then .error (.trap ILLEGAL x) else .ok ()
    .ok ((s.srWrite s.core s.frame r x).skip 4))

/-! ### Traps and returns -/

/-- R426: in the supervisor frame TRAP acts as NOP. -/
def execTrap (i : BitVec 16) (s : State) : Host.Outcome State Fault Refusal :=
  s.finish (if s.frame = 10 then .ok (s.skip 4) else .error (.trap TRAPCODE (zext64 i)))

/-- R341: in the supervisor frame BKPT acts as NOP. -/
def execBkpt (s : State) : Host.Outcome State Fault Refusal :=
  s.finish (if s.frame = 10 then .ok (s.skip 4) else .error (.trap BKPTCODE 0))

/-- R268, R52. -/
def execEret (s : State) : Host.Outcome State Fault Refusal :=
  s.finish (if s.frame = 10 then .ok (s.eret s.core) else .error (.trap PRIV 0))

/-- The supervisor frame waits after HALT; a trap or machine event that stands is taken at once. -/
def State.haltHere (s : State) : State := (s.setCur { s.cur.advance 4 with state := .free, wait := some .halted }).takeNext s.core

/-- R270, R367: the supervisor frame waits for the next trap, machine event or ladder step; the current trap stays
current. -/
def execHalt (s : State) : Host.Outcome State Fault Refusal :=
  s.finish (if s.frame = 10 then .ok s.haltHere else .error (.trap PRIV 0))

/-- R395. -/
def execNop32 (s : State) : Host.Outcome State Fault Refusal := .next (s.skip 4)

/-- R60, R395. -/
def execNop (s : State) : Host.Outcome State Fault Refusal := .next (s.skip 2)

/-! ### FRESUME (R274, R284) -/

/-- The reason for which a frame is parked, or was when the ladder stopped it. -/
def Frame.parkedFor (fr : Frame) : Option Park :=
  match fr.saved with
  | some v => if v.prior = .parked then fr.park else none
  | none => if fr.state = .parked then fr.park else none

/-- The length of the instruction at a frame's pc. -/
def State.lengthHere (s : State) (n f : Nat) : Nat :=
  match s.codeOf n f with
  | some code => lengthAt code (s.frameAt n f).pc.toNat
  | none => 4

/-- The state and the status that FRESUME gives for a token. -/
def State.fresume (s : State) (n : Nat) (t : Word) : State × Int :=
  let f := bitsOf t.toNat 3 0
  let act := bitsOf t.toNat 13 12
  let fr := s.frameAt n f
  if t.getLsbD 31 then (s, -2)
  else if 10 < f ∨ fr.faultSeq.toNat ≠ bitsOf t.toNat 63 32 then (s, -1)
  else
    match fr.parkedFor with
    | some .fault => if act ≠ 0 then (s, -3) else (s.wake n f id, 0)
    | some (.trapped _ _) =>
      if act = 0 then (s.wake n f id, 0)
      else if act = 1 then (s.wake n f (fun fr => fr.advance (s.lengthHere n f)), 0)
      else if act = 2 then (s.endFrame n f false, 0)
      else (s, -3)
    | _ => (s, -1)

/-- R274. -/
def execFresume (d : BitVec 5) (s : State) : Host.Outcome State Fault Refusal :=
  let q := s.fresume s.core (s.cur.gpr d)
  .next (q.1.status d q.2 4)

/-! ### SAFE (R281, R411) -/

/-- The registers that a live map lists are kept, and every other one reads zero after restore. -/
def Frame.keepLive (fr : Frame) (m : BitVec 32 × BitVec 32 × BitVec 16 × BitVec 8) : Frame :=
  { fr with
    g := Vector.ofFn (fun i => if m.1.getLsbD i.val then fr.g[i] else 0)
    v := Vector.ofFn (fun i => if m.2.1.getLsbD i.val then fr.v[i] else Vector.replicate 32 0)
    c := Vector.ofFn (fun i => if m.2.2.1.getLsbD i.val then fr.c[i] else Cap.null)
    k := Vector.ofFn (fun i => if m.2.2.2.getLsbD i.val then fr.k[i] else 0) }

/-- A frame is stopped by the ladder, to be READY at restore. -/
def Frame.stopReady (fr : Frame) : Frame := { fr with state := .stopped, wait := none, park := none, saved := some ⟨.ready, false⟩ }

/-- R281, R411. -/
def execSafe (i : BitVec 16) (s : State) : Host.Outcome State Fault Refusal :=
  if s.frame = 10 || !s.heavePending s.core then .next (s.skip 4)
  else
    let fr := s.cur.advance 4
    let fr := match s.versionOf s.core s.cur with
      | some v => (match look v.lives i.toNat with
        | some m => fr.keepLive m
        | none => fr)
      | none => fr
    .next (s.setCur fr.stopReady)

/-! ### Fences (R126) -/

/-- The full fence: the accesses within the reach are performed and the store buffer is drained. -/
def execFence (c : BitVec 3) (s : State) : Host.Outcome State Fault Refusal :=
  s.finish (do
    s.release s.core s.frame c.toNat true
    .ok (s.skip 4))

/-- The acquire fence: a frame's loads are performed before its next instruction anyhow. -/
def execFenceAcq (_c : BitVec 3) (s : State) : Host.Outcome State Fault Refusal := .next (s.skip 4)

/-- The release fence: the waits of R125 before any later store. The stores that are buffered stay before the later ones,
and a later load may pass them. -/
def execFenceRel (c : BitVec 3) (s : State) : Host.Outcome State Fault Refusal :=
  let r := reachOf c.toNat
  s.finish (
    if !s.cur.acked r then .error (.wait (.acks r))
    else
      let t := s.skip 4
      .ok (t.setCur { t.cur with relStores := t.cur.relStores || t.buffered t.core t.frame }))

/-! ### PAUSE, HBAR, WAITA -/

/-- R398. -/
def execPause (s : State) : Host.Outcome State Fault Refusal :=
  .next (s.setCur { s.cur.advance 4 with state := .ready, ready := s.ftime, pauseTo := s.cycles + 64 })

/-- The instance of a scope that holds a core (R4, R88). -/
def scopeInstance (sc n : Nat) : Nat :=
  if sc = 1 then n else if sc = 2 then n / 4 else if sc = 3 then n / 8 else if sc = 4 then n / 1024 else 0

/-- A core arrives in the current episode, once; at pod scope the device arrives with the last of its cores (R88). -/
def State.arrive (s : State) (k : HbarKey) (n : Nat) : State :=
  match s.hbarAt k with
  | none => s
  | some x =>
    if x.arrived.contains n then s
    else
      let y := { x with arrived := x.arrived ++ [n] }
      let s := { s with hbars := s.hbars.map (fun p => if p.1 = k then (k, y) else p) }
      if k.sc = 6 ∧ y.full then s.emit (.arrive (s.via n (s.ctxOf n)) k) else s

/-- R90. -/
def execHbar (i : BitVec 4) (c : BitVec 3) (s : State) : Host.Outcome State Fault Refusal :=
  let k : HbarKey := ⟨c.toNat, scopeInstance c.toNat s.core, i.toNat⟩
  s.finish (
    match s.hbarAt k with
    | none => .error (.trap PRIV 0)
    | some x =>
      if !x.cores.contains s.core then .error (.trap PRIV 0)
      else do
        s.release s.core s.frame c.toNat true
        .ok ((s.arrive k s.core).parkFrame s.core s.frame (.hbar k)))

/-- The monitor table of the cluster gains an entry for the frame (R443). -/
def State.monitor (s : State) : State :=
  let k := clusterOf s.core
  let c := s.clusterAt k
  s.setCluster k { c with monitors := c.monitors ++ [(s.core, s.frame)] }

/-- R443. The dword is read at the cluster, once the frame's own stores to it have come there (log 106). -/
def execWaita (e : BitVec 5) (c : BitVec 4) (d : BitVec 5) (s : State) : Host.Outcome State Fault Refusal :=
  let x := s.cur.gpr e
  s.finish (do
    let (o, a) ← s.access s.core (s.cur.cap c) 0 8 8 rightR [1] .frame false
    let near := !o.hb && !o.pw && !o.pageReg && o.whole.isNone && !s.far o &&
      (decide (o.tier = 0) || (decide (o.tier = 1) && decide (clusterOf (o.home % 4096) = clusterOf s.core)))
    if !near then .error (.trap CAPKIND 0) else .ok ()
    s.layoutCheck s.core s.frame (s.cur.cap c) o
    s.watermark s.core o.oid a (a + 8)
    let addr := if o.tier = 0 then tcmAddr s.core (o.pmap + a) else padAddr (clusterOf s.core) (o.pmap + a)
    s.sound addr 8
    if s.ownBuffered s.core s.frame addr 8 then .error (.wait (.drained addr 8)) else .ok ()
    if leNat (s.plain (s.ctxOf s.core) addr 8) ≠ x.toNat then .ok (s.status d 0 4)
    else if 64 ≤ (s.clusterAt (clusterOf s.core)).monitors.length then
      .ok (s.parkFrame s.core s.frame (.waita d x addr true s.ftime))
    else .ok (s.monitor.parkFrame s.core s.frame (.waita d x addr false s.ftime)))

end Sys2Proof.Machine
end

