-- ==== Sys2Proof/Machine/Ladder.lean ====
section
/-! DEFINITION. The pre-emption ladder (R280 to R284): reef, heave-to, halt, stopped, strike and restore, the end of a
slice (R307) and of a PAUSE (R304). -/
namespace Sys2Proof.Machine

/-! ### Parts of a partition -/

/-- The frames of a partition that hold activations: the supervisor frames are none of them. -/
def State.workFrames (s : State) (k : Nat) : List (Nat × Nat) := (s.framesOf k).filter (fun p => decide (p.2 < 10))

/-- T1, T2 or T3 as the kernel of the partition's first core holds it (R280; log 36). -/
def State.timer (s : State) (k : Nat) (g : Core → Word) : Nat :=
  (g (s.coreAt ((s.ctxAt k).cores.headD 0))).toNat % 2 ^ 32

/-- A step of the ladder: the supervisor frames that wait after HALT go on (R270, R367). -/
def State.wakeKernels (s : State) (k : Nat) : State :=
  (s.ctxAt k).cores.foldl (fun s n =>
    let fr := s.frameAt n 10
    if fr.wait = some .halted then s.setFrame n 10 { fr with wait := none, state := .ready, ready := s.ftime } else s) s

/-! ### Reef, heave-to, halt (R280, R281) -/

/-- The ladder of a running context starts. A command that meets one at work joins it, and gives it its purpose, which MIGRATE FINAL
keeps. -/
def State.startLadder (s : State) (k : Nat) (why : Why) (tags : List Word) : State :=
  let x := s.ctxAt k
  match x.ladder with
  | none => (s.setCtx k { x with
      ladder := some ⟨.reef, s.ftime, why, tags, s.timer k (·.t1), s.timer k (·.t2), s.timer k (·.t3)⟩ }).wakeKernels k
  | some l => s.setCtx k { x with ladder := some { l with why := if l.why = .migrate then .migrate else why, tags := l.tags ++ tags } }

/-- R280: dispatch stops on the partition's cores. -/
def execReef (ctx : Nat) (s : State) : Host.Outcome State Fault Refusal :=
  let x := s.ctxAt ctx
  if x.state = .running ∧ x.ladder = none then .next (s.startLadder ctx .slice []) else .next s

/-- A wait in place that heave-to ends, before the access, the SEND or the store (R207, R278, R418, R424, R443). -/
def stopsAtHeave : Option Wait → Bool
  | some (.watermark _ _ _) => true
  | some .pageRequests => true
  | some (.sending _ _) => true
  | some (.drained _ _) => true
  | _ => false

/-- A frame is STOPPED before its instruction, which begins again after restore: nothing that it holds for a SEND stays its own
(R418). -/
def State.stopFrame (s : State) (n f : Nat) : State :=
  let s := s.dropSending n f
  s.setFrame n f (s.frameAt n f).stopReady

/-- Heave-to takes one frame: PARKED, it is STOPPED at once; a load under a watermark, a store that waits for a page request or in its
release and a SEND in its release are stopped before the access (R281, R207, R278, R418, R424). -/
def State.heaveFrame (s : State) (n f : Nat) : State :=
  let fr := s.frameAt n f
  match fr.state, fr.park with
  | .parked, some p => s.stopParked n f p
  | .running, _ => if stopsAtHeave fr.wait then s.stopFrame n f else s
  | .ready, _ => if stopsAtHeave fr.wait then s.stopFrame n f else s
  | _, _ => s

/-- No frame of the partition holds an activation that is not stopped. -/
def State.allStopped (s : State) (k : Nat) : Bool :=
  (s.workFrames k).all (fun p =>
    let st := (s.frameAt p.1 p.2).state
    decide (st = .free ∨ st = .stopped))

/-- R280, R281: T1 after the start, or when no activation remains. -/
def execHeaveTo (ctx : Nat) (s : State) : Host.Outcome State Fault Refusal :=
  let x := s.ctxAt ctx
  match x.ladder with
  | some l =>
    if l.stage = .reef ∧ (l.start + l.t1 ≤ s.ftime ∨ (s.workFrames ctx).all (fun p =>
        decide ((s.frameAt p.1 p.2).state = .free))) then
      let t := (s.setCtx ctx { x with ladder := some { l with stage := .heaveTo } }).wakeKernels ctx
      .next ((t.workFrames ctx).foldl (fun s p => s.heaveFrame p.1 p.2) t)
    else .next s
  | none => .next s

/-- The halt takes a frame that still runs, at its instruction boundary; an instruction that ends first is left until
then (R280, R331, R361, R384, R392, R451). -/
def State.haltFrame (s : State) (n f : Nat) : State :=
  let fr := s.frameAt n f
  if (fr.state = .ready ∨ fr.state = .running) ∧ endsFirst fr.wait = false then
    s.stopFrame n f
  else s

/-- The halt abandons the resynchronisations of a partition's supervisor frames: the group stays stale, and the CLGRP executes again
after restore (R355). -/
def State.dropResync (s : State) (k : Nat) : State :=
  (s.ctxAt k).cores.foldl (fun s n =>
    match (s.frameAt n 10).wait with
    | some (.resync _ _ _) => s.setFrame n 10 { s.frameAt n 10 with wait := some .restored }
    | _ => s) s

/-- R280: T1 + T2 after the start; it comes again for the frames that it had to leave. -/
def execLadderHalt (ctx : Nat) (s : State) : Host.Outcome State Fault Refusal :=
  let x := s.ctxAt ctx
  match x.ladder with
  | some l =>
    if l.stage = .halt ∨ (l.stage = .heaveTo ∧ l.start + l.t1 + l.t2 ≤ s.ftime) then
      let t := if l.stage = .halt then s
        else ((s.setCtx ctx { x with ladder := some { l with stage := .halt } }).wakeKernels ctx).dropResync ctx
      .next ((t.workFrames ctx).foldl (fun s p => s.haltFrame p.1 p.2) t)
    else .next s
  | none => .next s

/-! ### Stopped (R280, R304, R307, R309) -/

/-- No engine works for the partition: no copy request, matrix job or media job is unfinished. -/
def State.enginesIdle (s : State) (k : Nat) : Bool :=
  let x := s.ctxAt k
  x.cores.all (fun n => (s.coreAt n).fifo.isEmpty) &&
    x.clusters.all (fun c =>
      let y := s.clusterAt c
      y.accepted.isEmpty && y.jobs.isEmpty && y.running.isNone) &&
    s.dies.all (fun p => (p.2.mediaQ ++ p.2.media).all (fun q => decide (q.ctx ≠ k)))

/-- The stop is complete. -/
def State.stopComplete (s : State) (k : Nat) : Bool := s.allStopped k && s.enginesIdle k

/-- The device is in P2 while no context is RUNNING, and leaves it when one runs (R318). -/
def State.settlePower (s : State) : State :=
  let runs := s.contexts.any (fun p => decide (p.2.state = .running))
  match s.power with
  | .p0 => if runs then s else { s with power := .p2 }
  | .p2 => if runs then { s with power := .p0 } else s
  | _ => s

/-- The ladder ends at a stop, in the state that its purpose gives. A context that MIGRATE FINAL stops is left PAUSED
until its image is written. -/
def State.ladderEnds (s : State) (k : Nat) (l : Ladder) : State :=
  let x := s.ctxAt k
  ((s.setCtx k { x with
    ladder := none, stopped := true, pausedAt := s.ftime
    state := match l.why with
      | .slice => .bound
      | .pause => .paused
      | .migrate => .paused }).wakeKernels k).settlePower

/-! ### The image of a context (R308) -/

/-- The bytes that an image of a context takes, where its layout is the root's own (log 37). -/
def State.imageLen (s : State) (k : Nat) : Nat :=
  match (s.ctxAt k).saved with
  | some img => img.bytes.length
  | none => 64 + Config.imageSize (s.ctxAt k).clusters.length ((s.pageOwner.filter (fun p => decide (p.2 = k))).length)

/-- The bytes that MIGRATE FINAL writes: once a snapshot has been taken, the dirty pages and the on-die state (R309). -/
def State.deltaLen (s : State) (k : Nat) : Nat :=
  let x := s.ctxAt k
  if x.migration.any (·.image.isSome) then 64 + Config.imageSize x.clusters.length x.dirty.length else s.imageLen k

/-- The image with a sequence number in n bytes: ciphertext, header and tags, and at the end the digest of the last two (log 37). -/
def imageBytes (seq n : Nat) : List Byte :=
  let body := (List.range (n - 64)).map (Config.imageByte seq)
  body ++ sha3 (Config.imageSealed body)

/-- A fresh handle of the root's generator, which issues no 0 (R305). -/
def State.draw (s : State) : Word × State :=
  let h := Config.handle s.nextId
  (if h = 0 then BitVec.allOnes 64 else h, { s with nextId := s.nextId + 1 })

/-- What the image of a context holds. -/
def State.snapshot (s : State) (k : Nat) (bytes : List Byte) : Snapshot :=
  let x := s.ctxAt k
  { bytes := bytes
    cores := x.cores.map (fun n => (n, s.coreAt n))
    clusters := x.clusters.map (fun c => (c, s.clusterAt c))
    mem := s.mem.filter (fun c => s.belongs k c.1)
    tags := s.tags.filter (fun g => s.belongs k (16 * g))
    keys := (s.keys.filter (fun p => decide (p.2 = x.key) && s.belongs k (64 * p.1))).map (·.1)
    pages := (s.pageOwner.filter (fun p => decide (p.2 = k))).map (·.1)
    records := s.dies.flatMap (fun p => (p.2.faultq.filter (fun r => decide (r.ctx = k))).map (fun r => (p.1, r))) }

/-- A context is written to a buffer in n bytes and gives up its clusters and pages (R308); its image handle is answered. RESTORE takes
what an earlier snapshot wrote before those bytes (R309). -/
def State.evictTo (s : State) (k addr n : Nat) (tag : Word) (before : List Byte) : State :=
  let x := s.ctxAt k
  let seq := s.nextId
  let bs := imageBytes seq n
  let img := s.snapshot k (before ++ bs)
  let h := s.draw
  let s : State := { h.2 with mem := memPut s.mem (dmaAddr 0 addr) bs }
  let s := s.freePartition k 0
  let s := s.setCtx k { x with
    state := .evicted, image := h.1, saved := some img, imageSeq := seq, ladder := none, stopped := true
    migration := none, dirty := [] }
  s.respond tag 0 h.1 (BitVec.ofNat 64 n) 0

/-- R280: every frame is FREE or STOPPED and the engines are idle. -/
def execLadderStopped (ctx : Nat) (s : State) : Host.Outcome State Fault Refusal :=
  match (s.ctxAt ctx).ladder with
  | some l =>
    if l.stage ≠ .reef ∧ s.stopComplete ctx then .next ((s.ladderEnds ctx l).answerAll l.tags 0) else .next s
  | none => .next s

/-- Every access of the partition to other homes has its answer. -/
def State.answered (s : State) (k : Nat) : Bool :=
  (s.workFrames k).all (fun p =>
    let fr := s.frameAt p.1 p.2
    fr.posted.isEmpty && (match fr.park with
      | some (.remote _ _ _) => false
      | _ => true))

/-- R309 step 3: once the ladder has stopped the partition and its last loads have come, the delta and the on-die state are written
and the context becomes EVICTED: what comes later could not reach an image at another device (R372). A delta that has outgrown its
buffer is not written, and the command returns −7 with the size (R304). -/
def execMigrateDelta (ctx : Nat) (s : State) : Host.Outcome State Fault Refusal :=
  let x := s.ctxAt ctx
  match x.migration.bind (·.final) with
  | some (addr, len, tag) =>
    let n := s.deltaLen ctx
    if ¬((x.state = .bound ∨ x.state = .paused) ∧ x.ladder = none ∧ s.answered ctx = true) then .next s
    else if len < n then
      .next ((s.setCtx ctx { x with migration := x.migration.map (fun m => { m with final := none }) }).respond tag (-7) 0
        (BitVec.ofNat 64 n) 0)
    else .next (s.evictTo ctx addr n tag ((x.migration.bind (·.image)).getD []))
  | none => .next s

/-! ### Strike (R283) -/

/-- An instruction that a strike lets end first: MINST and MPURGE (R384, R392; log 38). Stores that have not entered the
buffer yet are never performed (R451). -/
def strikeWaits : Option Wait → Bool
  | some (.install _) => true
  | some (.purge _ (some _)) => true
  | _ => false

/-- One frame is struck: its unused token is answered with a status, its registers are clear. -/
def State.strikeFrame (s : State) (n f st : Nat) : State :=
  let s := s.abandon n f
  let fr := s.frameAt n f
  let s := match fr.act with
    | some a => (match a.entry with
      | some e => s.answerUnrun n { e with used := a.used || e.used } st a.dtime
      | none => s)
    | none => s
  s.setFrame n f { Frame.clear with posted := fr.posted, faultSeq := fr.faultSeq }

/-- One core is struck: frames, queues, reply slots, command FIFO, job records, upcalls that wait. -/
def State.strikeCore (s : State) (n st : Nat) : State :=
  let s := (List.range 10).foldl (fun s f => s.strikeFrame n f 6) s
  let c := s.coreAt n
  let s := (c.normalQ ++ c.urgentQ).foldl (fun s e => s.answerUnrun n e st 0) s
  let c := s.coreAt n
  s.setCore n { c with
    normalQ := [], urgentQ := [], starts := [], fifo := [], records := []
    slots := c.slots.map (fun p => (p.1, { p.2 with busy := false, due := none })) }

/-- The barrier arrivals of a partition in the current episodes are cancelled (R90). -/
def State.cancelArrivals (s : State) (cores : List Nat) : State :=
  { s with hbars := s.hbars.map (fun p => (p.1, { p.2 with arrived := p.2.arrived.filter (fun n => !cores.contains n) })) }

/-- The partition's context is killed (R283). Queued messages are answered with a status: 6 STRUCK, or 2 NACK when the
context is torn down (R310). Far requests behind a conversion fail with it (R155). Memory, code and modules stand. -/
def State.strikeCtx (s : State) (k st : Nat) : State :=
  let x := s.ctxAt k
  let s := x.cores.foldl (fun s n => s.strikeCore n st) s
  let s := x.convs.foldl (fun s v => s.endConversion k v.oid false) s
  let s := s.setCtx k { s.ctxAt k with locks := [], convs := [] }
  let s := x.cores.foldl (fun s n => s.setCore n { s.coreAt n with starts := [] }) s
  let s := x.clusters.foldl (fun s c =>
    let y := s.clusterAt c
    s.setCluster c { y with accepted := [], jobs := [], running := none, monitors := [] }) s
  let s : State := { s with
    dies := s.dies.map (fun p => (p.1, { p.2 with
      faultq := p.2.faultq.filter (fun r => decide (r.ctx ≠ k))
      mediaQ := p.2.mediaQ.filter (fun q => decide (q.ctx ≠ k))
      media := p.2.media.filter (fun q => decide (q.ctx ≠ k)) }))
    pageReqs := s.pageReqs.filter (fun q => decide (q.ctx ≠ k))
    pageDone := s.pageDone.filter (fun q => decide (q.ctx ≠ k))
    pageLate := s.pageLate.filter (fun q => decide (q.1.ctx ≠ k))
    discarded := s.discarded.filter (fun r => decide (r.ctx ≠ k)) }
  let s := (s.cancelArrivals x.cores).muteClaims k
  let s := s.setVf x.vf { s.vfAt x.vf with rings := (s.vfAt x.vf).rings.map (fun p => (p.1, p.2.rewind)) }
  let x := s.ctxAt k
  ((s.setCtx k { x with state := .bound, ladder := none, stopped := true, struck := true }).wakeKernels k).settlePower

/-- No instruction of the partition is at work that a strike lets end first. -/
def State.mayStrike (s : State) (k : Nat) : Bool :=
  (s.workFrames k).all (fun p => !strikeWaits (s.frameAt p.1 p.2).wait)

/-- R280, R283: T3 after the start, when the stop is not complete. Commands that wait for the ladder are answered 0
(R307). -/
def execStrike (ctx : Nat) (s : State) : Host.Outcome State Fault Refusal :=
  match (s.ctxAt ctx).ladder with
  | some l =>
    if l.start + l.t3 ≤ s.ftime ∧ s.stopComplete ctx = false ∧ s.mayStrike ctx then
      let final := match (s.ctxAt ctx).migration.bind (·.final) with
        | some (_, _, tag) => [tag]
        | none => []
      let t := (s.strikeCtx ctx 6).answerAll (l.tags ++ final) 0
      let x := t.ctxAt ctx
      .next (t.setCtx ctx { x with migration := x.migration.map (fun m => { m with final := none }) })
    else .next s
  | none => .next s

/-! ### Restore (R282) -/

/-- A STOPPED frame returns to its saved state: PARKED when it still waits, else READY with a new ready time. -/
def State.restoreFrame (s : State) (n f : Nat) : State :=
  let fr := s.frameAt n f
  match fr.state, fr.saved with
  | .stopped, some v =>
    let fr := { fr with trap := fr.trap.map (fun (t : TrapRec) => { t with later := false }) }
    if v.prior = .parked ∧ v.arrived = false then s.setFrame n f { fr with state := .parked, saved := none }
    else s.setFrame n f { fr with state := .ready, ready := s.ftime, saved := none }
  | _, _ => s

/-- The kernels forward queued messages whose home has changed, and every frame returns (R80, R282); a trap that stands
is taken then. -/
def State.restoreAll (s : State) (k : Nat) : State :=
  let x := s.ctxAt k
  let s := x.cores.foldl (fun s n => s.forwardCore n) s
  let s := x.cores.foldl (fun s n => ((List.range 10).foldl (fun s f => s.restoreFrame n f) s).takeNext n) s
  s.setCtx k { s.ctxAt k with stopped := false }

/-- R282: a context that runs again has its frames restored. -/
def execRestoreFrames (ctx : Nat) (s : State) : Host.Outcome State Fault Refusal :=
  let x := s.ctxAt ctx
  if x.state = .running ∧ x.stopped then .next (s.restoreAll ctx) else .next s

/-! ### Slices and pauses (R304, R307) -/

/-- R307: the slice that SCHEDULE or RESUME set has run. -/
def execSliceEnd (ctx : Nat) (s : State) : Host.Outcome State Fault Refusal :=
  let x := s.ctxAt ctx
  if x.state = .running ∧ x.ladder = none ∧ x.slice ≠ 0 ∧ x.sliceAt + x.slice ≤ s.ftime then
    .next (s.startLadder ctx .slice [])
  else .next s

/-- A context runs, with a slice (R304). -/
def State.runCtx (s : State) (k slice : Nat) : State :=
  (s.setCtx k { s.ctxAt k with state := .running, struck := false, slice := slice, sliceAt := s.ftime }).settlePower

/-- A MIGRATE FINAL of the context is to write its delta, or the context is being torn down. -/
def Context.leaving (x : Context) : Bool := x.migration.any (fun m => m.final.isSome) || x.teardown.isSome

/-- R304: a context that has stood PAUSED for PAUSEMAX is resumed with its last slice. -/
def execPausemaxResume (ctx : Nat) (s : State) : Host.Outcome State Fault Refusal :=
  let x := s.ctxAt ctx
  if x.state = .paused ∧ x.leaving = false ∧ x.pausedAt + x.policy.pauseMax ≤ s.ftime then .next (s.runCtx ctx x.slice) else .next s

end Sys2Proof.Machine
end

