-- ==== Sys2Proof/Machine/Mailbox.lean ====
section
/-! DEFINITION. Contexts, the policy and the commands of the PF mailbox (R300 to R310, R319). -/
namespace Sys2Proof.Machine

/-! ### The policy blob (R301) -/

/-- The little-endian number in n bytes of a blob. -/
def blobNat (b : List Byte) (a n : Nat) : Nat := leNat ((b.drop a).take n)

def blobZero (b : List Byte) (a n : Nat) : Bool := ((b.drop a).take n).all (fun x => decide (x = 0))

/-- The positions that a bitmap of 128 bytes names. -/
def bitmapMembers (b : List Byte) : List Nat :=
  (List.range 1024).filter (fun p => ((b.getD (p / 8) 0).getLsbD (p % 8)))

/-- The policy that a valid blob states; none for one that is not valid. -/
def parsePolicy (b : List Byte) : Option Policy :=
  let len := b.length
  let nPeer := blobNat b 2768 2
  let nGrp := blobNat b 2770 2
  let nRoute := blobNat b 2772 2
  let nDest := blobNat b 2774 2
  let atGrp := 2784 + 2 * nPeer
  let atRoute := atGrp + 136 * nGrp
  let atDest := atRoute + 16 * nRoute
  let peers := (List.range nPeer).map (fun i => blobNat b (2784 + 2 * i) 2)
  let grp (i : Nat) : List Byte := (b.drop (atGrp + 136 * i)).take 136
  let clMin := blobNat b 2724 2
  let clMax := blobNat b 2726 2
  let sliceMin := blobNat b 2728 8
  let sliceMax := blobNat b 2736 8
  if len < 2784 + 4627 then none
  else if blobNat b 0 4 ≠ 0x4C504B45 ∨ blobNat b 4 4 ≠ 1 ∨ blobNat b 8 4 ≠ len ∨ !blobZero b 12 56 then none
  else if blobNat b 2764 4 ≥ 16 ∨ len - 4627 < atDest + 64 * nDest then none
  else if clMin < 1 ∨ clMax < clMin ∨ 384 < clMax ∨ sliceMax < sliceMin then none
  else if 1024 < nPeer ∨ 64 < nGrp ∨ 1024 < nRoute ∨ peers.any (fun p => decide (1024 ≤ p)) then none
  else if (List.range nGrp).any (fun i => decide (64 ≤ blobNat (grp i) 0 1) || decide (1 < blobNat (grp i) 1 1) ||
      !blobZero (grp i) 2 6) then none
  else if !Config.verify ((b.drop 132).take 2592) (b.take (len - 4627)) (b.drop (len - 4627)) then none
  else some {
    t1 := BitVec.ofNat 32 (blobNat b 2752 4), t2 := BitVec.ofNat 32 (blobNat b 2756 4)
    t3 := BitVec.ofNat 32 (blobNat b 2760 4), flags := BitVec.ofNat 32 (blobNat b 2764 4)
    pauseMax := blobNat b 2744 8, sliceMin := sliceMin, sliceMax := sliceMax, clMin := clMin, clMax := clMax
    peers := peers
    groups := (List.range nGrp).map (fun i => (blobNat (grp i) 0 1, blobNat (grp i) 1 1 = 1, bitmapMembers ((grp i).drop 8)))
    routes := (List.range nRoute).map (fun i =>
      let r := (b.drop (atRoute + 16 * i)).take 16
      ⟨Config.routePod r, Config.routePos r, Config.routeCore r⟩)
    dests := (List.range nDest).map (fun i => (b.drop (atDest + 64 * i)).take 64)
    agmask := BitVec.ofNat 64 (blobNat b 2776 8)
    devid := (b.drop 68).take 64
    digest := sha3 b }

/-- What DEVID names a device by: the SHA3-512 of its identity public key (R301, R311). -/
def identity : List Byte := sha3 (Config.identityKey Config.helper)

/-- The blob names this device, or any (R301). -/
def Policy.namesDevice (p : Policy) : Bool := p.devid.all (fun x => decide (x = 0)) || decide (p.devid = identity)

/-- Bytes of host memory that a command names (R304; log 16). -/
def State.hostBytes (s : State) (addr len : Word) : List Byte := memBytes s.mem (dmaAddr 0 addr.toNat) len.toNat

/-! ### Handles (R305) -/

/-- The context that a context handle names; the handle dies at TEARDOWN. -/
def State.byHandle (s : State) (h : Word) : Option (Nat × Context) :=
  s.contexts.find? (fun p => decide (p.2.handle = h ∧ h ≠ 0 ∧ p.2.state ≠ .gone) && p.2.teardown.isNone)

def State.byQueue (s : State) (h : Word) : Option (Nat × Context) :=
  s.contexts.find? (fun p => decide (p.2.queue = h ∧ h ≠ 0 ∧ p.2.state ≠ .gone) && p.2.teardown.isNone)

def State.byImage (s : State) (h : Word) : Option (Nat × Context) :=
  s.contexts.find? (fun p => decide (p.2.image = h ∧ h ≠ 0 ∧ p.2.state = .evicted) && p.2.teardown.isNone)

/-! ### CONTEXT (R302, R304) -/

/-- The number of the next context. -/
def State.nextCtx (s : State) : Nat := s.contexts.foldl (fun m p => max m (p.1 + 1)) 1

/-- A claim group or address group that a policy names belongs to another context or has a claim under way (R225, R241;
log 40). -/
def State.groupsTaken (s : State) (p : Policy) : Bool :=
  p.groups.any (fun g => (s.groupAt g.1).owner.isSome || s.groupAnnounced g.1) ||
    s.contexts.any (fun q => decide (q.2.state ≠ .gone) && decide (q.2.policy.agmask &&& p.agmask ≠ 0))

/-- Where the root places the n-th context's table: in the HBM tier of die 0, on a page frame of it (R106, R108; log 12). -/
def tableBase (k : Nat) : Nat := 0x1000000000 + 65536 * (Config.tableBase k % 0x180000)

/-- The bytes that the table takes, and how many descriptors it holds; it ends in the tier. -/
def tableSpan (k : Nat) : Nat := min (Config.tableSpan k) (0x2800000000 - tableBase k)
def tableLen (k : Nat) : Nat := min (Config.tableLen k) (tableSpan k / 64)

/-- The windows that the root gives the tenant's runtime: over the object table (R106), the page-request register (R278),
and a record of each grant of a claim group (R241). -/
def rootWindows (k : Nat) (p : Policy) : List Cap :=
  [⟨true, rightR ||| rightW ||| rightC ||| rightO, 1, Config.tableOid k, 0, BitVec.ofNat 36 (tableSpan k)⟩,
   ⟨true, rightW ||| rightM, 1, Config.pageOid k, 0, 16⟩] ++
  p.groups.map (fun g => ⟨true, if g.2.1 then rightK else 0, 5, BitVec.ofNat 40 g.1, 0, 0⟩)

/-- The claim groups of a policy come to a context (R241, R242), with no values, and stale only while the halyard plane is lost: what an
earlier owner left does not bind the new one (DESIGN CHOICE, log 107). -/
def State.takeGroups (s : State) (k : Nat) (p : Policy) : State :=
  p.groups.foldl (fun s g => s.setGroup g.1 ⟨some k, g.2.2, g.2.1, 8000, 0, s.halyardLost, []⟩) s

/-- R302, R304. The generation that it generates is the VF's where no context has given it one yet (log 94). -/
def execContext (tag addr len : Word) (s : State) : Host.Outcome State Fault Refusal :=
  match parsePolicy (s.hostBytes addr len) with
  | none => .next (s.respond tag (-5) 0 0 0)
  | some p =>
    if !p.namesDevice then .next (s.respond tag (-1) 0 0 0)
    else
      let gone := (s.contexts.filter (fun q => decide (q.2.state = .gone))).map (·.1)
      let s := gone.foldl (fun s k => s.freeGroups k) s
      if s.groupsTaken p then .next (s.respond tag (-4) 0 0 0)
      else
        let k := s.nextCtx
        let h := s.draw
        let g := h.2.freeValue
        let t := ({ g.2 with nextId := g.2.nextId + 1 } : State).setCtx k { Context.empty with
          state := .created, policy := p, handle := h.1, key := g.2.nextId, gen := g.1.setWidth 8
          tableOid := Config.tableOid k, tableBase := tableBase k, tableLen := tableLen k
          tableSpan := tableSpan k, pageOid := Config.pageOid k, windows := rootWindows k p, stopped := true }
        .next (((t.clearTable (t.ctxAt k)).takeGroups k p).respond tag 0 h.1 0 0)

/-! ### BIND (R304, R107, R114, R120) -/

/-- A logical cluster can be given to a context: it exists, nobody owns it, no EVICTED context keeps it, and a teardown's
100 µs are over. -/
def State.bindable (s : State) (c : Nat) : Bool :=
  let y := s.clusterAt c
  decide (c < 512 ∧ c % 128 < 96) && y.owner.isNone && decide (y.free ≤ s.ftime) && !s.evictedCluster c

/-- The clusters that BIND takes: the lowest that can be bound (log 41). -/
def State.pickClusters (s : State) (n : Nat) : Option (List Nat) :=
  let l := ((List.range 512).filter s.bindable).take n
  if l.length = n then some l else none

/-- A VF is in use by a context. -/
def State.vfTaken (s : State) (vf : Nat) : Bool := s.contexts.any (fun p => decide (p.2.vf = vf ∧ p.2.state ≠ .gone))

/-- The lowest KEYID that no context has; 0 is the root's (R118). -/
def State.freeKey (s : State) : Option Nat :=
  ((List.range 255).map (· + 1)).find? (fun i =>
    s.contexts.all (fun p => decide (p.2.state = .gone ∨ p.2.keyid.toNat ≠ i)))

/-- The root writes PASID and KEYID into every live descriptor of a table (R107; log 26). -/
def State.rootFields (s : State) (x : Context) : State :=
  (List.range x.tableLen).foldl (fun s i =>
    let a := x.descAddr i
    if bitsOf (s.ctxNat x a 64) 40 40 = 1 then s.rootWrite x a else s) s

/-- The tenant slots of the dies' sketches (R114). -/
def State.takeSlots (s : State) (k : Nat) : State :=
  (List.range 4).foldl (fun s die =>
    let y := s.dieAt die
    match (List.range 16).find? (fun i => y.slotsOf.all (fun p => decide (p.2 ≠ i))) with
    | some i => s.setDie die { y with slotsOf := put y.slotsOf k i }
    | none => s) s

/-- A cluster that has an uncorrectable error, in a memory, a code store or a register frame, or 16 corrected ones in an hour, is
replaced by a spare of its die, while there is one (R2, R286, R317); else spare rows replace the locations that have reported. -/
def State.replaceCluster (s : State) (c : Nat) : State :=
  let y := s.clusterAt c
  let d := s.dieAt (c / 128)
  let recent := y.errors.filter (fun t => decide (s.ftime < t + 3600000000000))
  let inside (a : Nat) : Bool := decide (clusterAtAddr a = some c)
  let s' : State := { s with retired := s.retired.filter (fun a => !inside a) }
  let worn := y.worn || (s.bad ++ s.retired).any inside || s.badCode.any (fun b => decide (b.1 = c))
  if (16 ≤ recent.length ∨ worn = true) ∧ d.spares < 4 then
    ({ s'.setCluster c { y with errors := [], worn := false } with
        bad := s.bad.filter (fun a => !inside a), badCode := s.badCode.filter (fun b => decide (b.1 ≠ c)) } : State).setDie
      (c / 128) { d with spares := d.spares + 1 }
  else s'.setCluster c { y with worn := false }

/-- A cluster comes to a context, cleared, its kernels' timers set from the policy (R120, R302). -/
def State.giveCluster (s : State) (k : Nat) (p : Policy) (c : Nat) : State :=
  let s := (s.replaceCluster c).clearCluster c (some k) 0
  (List.range 8).foldl (fun s i =>
    s.setCore (8 * c + i) { s.coreAt (8 * c + i) with t1 := zext64 p.t1, t2 := zext64 p.t2, t3 := zext64 p.t3 }) s

/-- R304. Of several checks that fail, the state comes before the policy and the policy before the arguments (log 58). -/
def execBind (tag h vf count pasid : Word) (s : State) : Host.Outcome State Fault Refusal :=
  let no (st : Int) : Host.Outcome State Fault Refusal := .next (s.respond tag st 0 0 0)
  match s.byHandle h with
  | none => no (-2)
  | some (k, x) =>
    if x.state ≠ .created then no (-3)
    else if count.toNat < x.policy.clMin ∨ x.policy.clMax < count.toNat then no (-1)
    else if vf.toNat < 1 ∨ 384 < vf.toNat ∨ 2 ^ 20 ≤ pasid.toNat then no (-6)
    else if s.vfTaken vf.toNat then no (-4)
    else match s.pickClusters count.toNat, s.freeKey with
      | some cs, some key =>
        let q := s.draw
        let x := { x with
          state := .bound, vf := vf.toNat, pasid := pasid.setWidth 20, keyid := BitVec.ofNat 8 key
          clusters := cs, queue := q.1, stopped := true }
        let v := s.vfAt vf.toNat
        let t := q.2.setVf vf.toNat { v with gen := if v.drawn then v.gen else x.gen, drawn := true }
        let t := cs.foldl (fun s c => s.giveCluster k x.policy c) (t.setCtx k x)
        .next (((t.rootFields x).takeSlots k).respond tag 0 q.1 0 0)
      | _, _ => no (-4)

/-! ### SCHEDULE, PAUSE, RESUME (R304) -/

/-- The slice lies within the policy. -/
def Policy.sliceOk (p : Policy) (n : Nat) : Bool :=
  if n = 0 then decide (p.sliceMax = 0) else decide (p.sliceMin ≤ n ∧ n ≤ p.sliceMax)

/-- R304. -/
def execSchedule (tag h slice : Word) (s : State) : Host.Outcome State Fault Refusal :=
  match s.byHandle h with
  | none => .next (s.respond tag (-2) 0 0 0)
  | some (k, x) =>
    if (x.state ≠ .bound ∧ x.state ≠ .paused) ∨ x.leaving = true then .next (s.respond tag (-3) 0 0 0)
    else if !x.policy.sliceOk slice.toNat then .next (s.respond tag (-1) 0 0 0)
    else .next ((s.runCtx k slice.toNat).respond tag 0 0 0 0)

/-- R304, R319: a PAUSE of a context that is PAUSED already has nothing to wait for. -/
def execPauseContext (tag h : Word) (s : State) : Host.Outcome State Fault Refusal :=
  match s.byHandle h with
  | none => .next (s.respond tag (-2) 0 0 0)
  | some (k, x) =>
    if x.state = .running then .next (s.startLadder k .pause [tag])
    else if x.state = .paused then .next (s.respond tag 0 0 0 0)
    else .next (s.respond tag (-3) 0 0 0)

/-- R304. -/
def execResume (tag h slice : Word) (s : State) : Host.Outcome State Fault Refusal :=
  match s.byHandle h with
  | none => .next (s.respond tag (-2) 0 0 0)
  | some (k, x) =>
    if x.state ≠ .paused ∨ x.leaving = true then .next (s.respond tag (-3) 0 0 0)
    else if !x.policy.sliceOk slice.toNat then .next (s.respond tag (-1) 0 0 0)
    else .next ((s.runCtx k slice.toNat).respond tag 0 0 0 0)

/-! ### EVICT and RESTORE (R308) -/

/-- R308. -/
def execEvict (tag h addr len : Word) (s : State) : Host.Outcome State Fault Refusal :=
  match s.byHandle h with
  | none => .next (s.respond tag (-2) 0 0 0)
  | some (k, x) =>
    if x.state ≠ .paused ∨ x.leaving = true then .next (s.respond tag (-3) 0 0 0)
    else if !x.policy.flags.getLsbD 0 then .next (s.respond tag (-1) 0 0 0)
    else if len.toNat < s.imageLen k then .next (s.respond tag (-7) 0 (BitVec.ofNat 64 (s.imageLen k)) 0)
    else .next (s.evictTo k addr.toNat (s.imageLen k) tag [])

/-- What an image that another root sealed holds, for its handle, the bytes of the last snapshot and those of the delta or of the whole
image; none where it does not verify (R308, R309; logs 37 and 42). -/
opaque incomingImage : Word → List Byte → List Byte → Option (Context × Snapshot)

/-- The resources of an image are free: its clusters, its VF, its page frames (R308). -/
def State.canRestore (s : State) (k : Nat) (x : Context) (img : Snapshot) : Bool :=
  x.clusters.all (fun c =>
    let y := s.clusterAt c
    y.owner.isNone && decide (y.free ≤ s.ftime) &&
      s.contexts.all (fun p => decide (p.1 = k ∨ p.2.state ≠ .evicted) || !p.2.clusters.contains c)) &&
    s.contexts.all (fun p => decide (p.1 = k ∨ p.2.vf ≠ x.vf ∨ p.2.state = .gone)) &&
    img.pages.all (fun p => (look s.pageOwner p).isNone)

/-- The state is rebuilt from an image; the context is PAUSED (R308). -/
def State.rebuild (s : State) (k : Nat) (x : Context) (img : Snapshot) : State :=
  let s := img.cores.foldl (fun s p => s.setCore p.1 p.2) s
  let s := (img.clusters.foldl (fun s p => s.setCluster p.1 { p.2 with owner := some k }) s).clearTable x
  let s : State := { s with
    mem := img.mem.foldl (fun m c => memSet m c.1 c.2) (s.mem.filter (fun c => !img.keys.contains (c.1 / 64)))
    keys := img.keys.foldl (fun m b => put m b x.key) s.keys
    tags := img.tags.foldl insertNat s.tags
    pageOwner := img.pages.foldl (fun m p => put m p k) s.pageOwner }
  let s := img.records.foldl (fun s p =>
    let y := s.dieAt p.1
    s.setDie p.1 { y with faultq := y.faultq ++ [p.2] }) s
  (s.setCtx k { x with
    state := .paused, image := 0, saved := none, stopped := true, pausedAt := s.ftime }).takeSlots k

/-- R308, R309: an image of this device, or one that comes from another: after a migration the last snapshot and, behind it, the delta;
a wrong image changes nothing. -/
def execRestore (tag h addr len : Word) (s : State) : Host.Outcome State Fault Refusal :=
  let no (st : Int) : Host.Outcome State Fault Refusal := .next (s.respond tag st 0 0 0)
  match s.byImage h with
  | some (k, x) =>
    (match x.saved with
     | none => no (-6)
     | some img =>
       if !x.policy.namesDevice then no (-1)
       else if (s.hostBytes addr len).take img.bytes.length ≠ img.bytes then no (-6)
       else if !s.canRestore k x img then no (-4)
       else .next ((s.rebuild k x img).respond tag 0 x.handle 0 0))
  | none =>
    if !Config.incomingHandle h ∨ s.usedImages.contains h = true then no (-2)
    else
    let buf := s.hostBytes addr len
    match incomingImage h (buf.take (Config.snapshotLen h)) (buf.drop (Config.snapshotLen h)), s.freeKey with
    | none, _ => no (-6)
    | some (x, img), some key =>
      let k := s.nextCtx
      if !x.policy.namesDevice then no (-1)
      else if s.groupsTaken x.policy ∨ !s.canRestore k x img then no (-4)
      else
        let q := s.draw
        let t : State := { q.2 with nextId := q.2.nextId + 1, usedImages := s.usedImages ++ [h] }
        let y := { x with handle := q.1, key := q.2.nextId, keyid := BitVec.ofNat 8 key }
        .next ((((t.takeGroups k x.policy).rebuild k y img).rootFields y).respond tag 0 q.1 0 0)
    | some _, none => no (-4)

/-! ### Migration (R309) -/

/-- A context that holds clusters. -/
def Context.holds (x : Context) : Bool := decide (x.state = .bound ∨ x.state = .running ∨ x.state = .paused)

/-- The check of every MIGRATE command: a handle, a context that holds clusters, MIGRATE allowed. -/
def State.migrateGate (s : State) (h : Word) : Except Int (Nat × Context) :=
  match s.byHandle h with
  | none => .error (-2)
  | some (k, x) => if !x.holds then .error (-3) else if !x.policy.flags.getLsbD 1 then .error (-1) else .ok (k, x)

/-- R309 step 1. -/
def execMigrateStart (tag h interval addr len : Word) (s : State) : Host.Outcome State Fault Refusal :=
  match s.migrateGate h with
  | .error e => .next (s.respond tag e 0 0 0)
  | .ok (k, x) =>
    if x.migration.isSome then .next (s.respond tag (-3) 0 0 0)
    else if interval.toNat < 100 ∨ 1000000 < interval.toNat then .next (s.respond tag (-6) 0 0 0)
    else
      let pages := (s.pageOwner.filter (fun p => decide (p.2 = k))).map (·.1)
      .next ((s.setCtx k { x with
        migration := some ⟨interval.toNat, addr.toNat, len.toNat, s.ftime, none, false, none⟩, dirty := pages }).respond tag 0 0 0 0)

/-- R309: every interval the pages are copied to the buffer, in one instant of the model (log 42). -/
def execMigrateSnapshot (ctx : Nat) (s : State) : Host.Outcome State Fault Refusal :=
  let x := s.ctxAt ctx
  match x.migration with
  | some m =>
    if m.final.isNone ∧ x.holds ∧ m.last + 1000 * m.interval ≤ s.ftime then
      let bs := imageBytes s.nextId (min m.len (s.imageLen ctx))
      let t : State := { s with nextId := s.nextId + 1, mem := memPut s.mem (dmaAddr 0 m.addr) bs }
      .next (t.setCtx ctx { x with migration := some { m with last := s.ftime, image := some bs }, dirty := [] })
    else .next s
  | none => .next s

/-- R309 step 3: the ladder, then the delta (MIGRATE_DELTA); the context becomes EVICTED. -/
def execMigrateFinal (tag h addr len : Word) (s : State) : Host.Outcome State Fault Refusal :=
  match s.migrateGate h with
  | .error e => .next (s.respond tag e 0 0 0)
  | .ok (k, x) =>
    if x.leaving then .next (s.respond tag (-3) 0 0 0)
    else if len.toNat < s.deltaLen k then .next (s.respond tag (-7) 0 (BitVec.ofNat 64 (s.deltaLen k)) 0)
    else
      let m := x.migration.getD ⟨0, 0, 0, s.ftime, none, false, none⟩
      let t := s.setCtx k { x with migration := some { m with final := some (addr.toNat, len.toNat, tag) } }
      if x.state = .running then .next (t.startLadder k .migrate [])
      else execMigrateDelta k t

/-- R309: the snapshots end; once FINAL has begun there is nothing to cancel. -/
def execMigrateCancel (tag h : Word) (s : State) : Host.Outcome State Fault Refusal :=
  match s.migrateGate h with
  | .error e => .next (s.respond tag e 0 0 0)
  | .ok (k, x) =>
    if x.migration.any (fun m => m.final.isSome) then .next (s.respond tag (-3) 0 0 0)
    else .next ((s.setCtx k { x with migration := none, dirty := [] }).respond tag 0 0 0 0)

/-- R309 step 2: records of a secured session with a destination that the policy lists. -/
def execMigrateKeyx (tag h addr len : Word) (s : State) : Host.Outcome State Fault Refusal :=
  match s.migrateGate h with
  | .error e => .next (s.respond tag e 0 0 0)
  | .ok (k, x) =>
    let rec_ := s.hostBytes addr len
    if !x.policy.dests.contains (Config.keyxPeer rec_) then .next (s.respond tag (-1) 0 0 0)
    else
      let t := s.setCtx k { x with migration := x.migration.map (fun m => { m with keyed := true }) }
      .next ((t.emit (.spdm (Config.keyxReply rec_))).respond tag 0 0 0 0)

/-! ### Teardown (R310, R319) -/

/-- The retirement claim of a context (R259, R310 step 2). -/
def State.retirement (s : State) (x : Context) : Announcement :=
  ⟨64, BitVec.ofNat 64 (9 * 2 ^ 60 + x.vf), BitVec.ofNat 64 (s.vfAt x.vf).gen.toNat, 0, s.pos, s.ftime, s.ftime + 8000,
    (s.pos :: x.policy.peers).foldl insertNat [], x.clusters.map (fun c => 96 * (c / 128) + c % 128)⟩

/-- The root proposes a retirement. One that its own store cannot take counts as a try that did not commit. -/
def State.propose (s : State) (k : Nat) (t : Teardown) : State :=
  let x := s.ctxAt k
  let fails :=
    if t.tries < 8 then s.setCtx k { x with teardown := some { t with slot := none, retry := some (s.ftime + 100000) } }
    else (s.setCtx k { x with teardown := some { t with slot := none, te := s.ftime, retry := none, done := true } }).endTeardown
      k s.ftime
  if (s.groupAt 64).stale then fails
  else match s.freeClaim with
    | none => fails
    | some i =>
      let a := s.retirement x
      let s := s.setCtx k { x with teardown := some { t with slot := some i, te := a.te, retry := none } }
      (s.emit (.announcement a)).receiveClaim a

/-- The commands that wait on a context: PAUSE for the ladder, MIGRATE FINAL for its delta. -/
def Context.waiting (x : Context) : List Word :=
  (match x.ladder with
    | some l => l.tags
    | none => []) ++
  (match x.migration.bind (·.final) with
    | some (_, _, tag) => [tag]
    | none => [])

/-- The partition of a context that is being torn down is struck, with NACK for its queued messages, and its retirement proposed
(R310 steps 1 and 2), once no instruction is at work that ends first (R283). -/
def State.strikeDown (s : State) (k : Nat) (t : Teardown) : State :=
  if s.mayStrike k then
    let t := { t with struck := true }
    let s := s.strikeCtx k 2
    (s.setCtx k { s.ctxAt k with teardown := some t }).propose k t
  else s

/-- R310, R319: a command that waits on the context returns −3, dispatch stops, the partition is struck, and the retirement is
proposed. A context without a VF has nothing to retire. -/
def execTeardown (tag h : Word) (s : State) : Host.Outcome State Fault Refusal :=
  match s.byHandle h with
  | none => .next (s.respond tag (-2) 0 0 0)
  | some (k, x) =>
    let s := s.answerAll x.waiting (-3)
    let gone := decide (x.state = .created ∨ x.state = .evicted)
    let t : Teardown := ⟨tag, 0, s.ftime, none, (s.vfAt x.vf).gen, x.vf, x.clusters, none, gone, false⟩
    let y := s.ctxAt k
    let s := s.setCtx k { y with
      teardown := some t, migration := none, ladder := y.ladder.map (fun l => { l with tags := [], why := .pause }) }
    if x.state = .created then .next (s.endTeardown k s.ftime)
    else if x.state = .evicted then .next (s.propose k t)
    else .next (s.strikeDown k t)

/-- R310: a partition at whose TEARDOWN an instruction had to end first is struck; 100 µs after an outcome other than 1 the root
proposes again. -/
def execTeardownRepropose (ctx : Nat) (s : State) : Host.Outcome State Fault Refusal :=
  match (s.ctxAt ctx).teardown with
  | some t =>
    if !t.struck then .next (s.strikeDown ctx t)
    else (match t.retry with
     | some at_ => if at_ ≤ s.ftime then .next (s.propose ctx { t with tries := t.tries + 1 }) else .next s
     | none => .next s)
  | none => .next s

/-- R310 step 4: 100 µs after T_e the clusters are bindable. -/
def execClusterRelease (ctx : Nat) (s : State) : Host.Outcome State Fault Refusal :=
  let x := s.ctxAt ctx
  match x.teardown with
  | some t =>
    if x.state = .gone ∧ t.te + 100000 ≤ s.ftime then
      let s := t.mask.foldl (fun s c =>
        let y := s.clusterAt c
        if y.owner.isNone then s.setCluster c { y with free := 0 } else s) s
      .next (s.setCtx ctx { x with teardown := none, clusters := [] })
    else .next s
  | none => .next s

/-! ### QUERY (R304) -/

/-- The states in the order of R300. -/
def ctxCode : CtxState → Nat
  | .created => 0 | .bound => 1 | .running => 2 | .paused => 3 | .evicted => 4 | .gone => 5

/-- Every ring of a VF in QERR is reset (R304, R294). -/
def State.resetQerr (s : State) (vf : Nat) : State :=
  (List.range 16).foldl (fun s r =>
    let x := s.ringAt vf r
    if x.state = 2 then
      (match execRingReset vf r x.enabled s with
       | .next t => t
       | _ => s)
    else s) s

/-- R304: QUERY of a context, an image or a queue handle. -/
def execQuery (tag h arg : Word) (s : State) : Host.Outcome State Fault Refusal :=
  let answer (s : State) (r0 : Nat) (k : Nat) (x : Context) : Host.Outcome State Fault Refusal :=
    .next (s.respond tag 0 (BitVec.ofNat 64 r0)
      (BitVec.ofNat 64 (if x.holds then x.clusters.length else 0)) (BitVec.ofNat 64 (s.imageLen k)))
  let reset (x : Context) : State := if arg.getLsbD 0 then s.resetQerr x.vf else s
  match s.byHandle h with
  | some (k, x) => answer (reset x) (ctxCode x.state) k x
  | none => match s.byQueue h with
    | some (k, x) =>
      let t := reset x
      answer t (((List.range 16).map (fun r => (t.ringAt x.vf r).state * 4 ^ r)).sum) k x
    | none => match s.byImage h with
      | some (k, x) => answer (reset x) (ctxCode x.state) k x
      | none => .next (s.respond tag (-2) 0 0 0)

/-! ### The command block (R303) -/

/-- The dword of a command block at an offset. -/
def blockWord (b : List Byte) (off : Nat) : Word := BitVec.ofNat 64 (leNat ((b.drop off).take 8))

/-- What the command that a block holds does: OPCODE, zero, TAG, H0 and H1, A0 to A3; the rest of the block is zero. None for a block
that holds no command of R304 (log 93). -/
def mailboxCommand (b : List Byte) : Option (State → Host.Outcome State Fault Refusal) :=
  let tag := blockWord b 8
  let h := blockWord b 16
  let a (i : Nat) : Word := blockWord b (32 + 8 * i)
  if !blobZero b 4 4 ∨ !blobZero b 64 4032 then none
  else match blobNat b 0 4 with
  | 1 => some (execContext tag (a 0) (a 1))
  | 2 => some (execBind tag h (a 0) (a 1) (a 2))
  | 3 => some (execSchedule tag h (a 0))
  | 4 => some (execPauseContext tag h)
  | 5 => some (execResume tag h (a 0))
  | 6 => some (execEvict tag h (a 0) (a 1))
  | 7 => some (execRestore tag h (a 0) (a 1))
  | 8 => (match (a 0).toNat with
    | 0 => some (execMigrateStart tag h (a 1) (a 2) (a 3))
    | 1 => some (execMigrateFinal tag h (a 1) (a 2))
    | 2 => some (execMigrateCancel tag h)
    | 3 => some (execMigrateKeyx tag h (a 1) (a 2))
    | _ => none)
  | 9 => some (execTeardown tag h)
  | 10 => some (execQuery tag h (a 0))
  | _ => none

/-- The 4,096 bytes of MBCMD. -/
def State.commandBlock (s : State) : List Byte := (List.range 4096).map (fun i => (look s.mbcmd i).getD 0)

/-- The host writes the PF's BAR (R303): MBCMD takes its bytes, and 1 in MBDB submits them, while no command is taken; what else is
written is discarded. -/
def State.pfWrite (s : State) (off : Nat) (bs : List Byte) : State :=
  if off = 0 then
    if leNat bs = 1 ∧ s.busy = false then { s with command := some s.commandBlock, busy := true } else s
  else if 0x1000 ≤ off ∧ off + bs.length ≤ 0x2000 then
    { s with mbcmd := (List.range bs.length).foldl (fun m i => put m (off - 0x1000 + i) (bs.getD i 0)) s.mbcmd }
  else s

/-- MBRSP (R303): STATUS, TAG, R0 to R2. -/
def State.responseBytes (s : State) : List Byte :=
  match s.response with
  | some (tag, st, r0, r1, r2) => leBytes 8 (Sys2Proof.status st).toNat ++ [tag, r0, r1, r2].flatMap (fun w => leBytes 8 w.toNat)
  | none => []

/-- The root runs the command that it has taken, and clears BUSY when it has (R303, R306); one that waits does not keep BUSY, and is
answered when it ends (log 93). A block that holds no command is answered −6. -/
def execMailbox (s : State) : Host.Outcome State Fault Refusal :=
  match s.command with
  | none => .next s
  | some b =>
    let t : State := { s with command := none }
    match (match mailboxCommand b with
      | some g => g t
      | none => .next (t.respond (blockWord b 8) (-6) 0 0 0)) with
    | .next u => .next { u with busy := false }
    | o => o

/-- What the PF's BAR reads (R303). -/
def State.pfByte (s : State) (off : Nat) : Byte :=
  if off = 8 then BitVec.ofNat 8 (bitOf s.busy)
  else if 0x1000 ≤ off ∧ off < 0x2000 then (look s.mbcmd (off - 0x1000)).getD 0
  else if 0x2000 ≤ off ∧ off < 0x3000 then s.responseBytes.getD (off - 0x2000) 0
  else 0

end Sys2Proof.Machine
end

