-- ==== Sys2Proof/Machine/Firmware.lean ====
section
/-! DEFINITION. Identity, boot, recovery and housekeeping (R311 to R318), and the TDISP and IDE state of a VF (R292). -/
namespace Sys2Proof.Machine

/-! ### Boot (R313 to R315) -/

/-- A slot boots: its signature verifies over its digest and its security version is not below the counter (R313). -/
def State.slotBoots (s : State) (img : List Byte) : Bool :=
  Config.verify Config.vendorKey (sha3 (Config.fwBody img)) (Config.fwSig img) && decide (s.secCounter ≤ Config.fwVersion img)

/-- The image in a slot. -/
def State.slotImage (s : State) (i : Nat) : List Byte := if i = 0 then s.slotA else s.slotB

/-- The slot that boots: the selected one, else the other (R313). -/
def State.bootSlot (s : State) : Option Nat :=
  let i := s.slotSelect % 2
  if s.slotBoots (s.slotImage i) then some i
  else if s.slotBoots (s.slotImage (1 - i)) then some (1 - i)
  else none

/-- HBM training (R315, R317): a channel with a location that has reported an error is mapped to one of the two spares of its
stack. -/
def trainHbm (die : Nat) (worn : List Nat) (d : Die) : Die :=
  worn.foldl (fun d a => match memoryAt a with
    | some (.hbm i c) =>
      if i ≠ die ∨ d.channels.contains (controllerOf a, c) ∨ 2 ≤ (d.channels.filter (fun q => q.1 = controllerOf a)).length then d
      else { d with channels := d.channels ++ [(controllerOf a, c)] }
    | _ => d) d

/-- A location that has reported an error still serves after the repairs of a boot: in a channel of HBM that no spare has replaced.
The rows of SRAMs have spares (R315, R317). -/
def stillWorn (ds : List (Nat × Die)) (a : Nat) : Bool :=
  match memoryAt a with
  | some (.hbm i c) => !((look ds i).any (fun d => d.channels.contains (controllerOf a, c)))
  | _ => false

/-- What power-on leaves, with HBM trained or, in the recovery state, not (R314): the reset state, with what the flash holds, the spares
in service, the monitors' records, the host's memory and the model's own counters; fabric time is the pod's (R231, R315). -/
def State.powerOn (s : State) (pos : Nat) (train : Bool) : State :=
  let ds := s.dies.map (fun p => (p.1,
    trainHbm p.1 (if train then s.retired else []) { Die.reset with spares := p.2.spares, channels := p.2.channels }))
  { State.reset with
    agenda := s.agenda, outbox := s.outbox, engineTurn := s.engineTurn, rotor := s.rotor
    steps := s.steps, fresh := s.fresh + 1, nextId := s.nextId
    mem := s.mem.filter (fun c => decide (2 ^ 90 ≤ c.1))
    dies := ds, retired := if train then s.retired.filter (stillWorn ds) else s.retired, corrected := s.corrected, oscillators := s.oscillators
    pos := pos, pod := s.pod, ftime := (Config.freeWord s.fresh).toNat
    slotA := s.slotA, slotB := s.slotB, slotSelect := s.slotSelect, secCounter := s.secCounter }

/-- The public identity and alias keys that a boot derives (R311): the alias key is bound to the measurements of what runs, the ROM and
the firmware, where a slot has booted. -/
def bootKeysOf (img : Option (List Byte)) : List Byte × List Byte :=
  let id := Config.identityKey Config.helper
  (id, Config.aliasKey id (Config.romDigest ++ (match img with
    | some b => sha3 (Config.fwBody b)
    | none => [])))

/-- R313 to R315: the boot ROM boots a slot, or the device enters the recovery state. A primary root that fails its self-test
is replaced by the spare. -/
def execPowerOnBoot (pos : Nat) (s : State) : Host.Outcome State Fault Refusal :=
  let t := s.powerOn pos s.bootSlot.isSome
  match s.bootSlot with
  | none => .next { t with power := .recovery, bootKeys := some (bootKeysOf none) }
  | some i =>
    let img := s.slotImage i
    .next { t with
      power := .p2, booted := some i, secCounter := max s.secCounter (Config.fwVersion img)
      spareRoot := !Config.selfTest s.steps
      bootKeys := some (bootKeysOf (some img))
      kernelCode := Config.fwKernel img, kernelVector := Config.fwVector img }

/-- R314: a signed image goes to slot A in the recovery state, else to the slot that did not boot. -/
def execFirmwareImageWrite (img : List Byte) (s : State) : Host.Outcome State Fault Refusal :=
  if !Config.verify Config.vendorKey (sha3 (Config.fwBody img)) (Config.fwSig img) then .next s
  else match s.power, s.booted with
    | .recovery, _ => .next { s with slotA := img }
    | _, some 0 => .next { s with slotB := img }
    | _, some _ => .next { s with slotA := img }
    | _, none => .next s

/-! ### Attestation (R312) -/

/-- The block that GET_MEASUREMENTS returns for an index, for the requesting VF; none for an index that has none. -/
def State.measurement (s : State) (index vf : Nat) : Option (List Byte) :=
  let img := s.slotImage (s.booted.getD 0)
  match index with
  | 1 => some Config.romDigest
  | 2 => some (if s.booted.isSome then sha3 (Config.fwBody img) ++ natBytes 8 (Config.fwVersion img) else List.replicate 72 0)
  | 3 => some (sha3 s.kernelCode)
  | 4 => some Config.microcodeDigest
  | 5 => some (match s.ctxOfVf vf with
    | some k => (s.ctxAt k).policy.digest
    | none => List.replicate 64 0)
  | 0xF0 => some [if s.power = .recovery then 2 else 1]
  | _ => none

/-- R312, R8: the block goes out with its index, signed with the alias key, and with Iglote's certificate for the identity key (R311). -/
def execGetMeasurements (index vf : Nat) (s : State) : Host.Outcome State Fault Refusal :=
  match s.measurement index vf with
  | some b =>
    let key := (s.bootKeys.map (·.2)).getD []
    .next (s.emit (.attestation index b (Config.attest key ([BitVec.ofNat 8 index] ++ b)) Config.certificate))
  | none => .next s

/-! ### Monitors (R316, R318) -/

/-- The device moves to P1 from any state that runs. -/
def State.toP1 (s : State) : State :=
  match s.power with
  | .p0 => { s with power := .p1 }
  | .p2 => { s with power := .p1 }
  | _ => s

/-- R316: 95 °C and 105 °C. -/
def execTemperatureThreshold (celsius : Nat) (s : State) : Host.Outcome State Fault Refusal :=
  if 105 ≤ celsius then .next { s with power := if s.power = .off then .off else .shutdown }
  else if 95 ≤ celsius then .next s.toP1
  else .next s

/-- R316, R265: a rail outside its range raises a MACHINE event, whose EVAL the spec does not state (log 44), and P1. -/
def execVoltageFault (_rail core : Nat) (s : State) : Host.Outcome State Fault Refusal :=
  let v := s.freeValue
  let c := v.2.coreAt core
  .next ((v.2.setCore core { c with events := c.events ++ [⟨false, v.1, 15⟩] }).takeNext core).toP1

/-! ### TDISP and IDE (R292) -/

/-- A VF's TDI changes its state, and the host sees it. -/
def State.setTdi (s : State) (vf : Nat) (t : Tdi) : State := (s.setVf vf { s.vfAt vf with tdi := t }).emit (.tdi vf t)

/-- R292: lock from CONFIG_UNLOCKED; start from CONFIG_LOCKED, with a bound context and an IDE stream, the VF's own or the link's; stop
from any state; an error of a locked or running TDI. A request that its state does not allow changes nothing. -/
def execTdispRequest (vf : Nat) (r : TdispReq) (s : State) : Host.Outcome State Fault Refusal :=
  let v := s.vfAt vf
  let bound := s.contexts.any (fun p => decide (p.2.vf = vf ∧ vf ≠ 0) && p.2.holds)
  if vfExists vf = false then .next s else
  .next (match r, v.tdi with
    | .lock, .unlocked => s.setTdi vf .locked
    | .start, .locked => if bound && (v.ide.isSome || s.linkIde.isSome) then s.setTdi vf .run else s
    | .stop, _ => s.setTdi vf .unlocked
    | .error, .locked => s.setTdi vf .error
    | .error, .run => s.setTdi vf .error
    | _, _ => s)

/-- R292: IDE_KM installs the keys of a stream over a secured SPDM session: the selective stream of a VF, or with 0 for it the link's
(log 96). -/
def execIdeKmKeyProg (vf key : Nat) (s : State) : Host.Outcome State Fault Refusal :=
  .next (if !s.secured then s else if vf = 0 then { s with linkIde := some key }
    else if vfExists vf then s.setVf vf { s.vfAt vf with ide := some key } else s)

end Sys2Proof.Machine
end

