-- ==== Sys2Proof/Machine/IntOps.lean ====
section
/-! DEFINITION. The scalar integer instructions (R37 to R39, R60, R61, R170): no operation traps or writes a status.
Each meaning is one line over the operations that follow. -/
namespace Sys2Proof.Machine

/-! ### The operations at width n (R170) -/

def opMul {n : Nat} (a b : BitVec n) : BitVec n := a * b
/-- Bits [2n - 1:n] of the signed product. -/
def opMulh {n : Nat} (a b : BitVec n) : BitVec n := BitVec.ofInt n (a.toInt * b.toInt / 2 ^ n)
/-- Bits [2n - 1:n] of the unsigned product. -/
def opMulhn {n : Nat} (a b : BitVec n) : BitVec n := BitVec.ofNat n (a.toNat * b.toNat / 2 ^ n)
/-- Truncated toward zero; by zero all ones; the most negative value by -1 is itself. -/
def opDiv {n : Nat} (a b : BitVec n) : BitVec n :=
  if b = 0 then BitVec.allOnes n else BitVec.ofInt n (a.toInt.tdiv b.toInt)
def opDivn {n : Nat} (a b : BitVec n) : BitVec n := if b = 0 then BitVec.allOnes n else a / b
/-- The remainder has the sign of the dividend; by zero it is the dividend. -/
def opRem {n : Nat} (a b : BitVec n) : BitVec n := if b = 0 then a else BitVec.ofInt n (a.toInt.tmod b.toInt)
def opRemn {n : Nat} (a b : BitVec n) : BitVec n := if b = 0 then a else a % b
def opAndn {n : Nat} (a b : BitVec n) : BitVec n := a &&& ~~~b
/-- Shift amounts are taken modulo the width. -/
def opShl {n : Nat} (a b : BitVec n) : BitVec n := a <<< (b.toNat % n)
def opShr {n : Nat} (a b : BitVec n) : BitVec n := a >>> (b.toNat % n)
def opShra {n : Nat} (a b : BitVec n) : BitVec n := a.sshiftRight (b.toNat % n)
/-- Rotation to the right (R409). -/
def opRot {n : Nat} (a b : BitVec n) : BitVec n := a.rotateRight (b.toNat % n)
def opMin {n : Nat} (a b : BitVec n) : BitVec n := if b.slt a then b else a
def opMax {n : Nat} (a b : BitVec n) : BitVec n := if a.slt b then b else a
def opMinn {n : Nat} (a b : BitVec n) : BitVec n := if b.ult a then b else a
def opMaxn {n : Nat} (a b : BitVec n) : BitVec n := if a.ult b then b else a
def opSlt {n : Nat} (a b : BitVec n) : BitVec n := boolWord (a.slt b)
def opSltn {n : Nat} (a b : BitVec n) : BitVec n := boolWord (a.ult b)
def opSeq {n : Nat} (a b : BitVec n) : BitVec n := boolWord (a == b)
/-- The zero bits above the highest set bit (R357). -/
def opClz {n : Nat} (a : BitVec n) : BitVec n :=
  BitVec.ofNat n (if a = 0 then n else n - 1 - a.toNat.log2)
/-- The number of set bits (R399). -/
def opPopc {n : Nat} (a : BitVec n) : BitVec n :=
  BitVec.ofNat n ((List.range n).filter (fun i => a.getLsbD i)).length
/-- SignExtend and ZeroExtend of the low 8, 16 or 32 bits (R420, R449). -/
def opSext (b : BitVec 5) (a : Word) : Word :=
  if b = 0 then (a.setWidth 8).signExtend 64 else if b = 1 then (a.setWidth 16).signExtend 64
  else (a.setWidth 32).signExtend 64
def opZext (b : BitVec 5) (a : Word) : Word :=
  if b = 0 then (a.setWidth 8).setWidth 64 else if b = 1 then (a.setWidth 16).setWidth 64
  else (a.setWidth 32).setWidth 64

/-- An INT operation on two registers (R37). -/
def State.intOp (s : State) (w : BitVec 1) (b a d : BitVec 5) (f64 : Word → Word → Word) (f32 : Lane → Lane → Lane) :
    Host.Outcome State Fault Refusal :=
  .next (s.writeG d (atWidth w f64 f32 (s.cur.gpr a) (s.cur.gpr b)) 4)

/-- An INTI operation on a register and an immediate (R38). -/
def State.immOp (s : State) (i : BitVec 12) (a d : BitVec 5) (f : Word → Word → Word) :
    Host.Outcome State Fault Refusal :=
  .next (s.writeG d (f (s.cur.gpr a) (imm12 i)) 4)

/-- A shift by an immediate amount (R38). -/
def State.shiftOp (s : State) (w : BitVec 1) (m : BitVec 6) (a d : BitVec 5) (f64 : Word → Word → Word)
    (f32 : Lane → Lane → Lane) : Host.Outcome State Fault Refusal :=
  .next (s.writeG d (atWidth w f64 f32 (s.cur.gpr a) (zext64 m)) 4)

/-- A 16-bit operation on its destination and a second operand (R60, R61). -/
def State.halfOp (s : State) (y : Word) (d : BitVec 5) (f : Word → Word → Word) :
    Host.Outcome State Fault Refusal :=
  .next (s.writeG d (f (s.cur.gpr d) y) 2)

/-! ### The meanings -/

/-- R321. -/
def execAdd (w : BitVec 1) (b a d : BitVec 5) (s : State) : Host.Outcome State Fault Refusal :=
  s.intOp w b a d (· + ·) (· + ·)

/-- R425. -/
def execSub (w : BitVec 1) (b a d : BitVec 5) (s : State) : Host.Outcome State Fault Refusal :=
  s.intOp w b a d (· - ·) (· - ·)

/-- R394. -/
def execMul (w : BitVec 1) (b a d : BitVec 5) (s : State) : Host.Outcome State Fault Refusal :=
  s.intOp w b a d opMul opMul

/-- R394. -/
def execMulh (w : BitVec 1) (b a d : BitVec 5) (s : State) : Host.Outcome State Fault Refusal :=
  s.intOp w b a d opMulh opMulh

/-- R394. -/
def execMulhn (w : BitVec 1) (b a d : BitVec 5) (s : State) : Host.Outcome State Fault Refusal :=
  s.intOp w b a d opMulhn opMulhn

/-- R362. -/
def execDiv (w : BitVec 1) (b a d : BitVec 5) (s : State) : Host.Outcome State Fault Refusal :=
  s.intOp w b a d opDiv opDiv

/-- R362. -/
def execDivn (w : BitVec 1) (b a d : BitVec 5) (s : State) : Host.Outcome State Fault Refusal :=
  s.intOp w b a d opDivn opDivn

/-- R403. -/
def execRem (w : BitVec 1) (b a d : BitVec 5) (s : State) : Host.Outcome State Fault Refusal :=
  s.intOp w b a d opRem opRem

/-- R403. -/
def execRemn (w : BitVec 1) (b a d : BitVec 5) (s : State) : Host.Outcome State Fault Refusal :=
  s.intOp w b a d opRemn opRemn

/-- R332. -/
def execAnd (w : BitVec 1) (b a d : BitVec 5) (s : State) : Host.Outcome State Fault Refusal :=
  s.intOp w b a d (· &&& ·) (· &&& ·)

/-- R397. -/
def execOr (w : BitVec 1) (b a d : BitVec 5) (s : State) : Host.Outcome State Fault Refusal :=
  s.intOp w b a d (· ||| ·) (· ||| ·)

/-- R448. -/
def execXor (w : BitVec 1) (b a d : BitVec 5) (s : State) : Host.Outcome State Fault Refusal :=
  s.intOp w b a d (· ^^^ ·) (· ^^^ ·)

/-- R333. -/
def execAndn (w : BitVec 1) (b a d : BitVec 5) (s : State) : Host.Outcome State Fault Refusal :=
  s.intOp w b a d opAndn opAndn

/-- R421. -/
def execShl (w : BitVec 1) (b a d : BitVec 5) (s : State) : Host.Outcome State Fault Refusal :=
  s.intOp w b a d opShl opShl

/-- R421. -/
def execShr (w : BitVec 1) (b a d : BitVec 5) (s : State) : Host.Outcome State Fault Refusal :=
  s.intOp w b a d opShr opShr

/-- R421. -/
def execShra (w : BitVec 1) (b a d : BitVec 5) (s : State) : Host.Outcome State Fault Refusal :=
  s.intOp w b a d opShra opShra

/-- R409. -/
def execRot (w : BitVec 1) (b a d : BitVec 5) (s : State) : Host.Outcome State Fault Refusal :=
  s.intOp w b a d opRot opRot

/-- R376. -/
def execMin (w : BitVec 1) (b a d : BitVec 5) (s : State) : Host.Outcome State Fault Refusal :=
  s.intOp w b a d opMin opMin

/-- R376. -/
def execMax (w : BitVec 1) (b a d : BitVec 5) (s : State) : Host.Outcome State Fault Refusal :=
  s.intOp w b a d opMax opMax

/-- R376. -/
def execMinn (w : BitVec 1) (b a d : BitVec 5) (s : State) : Host.Outcome State Fault Refusal :=
  s.intOp w b a d opMinn opMinn

/-- R376. -/
def execMaxn (w : BitVec 1) (b a d : BitVec 5) (s : State) : Host.Outcome State Fault Refusal :=
  s.intOp w b a d opMaxn opMaxn

/-- R419. -/
def execSlt (w : BitVec 1) (b a d : BitVec 5) (s : State) : Host.Outcome State Fault Refusal :=
  s.intOp w b a d opSlt opSlt

/-- R419. -/
def execSltn (w : BitVec 1) (b a d : BitVec 5) (s : State) : Host.Outcome State Fault Refusal :=
  s.intOp w b a d opSltn opSltn

/-- R419. -/
def execSeq (w : BitVec 1) (b a d : BitVec 5) (s : State) : Host.Outcome State Fault Refusal :=
  s.intOp w b a d opSeq opSeq

/-- R357. -/
def execClz (w : BitVec 1) (a d : BitVec 5) (s : State) : Host.Outcome State Fault Refusal :=
  s.intOp w a a d (fun x _ => opClz x) (fun x _ => opClz x)

/-- R399. -/
def execPopc (w : BitVec 1) (a d : BitVec 5) (s : State) : Host.Outcome State Fault Refusal :=
  s.intOp w a a d (fun x _ => opPopc x) (fun x _ => opPopc x)

/-- R420. -/
def execSext (b a d : BitVec 5) (s : State) : Host.Outcome State Fault Refusal :=
  .next (s.writeG d (opSext b (s.cur.gpr a)) 4)

/-- R449. -/
def execZext (b a d : BitVec 5) (s : State) : Host.Outcome State Fault Refusal :=
  .next (s.writeG d (opZext b (s.cur.gpr a)) 4)

/-- R38, R321. -/
def execAddImm (i : BitVec 12) (a d : BitVec 5) (s : State) : Host.Outcome State Fault Refusal :=
  s.immOp i a d (· + ·)

/-- R38, R332. -/
def execAndImm (i : BitVec 12) (a d : BitVec 5) (s : State) : Host.Outcome State Fault Refusal :=
  s.immOp i a d (· &&& ·)

/-- R38, R397. -/
def execOrImm (i : BitVec 12) (a d : BitVec 5) (s : State) : Host.Outcome State Fault Refusal :=
  s.immOp i a d (· ||| ·)

/-- R38, R448. -/
def execXorImm (i : BitVec 12) (a d : BitVec 5) (s : State) : Host.Outcome State Fault Refusal :=
  s.immOp i a d (· ^^^ ·)

/-- R38, R419. -/
def execSltImm (i : BitVec 12) (a d : BitVec 5) (s : State) : Host.Outcome State Fault Refusal :=
  s.immOp i a d opSlt

/-- R38, R419. -/
def execSltnImm (i : BitVec 12) (a d : BitVec 5) (s : State) : Host.Outcome State Fault Refusal :=
  s.immOp i a d opSltn

/-- R38, R419. -/
def execSeqImm (i : BitVec 12) (a d : BitVec 5) (s : State) : Host.Outcome State Fault Refusal :=
  s.immOp i a d opSeq

/-- R38, R421. -/
def execShlImm (w : BitVec 1) (m : BitVec 6) (a d : BitVec 5) (s : State) : Host.Outcome State Fault Refusal :=
  s.shiftOp w m a d opShl opShl

/-- R38, R421. -/
def execShrImm (w : BitVec 1) (m : BitVec 6) (a d : BitVec 5) (s : State) : Host.Outcome State Fault Refusal :=
  s.shiftOp w m a d opShr opShr

/-- R38, R421. -/
def execShraImm (w : BitVec 1) (m : BitVec 6) (a d : BitVec 5) (s : State) : Host.Outcome State Fault Refusal :=
  s.shiftOp w m a d opShra opShra

/-- R38, R409. -/
def execRotImm (w : BitVec 1) (m : BitVec 6) (a d : BitVec 5) (s : State) : Host.Outcome State Fault Refusal :=
  s.shiftOp w m a d opRot opRot

/-- R39, R373: SignExtend(IMM20, 20). -/
def execLi (i : BitVec 20) (d : BitVec 5) (s : State) : Host.Outcome State Fault Refusal :=
  .next (s.writeG d (i.signExtend 64) 4)

/-- R39, R373: the register moves up by 20 bits and the immediate enters below. -/
def execLis (i : BitVec 20) (d : BitVec 5) (s : State) : Host.Outcome State Fault Refusal :=
  .next (s.writeG d ((s.cur.gpr d <<< 20) ||| zext64 i) 4)

/-- R61: OR of a register and g0. -/
def execMov (a d : BitVec 5) (s : State) : Host.Outcome State Fault Refusal :=
  .next (s.writeG d (s.cur.gpr a) 2)

/-- R61. -/
def execAdd16 (a d : BitVec 5) (s : State) : Host.Outcome State Fault Refusal :=
  s.halfOp (s.cur.gpr a) d (· + ·)

/-- R61. -/
def execSub16 (a d : BitVec 5) (s : State) : Host.Outcome State Fault Refusal :=
  s.halfOp (s.cur.gpr a) d (· - ·)

/-- R61. -/
def execAddi16 (i : BitVec 6) (d : BitVec 5) (s : State) : Host.Outcome State Fault Refusal :=
  s.halfOp (i.signExtend 64) d (· + ·)

/-- R61. -/
def execAnd16 (a d : BitVec 5) (s : State) : Host.Outcome State Fault Refusal :=
  s.halfOp (s.cur.gpr a) d (· &&& ·)

/-- R61. -/
def execShli16 (m : BitVec 6) (d : BitVec 5) (s : State) : Host.Outcome State Fault Refusal :=
  s.halfOp (zext64 m) d opShl

/-- R61. -/
def execShri16 (m : BitVec 6) (d : BitVec 5) (s : State) : Host.Outcome State Fault Refusal :=
  s.halfOp (zext64 m) d opShr

end Sys2Proof.Machine
end

