-- ==== Sys2Proof/Machine/Dispatch.lean ====
section
/-! DEFINITION. What each instruction and each event does: one arm for each constructor, each one call of its meaning. -/
namespace Sys2Proof.Machine

def exec (i : Instr) (s : State) : Host.Outcome State Fault Refusal :=
  match i with
  | .add w b a d => Sys2Proof.Machine.execAdd w b a d s
  | .sub w b a d => Sys2Proof.Machine.execSub w b a d s
  | .mul w b a d => Sys2Proof.Machine.execMul w b a d s
  | .mulh w b a d => Sys2Proof.Machine.execMulh w b a d s
  | .mulhn w b a d => Sys2Proof.Machine.execMulhn w b a d s
  | .div w b a d => Sys2Proof.Machine.execDiv w b a d s
  | .divn w b a d => Sys2Proof.Machine.execDivn w b a d s
  | .rem w b a d => Sys2Proof.Machine.execRem w b a d s
  | .remn w b a d => Sys2Proof.Machine.execRemn w b a d s
  | .and w b a d => Sys2Proof.Machine.execAnd w b a d s
  | .or w b a d => Sys2Proof.Machine.execOr w b a d s
  | .xor w b a d => Sys2Proof.Machine.execXor w b a d s
  | .andn w b a d => Sys2Proof.Machine.execAndn w b a d s
  | .shl w b a d => Sys2Proof.Machine.execShl w b a d s
  | .shr w b a d => Sys2Proof.Machine.execShr w b a d s
  | .shra w b a d => Sys2Proof.Machine.execShra w b a d s
  | .rot w b a d => Sys2Proof.Machine.execRot w b a d s
  | .min w b a d => Sys2Proof.Machine.execMin w b a d s
  | .max w b a d => Sys2Proof.Machine.execMax w b a d s
  | .minn w b a d => Sys2Proof.Machine.execMinn w b a d s
  | .maxn w b a d => Sys2Proof.Machine.execMaxn w b a d s
  | .slt w b a d => Sys2Proof.Machine.execSlt w b a d s
  | .sltn w b a d => Sys2Proof.Machine.execSltn w b a d s
  | .seq w b a d => Sys2Proof.Machine.execSeq w b a d s
  | .clz w a d => Sys2Proof.Machine.execClz w a d s
  | .popc w a d => Sys2Proof.Machine.execPopc w a d s
  | .sext b a d => Sys2Proof.Machine.execSext b a d s
  | .zext b a d => Sys2Proof.Machine.execZext b a d s
  | .addImm i_ a d => Sys2Proof.Machine.execAddImm i_ a d s
  | .andImm i_ a d => Sys2Proof.Machine.execAndImm i_ a d s
  | .orImm i_ a d => Sys2Proof.Machine.execOrImm i_ a d s
  | .xorImm i_ a d => Sys2Proof.Machine.execXorImm i_ a d s
  | .sltImm i_ a d => Sys2Proof.Machine.execSltImm i_ a d s
  | .sltnImm i_ a d => Sys2Proof.Machine.execSltnImm i_ a d s
  | .seqImm i_ a d => Sys2Proof.Machine.execSeqImm i_ a d s
  | .shlImm w m a d => Sys2Proof.Machine.execShlImm w m a d s
  | .shrImm w m a d => Sys2Proof.Machine.execShrImm w m a d s
  | .shraImm w m a d => Sys2Proof.Machine.execShraImm w m a d s
  | .rotImm w m a d => Sys2Proof.Machine.execRotImm w m a d s
  | .li i_ d => Sys2Proof.Machine.execLi i_ d s
  | .lis i_ d => Sys2Proof.Machine.execLis i_ d s
  | .ld o s_ z c d => Sys2Proof.Machine.execLd o s_ z c d s
  | .lds o s_ z c d => Sys2Proof.Machine.execLds o s_ z c d s
  | .ldIndexed g s_ z c d => Sys2Proof.Machine.execLdIndexed g s_ z c d s
  | .ldsIndexed g s_ z c d => Sys2Proof.Machine.execLdsIndexed g s_ z c d s
  | .st o s_ z c d => Sys2Proof.Machine.execSt o s_ z c d s
  | .stx g s_ z c d => Sys2Proof.Machine.execStx g s_ z c d s
  | .br o => Sys2Proof.Machine.execBr o s
  | .call o => Sys2Proof.Machine.execCall o s
  | .beq o b a => Sys2Proof.Machine.execBeq o b a s
  | .bne o b a => Sys2Proof.Machine.execBne o b a s
  | .blt o b a => Sys2Proof.Machine.execBlt o b a s
  | .bge o b a => Sys2Proof.Machine.execBge o b a s
  | .bltn o b a => Sys2Proof.Machine.execBltn o b a s
  | .bgen o b a => Sys2Proof.Machine.execBgen o b a s
  | .loop o a => Sys2Proof.Machine.execLoop o a s
  | .jr a => Sys2Proof.Machine.execJr a s
  | .callr a => Sys2Proof.Machine.execCallr a s
  | .ret a => Sys2Proof.Machine.execRet a s
  | .xcall i_ m => Sys2Proof.Machine.execXcall i_ m s
  | .cmov a d => Sys2Proof.Machine.execCmov a d s
  | .cinc b a d => Sys2Proof.Machine.execCinc b a d s
  | .cbnd b a d => Sys2Proof.Machine.execCbnd b a d s
  | .cperm b a d => Sys2Proof.Machine.execCperm b a d s
  | .cget s_ a d => Sys2Proof.Machine.execCget s_ a d s
  | .ceq b a d => Sys2Proof.Machine.execCeq b a d s
  | .cldc o s_ c d => Sys2Proof.Machine.execCldc o s_ c d s
  | .cstc o s_ c d => Sys2Proof.Machine.execCstc o s_ c d s
  | .send t e q u c n g k => Sys2Proof.Machine.execSend t e q u c n g k s
  | .minst x b a d => Sys2Proof.Machine.execMinst x b a d s
  | .mpurgeSoft a d => Sys2Proof.Machine.execMpurgeSoft a d s
  | .mpurgeHard a d => Sys2Proof.Machine.execMpurgeHard a d s
  | .mqry a d => Sys2Proof.Machine.execMqry a d s
  | .cvtend => Sys2Proof.Machine.execCvtend s
  | .objver a d => Sys2Proof.Machine.execObjver a d s
  | .clprop p b a d => Sys2Proof.Machine.execClprop p b a d s
  | .clobj b a d => Sys2Proof.Machine.execClobj b a d s
  | .clwait a d => Sys2Proof.Machine.execClwait a d s
  | .clread p a d => Sys2Proof.Machine.execClread p a d s
  | .clgrp p b a d => Sys2Proof.Machine.execClgrp p b a d s
  | .amo s_ n w o b c d => Sys2Proof.Machine.execAmo s_ n w o b c d s
  | .cas s_ w b c d => Sys2Proof.Machine.execCas s_ w b c d s
  | .mcredAdd t g s_ c d => Sys2Proof.Machine.execMcredAdd t g s_ c d s
  | .mcredMax t g s_ c d => Sys2Proof.Machine.execMcredMax t g s_ c d s
  | .mcredMin t g s_ c d => Sys2Proof.Machine.execMcredMin t g s_ c d s
  | .mcst g s_ c d => Sys2Proof.Machine.execMcst g s_ c d s
  | .agset g s_ d => Sys2Proof.Machine.execAgset g s_ d s
  | .fence s_ => Sys2Proof.Machine.execFence s_ s
  | .fenceAcq s_ => Sys2Proof.Machine.execFenceAcq s_ s
  | .fenceRel s_ => Sys2Proof.Machine.execFenceRel s_ s
  | .waita e c d => Sys2Proof.Machine.execWaita e c d s
  | .pause => Sys2Proof.Machine.execPause s
  | .hbar i_ s_ => Sys2Proof.Machine.execHbar i_ s_ s
  | .qpush b l d s_ => Sys2Proof.Machine.execQpush b l d s_ s
  | .qpusht b l d s_ => Sys2Proof.Machine.execQpusht b l d s_ s
  | .qgath k b v d s_ => Sys2Proof.Machine.execQgath k b v d s_ s
  | .wmset n d => Sys2Proof.Machine.execWmset n d s
  | .wmget n => Sys2Proof.Machine.execWmget n s
  | .barinit a c => Sys2Proof.Machine.execBarinit a c s
  | .bararr c => Sys2Proof.Machine.execBararr c s
  | .barpend a c => Sys2Proof.Machine.execBarpend a c s
  | .barwait c d => Sys2Proof.Machine.execBarwait c d s
  | .barany m d => Sys2Proof.Machine.execBarany m d s
  | .mmctx m => Sys2Proof.Machine.execMmctx m s
  | .mmjob m b a d => Sys2Proof.Machine.execMmjob m b a d s
  | .mmwait d => Sys2Proof.Machine.execMmwait d s
  | .mmldt m a => Sys2Proof.Machine.execMmldt m a s
  | .mmdrain m a => Sys2Proof.Machine.execMmdrain m a s
  | .mmzero m => Sys2Proof.Machine.execMmzero m s
  | .trap i_ => Sys2Proof.Machine.execTrap i_ s
  | .eret => Sys2Proof.Machine.execEret s
  | .mfs r d => Sys2Proof.Machine.execMfs r d s
  | .mts r d => Sys2Proof.Machine.execMts r d s
  | .fresume d => Sys2Proof.Machine.execFresume d s
  | .safe i_ => Sys2Proof.Machine.execSafe i_ s
  | .bkpt => Sys2Proof.Machine.execBkpt s
  | .halt => Sys2Proof.Machine.execHalt s
  | .nop32 => Sys2Proof.Machine.execNop32 s
  | .reply n g k => Sys2Proof.Machine.execReply n g k s
  | .done32 => Sys2Proof.Machine.execDone32 s
  | .defer => Sys2Proof.Machine.execDefer s
  | .vadd t k b a d => Sys2Proof.Machine.execVadd t k b a d s
  | .vsub t k b a d => Sys2Proof.Machine.execVsub t k b a d s
  | .vmul t k b a d => Sys2Proof.Machine.execVmul t k b a d s
  | .vmin t k b a d => Sys2Proof.Machine.execVmin t k b a d s
  | .vmax t k b a d => Sys2Proof.Machine.execVmax t k b a d s
  | .vand t k b a d => Sys2Proof.Machine.execVand t k b a d s
  | .vor t k b a d => Sys2Proof.Machine.execVor t k b a d s
  | .vxor t k b a d => Sys2Proof.Machine.execVxor t k b a d s
  | .vshl t k b a d => Sys2Proof.Machine.execVshl t k b a d s
  | .vshr t k b a d => Sys2Proof.Machine.execVshr t k b a d s
  | .vshra t k b a d => Sys2Proof.Machine.execVshra t k b a d s
  | .vfma k b a d => Sys2Proof.Machine.execVfma k b a d s
  | .vfmaNeg k b a d => Sys2Proof.Machine.execVfmaNeg k b a d s
  | .vfn f k a d => Sys2Proof.Machine.execVfn f k a d s
  | .vcmp f t k b a d => Sys2Proof.Machine.execVcmp f t k b a d s
  | .vsel k b a d => Sys2Proof.Machine.execVsel k b a d s
  | .vld k z g c d => Sys2Proof.Machine.execVld k z g c d s
  | .vst k z g c d => Sys2Proof.Machine.execVst k z g c d s
  | .vgath k z i_ c d => Sys2Proof.Machine.execVgath k z i_ c d s
  | .vscat k z i_ c d => Sys2Proof.Machine.execVscat k z i_ c d s
  | .vred f t k a d => Sys2Proof.Machine.execVred f t k a d s
  | .vbcast k a d => Sys2Proof.Machine.execVbcast k a d s
  | .vperm k b a d => Sys2Proof.Machine.execVperm k b a d s
  | .vcvt s_ t k r u a d => Sys2Proof.Machine.execVcvt s_ t k r u a d s
  | .vdec k a d => Sys2Proof.Machine.execVdec k a d s
  | .venc k a d => Sys2Proof.Machine.execVenc k a d s
  | .mov a d => Sys2Proof.Machine.execMov a d s
  | .add16 a d => Sys2Proof.Machine.execAdd16 a d s
  | .sub16 a d => Sys2Proof.Machine.execSub16 a d s
  | .addi16 i_ d => Sys2Proof.Machine.execAddi16 i_ d s
  | .and16 a d => Sys2Proof.Machine.execAnd16 a d s
  | .shli16 m d => Sys2Proof.Machine.execShli16 m d s
  | .shri16 m d => Sys2Proof.Machine.execShri16 m d s
  | .ldD16 a d => Sys2Proof.Machine.execLdD16 a d s
  | .stD16 a d => Sys2Proof.Machine.execStD16 a d s
  | .br16 o => Sys2Proof.Machine.execBr16 o s
  | .bez o d => Sys2Proof.Machine.execBez o d s
  | .bnz o d => Sys2Proof.Machine.execBnz o d s
  | .done => Sys2Proof.Machine.execDone s
  | .nop => Sys2Proof.Machine.execNop s
  | .ret16 => Sys2Proof.Machine.execRet16 s
  | .illegal eval => Sys2Proof.Machine.execIllegal eval s
  | .trapEntry core => Sys2Proof.Machine.execTrapEntry core s
  | .machineEvent core source eval => Sys2Proof.Machine.execMachineEvent core source eval s
  | .trapUpcall core => Sys2Proof.Machine.execTrapUpcall core s
  | .dispatch core urgent => Sys2Proof.Machine.execDispatch core urgent s
  | .messageArrival core m o => Sys2Proof.Machine.execMessageArrival core m o s
  | .replyArrival core r => Sys2Proof.Machine.execReplyArrival core r s
  | .replySlotTimeout core slot => Sys2Proof.Machine.execReplySlotTimeout core slot s
  | .urgentQuotaWindow core => Sys2Proof.Machine.execUrgentQuotaWindow core s
  | .urgentQuotaExhausted core => Sys2Proof.Machine.execUrgentQuotaExhausted core s
  | .statelessBalance core => Sys2Proof.Machine.execStatelessBalance core s
  | .forwardQueuedMessages ctx => Sys2Proof.Machine.execForwardQueuedMessages ctx s
  | .hbarEpisodeComplete b => Sys2Proof.Machine.execHbarEpisodeComplete b s
  | .hbarEnrolRemove id pos => Sys2Proof.Machine.execHbarEnrolRemove id pos s
  | .storeBufferDrain core => Sys2Proof.Machine.execStoreBufferDrain core s
  | .remoteRequest r => Sys2Proof.Machine.execRemoteRequest r s
  | .remoteValue core frame rid v => Sys2Proof.Machine.execRemoteValue core frame rid v s
  | .acknowledgement core frame rid => Sys2Proof.Machine.execAcknowledgement core frame rid s
  | .remoteNotice core frame rid oid n => Sys2Proof.Machine.execRemoteNotice core frame rid oid n s
  | .translationCompletion die pasid range r w => Sys2Proof.Machine.execTranslationCompletion die pasid range r w s
  | .atsInvalidation pasid page => Sys2Proof.Machine.execAtsInvalidation pasid page s
  | .hotRecordInterval die ctl => Sys2Proof.Machine.execHotRecordInterval die ctl s
  | .scrub lo hi fixed => Sys2Proof.Machine.execScrub lo hi fixed s
  | .faultUpcall core => Sys2Proof.Machine.execFaultUpcall core s
  | .memorySideUpcall core => Sys2Proof.Machine.execMemorySideUpcall core s
  | .faultReplay die index => Sys2Proof.Machine.execFaultReplay die index s
  | .pageRequestRead core value => Sys2Proof.Machine.execPageRequestRead core value s
  | .pageRequestWrite core value => Sys2Proof.Machine.execPageRequestWrite core value s
  | .prgResponse index code => Sys2Proof.Machine.execPrgResponse index code s
  | .pageRequestUpcall core => Sys2Proof.Machine.execPageRequestUpcall core s
  | .requestAccept core => Sys2Proof.Machine.execRequestAccept core s
  | .copySector cluster request sector => Sys2Proof.Machine.execCopySector cluster request sector s
  | .barrierUpdate ctx oid off u => Sys2Proof.Machine.execBarrierUpdate ctx oid off u s
  | .copyBankSelect cluster bank => Sys2Proof.Machine.execCopyBankSelect cluster bank s
  | .matrixBankSelect cluster bank => Sys2Proof.Machine.execMatrixBankSelect cluster bank s
  | .mediaJobAccept die => Sys2Proof.Machine.execMediaJobAccept die s
  | .mediaJobEnd die job bits recon => Sys2Proof.Machine.execMediaJobEnd die job bits recon s
  | .matrixJobStart cluster => Sys2Proof.Machine.execMatrixJobStart cluster s
  | .matrixJobEnd cluster => Sys2Proof.Machine.execMatrixJobEnd cluster s
  | .converterStart core => Sys2Proof.Machine.execConverterStart core s
  | .laneFailure port => Sys2Proof.Machine.execLaneFailure port s
  | .linkDown port => Sys2Proof.Machine.execLinkDown port s
  | .declaredUnreachable pos => Sys2Proof.Machine.execDeclaredUnreachable pos s
  | .unreachableClasses pos => Sys2Proof.Machine.execUnreachableClasses pos s
  | .halyardIdleFlit port => Sys2Proof.Machine.execHalyardIdleFlit port s
  | .tagGroupReceive port flits fifth => Sys2Proof.Machine.execTagGroupReceive port flits fifth s
  | .tagGroupIdleFill port => Sys2Proof.Machine.execTagGroupIdleFill port s
  | .linkKeyRollover port => Sys2Proof.Machine.execLinkKeyRollover port s
  | .poisonNotice core p => Sys2Proof.Machine.execPoisonNotice core p s
  | .ftimeCorrection error => Sys2Proof.Machine.execFtimeCorrection error s
  | .halyardLoss => Sys2Proof.Machine.execHalyardLoss s
  | .memberRead pos coll ctx oid base len => Sys2Proof.Machine.execMemberRead pos coll ctx oid base len s
  | .memberWrite pos coll ctx oid base data => Sys2Proof.Machine.execMemberWrite pos coll ctx oid base data s
  | .memberValues coll pos absent data => Sys2Proof.Machine.execMemberValues coll pos absent data s
  | .collectiveTimeout coll => Sys2Proof.Machine.execCollectiveTimeout coll s
  | .collectiveEnd coll => Sys2Proof.Machine.execCollectiveEnd coll s
  | .datagramSend pod pos count => Sys2Proof.Machine.execDatagramSend pod pos count s
  | .datagramReceive tagx d => Sys2Proof.Machine.execDatagramReceive tagx d s
  | .datagramResend pod pos seq => Sys2Proof.Machine.execDatagramResend pod pos seq s
  | .announcementReceive a => Sys2Proof.Machine.execAnnouncementReceive a s
  | .objectionReceive o => Sys2Proof.Machine.execObjectionReceive o s
  | .claimResolve slot => Sys2Proof.Machine.execClaimResolve slot s
  | .claimSlotFree slot => Sys2Proof.Machine.execClaimSlotFree slot s
  | .reef ctx => Sys2Proof.Machine.execReef ctx s
  | .heaveTo ctx => Sys2Proof.Machine.execHeaveTo ctx s
  | .ladderHalt ctx => Sys2Proof.Machine.execLadderHalt ctx s
  | .ladderStopped ctx => Sys2Proof.Machine.execLadderStopped ctx s
  | .strike ctx => Sys2Proof.Machine.execStrike ctx s
  | .restoreFrames ctx => Sys2Proof.Machine.execRestoreFrames ctx s
  | .sliceEnd ctx => Sys2Proof.Machine.execSliceEnd ctx s
  | .pausemaxResume ctx => Sys2Proof.Machine.execPausemaxResume ctx s
  | .pauseExpiry core frame => Sys2Proof.Machine.execPauseExpiry core frame s
  | .waitaTimeout core frame => Sys2Proof.Machine.execWaitaTimeout core frame s
  | .waitaFullExpiry core frame => Sys2Proof.Machine.execWaitaFullExpiry core frame s
  | .ringDoorbell vf ring tail => Sys2Proof.Machine.execRingDoorbell vf ring tail s
  | .completionHead vf ring head => Sys2Proof.Machine.execCompletionHead vf ring head s
  | .ringEnable vf ring en => Sys2Proof.Machine.execRingEnable vf ring en s
  | .ringReset vf ring en => Sys2Proof.Machine.execRingReset vf ring en s
  | .ringInterruptEnable vf ring ie => Sys2Proof.Machine.execRingInterruptEnable vf ring ie s
  | .registerWrite vf offset value => Sys2Proof.Machine.execRegisterWrite vf offset value s
  | .msg vf ring => Sys2Proof.Machine.execMsg vf ring s
  | .pad vf ring => Sys2Proof.Machine.execPad vf ring s
  | .replaymark vf ring => Sys2Proof.Machine.execReplaymark vf ring s
  | .nopPacket vf ring => Sys2Proof.Machine.execNopPacket vf ring s
  | .ringPacketRetry vf ring => Sys2Proof.Machine.execRingPacketRetry vf ring s
  | .replaymarkEffect vf ring => Sys2Proof.Machine.execReplaymarkEffect vf ring s
  | .nopFenceComplete vf ring => Sys2Proof.Machine.execNopFenceComplete vf ring s
  | .context tag addr len => Sys2Proof.Machine.execContext tag addr len s
  | .bind tag h vf count pasid => Sys2Proof.Machine.execBind tag h vf count pasid s
  | .schedule tag h slice => Sys2Proof.Machine.execSchedule tag h slice s
  | .pauseContext tag h => Sys2Proof.Machine.execPauseContext tag h s
  | .resume tag h slice => Sys2Proof.Machine.execResume tag h slice s
  | .evict tag h addr len => Sys2Proof.Machine.execEvict tag h addr len s
  | .restore tag h addr len => Sys2Proof.Machine.execRestore tag h addr len s
  | .migrateStart tag h interval addr len => Sys2Proof.Machine.execMigrateStart tag h interval addr len s
  | .migrateFinal tag h addr len => Sys2Proof.Machine.execMigrateFinal tag h addr len s
  | .migrateCancel tag h => Sys2Proof.Machine.execMigrateCancel tag h s
  | .migrateKeyx tag h addr len => Sys2Proof.Machine.execMigrateKeyx tag h addr len s
  | .migrateSnapshot ctx => Sys2Proof.Machine.execMigrateSnapshot ctx s
  | .teardown tag h => Sys2Proof.Machine.execTeardown tag h s
  | .teardownRepropose ctx => Sys2Proof.Machine.execTeardownRepropose ctx s
  | .clusterRelease ctx => Sys2Proof.Machine.execClusterRelease ctx s
  | .query tag h arg => Sys2Proof.Machine.execQuery tag h arg s
  | .getMeasurements index vf => Sys2Proof.Machine.execGetMeasurements index vf s
  | .powerOnBoot pos => Sys2Proof.Machine.execPowerOnBoot pos s
  | .firmwareImageWrite img => Sys2Proof.Machine.execFirmwareImageWrite img s
  | .temperatureThreshold celsius => Sys2Proof.Machine.execTemperatureThreshold celsius s
  | .voltageFault rail core => Sys2Proof.Machine.execVoltageFault rail core s
  | .linkRetrained port => Sys2Proof.Machine.execLinkRetrained port s
  | .tdispRequest vf r => Sys2Proof.Machine.execTdispRequest vf r s
  | .ideKmKeyProg vf key => Sys2Proof.Machine.execIdeKmKeyProg vf key s
  | .valueTableCopy group rows => Sys2Proof.Machine.execValueTableCopy group rows s

end Sys2Proof.Machine
end

