-- ==== Sys2Proof/Machine/Run.lean ====
section
/-! DEFINITION. What one step is made of: waits that are over (R72), the frame that a core issues from (R68, R85), fetch
(R32, R33, R63, R64), the events that the device makes of itself, the turns of the agenda, and the passing of time. -/
namespace Sys2Proof.Machine

/-! ### The frame to issue from (R68, R72, R85, R398) -/

/-- What a frame waits for in place has come. A resynchronisation ends by VALUE_TABLE_COPY; when the member that was asked is reachable
no more, the CLGRP looks for another (R258). -/
def State.waitDone (s : State) (n f : Nat) : Wait → Bool
  | .release r => s.released n f r
  | .acks r => (s.frameAt n f).acked r
  | .sending r drain => (s.frameAt n f).acked r && (!drain || !s.buffered n f)
  | .drained a len => !s.ownBuffered n f a len
  | .ending _ => false
  | .halted => false
  | .room => decide ((s.coreAt n).buffer.length < 16)
  | .entering => (s.frameAt n f).entering.isEmpty
  | .ack rid => (s.frameAt n f).posted.all (fun p => decide (p.rid ≠ rid))
  | .pushing rid => (s.frameAt n f).posted.all (fun p => decide (p.rid ≠ rid))
  | .group g => !s.groupBusy g
  | .tile t upto => s.tileQuiet n t upto
  | .bank b => (s.jobsOf n).all (fun j => !usesBank b j)
  | .loading b => !s.bankLoading n b
  | .watermark oid lo hi => !s.stalled n oid lo hi
  | .translation die pasid page write => (s.translation die pasid page write).isSome
  | .resync _ _ p => s.halyardLost || (look s.declared p).isSome
  | .restored =>
    let x := s.ctxAt (s.ctxOf n)
    decide (x.state = .running) && !x.stopped && x.ladder.isNone
  | .pageRequests => decide (s.pageCount (s.ctxAt (s.ctxOf n)).vf < 64)
  | .updates home => s.inflight.all (fun i => match i with
    | .remoteRequest r => decide (r.core ≠ s.coreid n ∨ r.home ≠ home) || !isBarUpdate r.op
    | _ => true)
  | .migration ctx oid page => match s.liveAt (s.ctxAt ctx) oid with
    | some d => !(s.pageEntry (s.ctxAt ctx) d page).mig
    | none => true
  | .install r => s.released n f r
  | .table m => !s.tableBusy (s.ctxOf n) m
  | .purge m (some _) => !s.entersLater (s.ctxOf n) m n f && !s.tableBusy (s.ctxOf n) m
  | .purge m none => !((s.ctxAt (s.ctxOf n)).moduleAt m).purging

/-- A wait whose instruction looks at it itself when it executes again. -/
def keepsWait : Option Wait → Bool
  | some (.tile _ _) => true
  | some (.pushing _) => true
  | some (.purge _ (some _)) => true
  | _ => false

/-- An urgent frame that runs a message is held by the quota (R85). -/
def State.quotaStops (s : State) (n f : Nat) : Bool :=
  (f = 8 || f = 9) && (s.coreAt n).quotaHeld && (match (s.frameAt n f).act with
    | some a => decide (a.kind = .message)
    | none => false)

/-- Another frame of the core is READY, or was chosen and runs with nothing to wait for. -/
def State.othersReady (s : State) (n f : Nat) : Bool :=
  (List.range 11).any (fun g =>
    let fr := s.frameAt n g
    decide (g ≠ f) && (decide (fr.state = .ready) || decide (fr.state = .running) && fr.wait.isNone && fr.trap.isNone))

/-- The halt of the ladder has come for the partition of a core (R280): a stop that falls at a boundary is taken before the
next instruction (R65). -/
def State.halting (s : State) (n : Nat) : Bool :=
  match (s.ctxAt (s.ctxOf n)).ladder with
  | some l => l.stage = .halt
  | none => false

/-- A frame can be chosen (R68, R72): READY or RUNNING, not trapped, not halted, not waiting, not held by the quota, and not within the 64
cycles of a PAUSE, unless it is a tenant's frame and no other frame of the core is READY (R398). An instruction that ends
before its frame's trap is taken goes on. -/
def State.canIssue (s : State) (n f : Nat) : Bool :=
  let fr := s.frameAt n f
  (fr.state = .ready || fr.state = .running) && (fr.trap.isNone || endsFirst fr.wait || f = 10) &&
    (f = 10 || !s.halting n || endsFirst fr.wait) &&
    (match fr.wait with
     | some w => s.waitDone n f w
     | none => true) &&
    (decide (fr.pauseTo ≤ s.cycles) || (decide (f ≠ 10) && !s.othersReady n f)) && !s.quotaStops n f

/-- The frame of earliest ready time among some, the lower number first (R68). -/
def State.earliest (s : State) (n : Nat) (fs : List Nat) : Option Nat :=
  fs.foldl (fun (m : Option Nat) f =>
    if s.canIssue n f then
      match m with
      | none => some f
      | some b => if (s.frameAt n f).ready < (s.frameAt n b).ready then some f else m
    else m) none

/-- The frame that a core issues from (R68). -/
def State.choose (s : State) (n : Nat) : Option Nat :=
  if s.canIssue n 10 then some 10
  else match s.earliest n [8, 9] with
    | some f => some f
    | none => s.earliest n [0, 1, 2, 3, 4, 5, 6, 7]

/-- The core and frame to issue from when no turn names a core: the cores take turns (log 4). -/
def State.nextIssue (s : State) : Option (Nat × Nat) :=
  let pick (p : Nat × Core) : Option (Nat × Nat) := (s.choose p.1).map (fun f => (p.1, f))
  match (s.cores.filter (fun p => decide (s.core < p.1))).findSome? pick with
  | some q => some q
  | none => s.cores.findSome? pick

/-- The choice is made (R68, R69, R85): the frame is RUNNING, one that ran is READY, an urgent issue counts. -/
def State.turnTo (s : State) (n f : Nat) : State :=
  let c := s.coreAt n
  let c := (List.range 11).foldl (fun c g =>
    let fr := c.frameAt g
    if g ≠ f ∧ fr.state = .running ∧ fr.wait = none ∧ fr.trap = none then c.setFrame g { fr with state := .ready } else c) c
  let fr := c.frameAt f
  let c := c.setFrame f { fr with state := .running, wait := if keepsWait fr.wait then fr.wait else none }
  { s.setCore n { c with winCount := if f = 8 ∨ f = 9 then c.winCount + 1 else c.winCount } with core := n, frame := f }

/-! ### Fetch (R32, R33, R63, R64, R160, R286) -/

/-- What a fetch gives: an instruction, a pattern that is ILLEGAL, a version that is gone, an error in the code store. -/
inductive Fetched where
  | instr (i : Instr)
  | illegal (eval : Word)
  | straggler
  | bad
  deriving DecidableEq, Repr

/-- The fetch from a code section at an offset (R33, R63, R64). -/
def fetchAt (code : List Byte) (pc : Nat) : Fetched :=
  if code.length ≤ pc then .illegal (BitVec.allOnes 64)
  else
    let h := leNat ((code.drop pc).take 2)
    if h % 2 = 1 ∧ code.length ≤ pc + 2 then .illegal (BitVec.ofNat 64 h)
    else
      let bs := (code.drop pc).take (if h % 2 = 1 then 4 else 2)
      match decodeBytes bs with
      | .ok (i, _) => .instr i
      | .error _ => .illegal (BitVec.ofNat 64 (leNat bs))

/-- The bytes that a fetch takes from a code section (R32): two, or four where the first halfword is odd. -/
def fetchLen (code : List Byte) (pc : Nat) : Nat := if leNat ((code.drop pc).take 2) % 2 = 1 then 4 else 2

/-- An uncorrectable error in a code store lies under the fetch of a frame. -/
def State.badFetch (s : State) (n f : Nat) (b : Nat × Nat × Nat × Nat) : Bool :=
  let fr := s.frameAt n f
  let len := fetchLen ((s.codeOf n f).getD []) fr.pc.toNat
  decide (b.1 = clusterOf n ∧ b.2.1 = fr.modid.toNat ∧ b.2.2.1 = fr.ver.toNat ∧ fr.pc.toNat ≤ b.2.2.2 ∧ b.2.2.2 < fr.pc.toNat + len)

/-- The fetch of a frame. -/
def State.fetch (s : State) (n f : Nat) : Fetched :=
  match s.codeOf n f with
  | none => .straggler
  | some code =>
    if f ≠ 10 ∧ s.badCode.any (s.badFetch n f) then .bad
    else fetchAt code (s.frameAt n f).pc.toNat

/-- The location in a code store that a fetch has met is retired (R286; log 75), and its cluster has an error (R317). -/
def State.retireCode (s : State) (n f : Nat) : State :=
  { s with badCode := s.badCode.filter (fun b => !s.badFetch n f b) }.wearCluster (clusterOf n)

/-- One instruction of a frame: the built-in kernel where there is no kernel image (log 6), else what the fetch gives. The
EVAL of an error in a code store is not stated (log 44). -/
def State.issue (s : State) (n f : Nat) : Host.Outcome State Fault Refusal :=
  let t := s.turnTo n f
  if f = 10 ∧ t.kernelCode.isEmpty then .next (if (t.coreAt n).kernelRuns then t.kernelAct n else t.endHandling n)
  else match t.fetch n f with
    | .instr i => exec i t
    | .illegal e => exec (.illegal e) t
    | .straggler => .next (t.raise n f STRAGGLER (t.vctx n f))
    | .bad =>
      let v := t.freeValue
      .next ((v.2.retireCode n f).raise n f MACHINE v.1)

/-! ### Events that the device makes of itself -/

/-- The source and the destination core of what keeps its order under way (R81, R124, R217): class 2. An engine's reads and writes,
and one that has come to its home, do not; nor do replies, which are of class 1 (R405; log 103). -/
def State.flow (s : State) : Instr → Option (Nat × Nat)
  | .remoteRequest r => if s.hasCome (.remoteRequest r) || !orderedOp r then none else some (r.core, r.home)
  | .messageArrival n m _ => if m.host then none else some (m.sender.toNat, s.coreid n)
  | _ => none

/-- The n-th message under way is delivered. One behind an earlier one of its source and destination waits (R217), and so does an
access behind one that has come to its home (R222); what is for an EVICTED context waits for its restore. -/
def State.deliver (s : State) (n : Nat) : Host.Outcome State Fault Refusal :=
  match s.inflight[n]? with
  | none => .next s
  | some i =>
    let before := (s.inflight.take n).filter (fun j => !s.asleep j)
    let home (j : Instr) : Option Nat := (s.arrivalAt j).map (·.1)
    if s.asleep i || ((s.flow i).isSome && before.any (fun j => decide (s.flow j = s.flow i))) ||
        ((home i).isSome && before.any (fun j => s.hasCome j && decide (home j = home i))) then .next s
    else exec i { s with inflight := s.inflight.eraseIdx n }

/-- Something that the device does. -/
abbrev Doing := State → Host.Outcome State Fault Refusal

/-- The sectors of a cluster's accepted requests in the order in which the copy unit comes to them: the cores in turn, each
with its oldest request that has sectors to issue (R192). -/
def State.sectorsOf (s : State) (cl : Nat) : List Doing :=
  let c := s.clusterAt cl
  ((List.range 8).map (fun i => (c.turn + 1 + i) % 8)).flatMap (fun n =>
    match c.accepted.find? (fun q => decide (q.core % 8 = n) && q.left.any (fun i => !q.held.contains i && !q.busy i)) with
    | some q => (q.left.filter (fun i => !q.held.contains i && !q.busy i)).map (fun i => execCopySector cl q.id i)
    | none => [])

/-- Events of the cores. -/
def State.coreEvents (s : State) : List Doing :=
  s.cores.flatMap (fun p =>
    let n := p.1
    [execTrapEntry n, execStoreBufferDrain n, execUrgentQuotaWindow n, execUrgentQuotaExhausted n, execConverterStart n,
      execFaultUpcall n,
      execMemorySideUpcall n, execPageRequestUpcall n, execTrapUpcall n, execPageAnswered, execDispatch n true, execDispatch n false,
      execRequestAccept n,
      execStatelessBalance n, fun t => .next (t.handOn [n] false)] ++
    p.2.slots.map (fun q => execReplySlotTimeout n q.1) ++
    (List.range 11).flatMap (fun f => [execPauseExpiry n f, execWaitaTimeout n f, execWaitaFullExpiry n f]))

/-- Events of the engines. -/
def State.engineEvents (s : State) : List Doing :=
  s.clusters.flatMap (fun p => [fun t => .next (t.handOn (siblings (8 * p.1)) true)] ++ s.sectorsOf p.1 ++
    p.2.accepted.map (fun q => execCopyUpkeep p.1 q.id) ++
    [execMatrixJobStart p.1, execMatrixRead p.1, execMatrixBlock p.1, execMatrixJobEnd p.1]) ++
  s.dies.flatMap (fun p => p.2.media.map (fun q => execMediaUpkeep p.1 q.id) ++ [execMediaJobAccept p.1, execHotRecordInterval p.1 0,
      execHotRecordInterval p.1 1, execHotRecordInterval p.1 2] ++
    p.2.faultq.map (fun r => execFaultReplay p.1 r.index))

/-- Events of the tenants and of the host interface. -/
def State.hostEvents (s : State) : List Doing :=
  [execMailbox] ++
  s.contexts.flatMap (fun p => [execSliceEnd p.1, execHeaveTo p.1, execLadderStopped p.1, execMigrateDelta p.1, execLadderHalt p.1,
    execStrike p.1,
    execRestoreFrames p.1, execPausemaxResume p.1, execMigrateSnapshot p.1, execTeardownRepropose p.1, execClusterRelease p.1]) ++
  s.vfs.flatMap (fun v => v.2.rings.flatMap (fun r =>
    [execRingPacketRetry v.1 r.1, execReplaymarkEffect v.1 r.1, execNopFenceComplete v.1 r.1]))

/-- Events of the pod. A pod-scope barrier ends here when no other device is enrolled. -/
def State.podEvents (s : State) : List Doing :=
  s.hbars.flatMap (fun b => if b.1.sc ≠ 6 ∨ b.2.devices.all (fun d => decide (d = s.pos)) then [execHbarEpisodeComplete b.1] else []) ++
  s.colls.flatMap (fun c => [execCollectiveTimeout c.1, execCollectiveEnd c.1]) ++
  s.claims.flatMap (fun c => [execClaimResolve c.1, execClaimSlotFree c.1]) ++
  s.declared.map (fun d => execUnreachableClasses d.1) ++
  [execRetireResync, execFlitsSend] ++
  (List.range 62).flatMap (fun p =>
    if (s.linkAt p).idle + 100 ≤ s.ftime then [execHalyardIdleFlit p] else []) ++
  s.links.flatMap (fun l => [execPortSend l.1, execTagGroupIdleFill l.1, execLinkKeyRollover l.1]) ++
  (if s.moves.isEmpty then [] else [fun t => .next t.moveRoutes]) ++ [fun t => .next t.returnCredits] ++
  s.txbuf.map (fun e => execDatagramSend e.1 e.2.1 64) ++
  s.peers.flatMap (fun p => p.2.unacked.map (fun q => execDatagramResend (p.1 / 1024) (p.1 % 1024) q.1.seq))

/-- What the device can do by itself, by number: deliveries first, then its events. -/
def State.doings (s : State) : List Doing :=
  (List.range s.inflight.length).map (fun i (t : State) => t.deliver i) ++
    s.coreEvents ++ s.engineEvents ++ s.hostEvents ++ s.podEvents

/-- The outcome is the state it began with. -/
def idle (s : State) (o : Host.Outcome State Fault Refusal) : Bool :=
  match o with
  | .next t => decide (t = s)
  | _ => false

/-- The first thing to do that changes something, from a place in the list on, and its place. -/
def firstDoing (s : State) : Nat → List Doing → Option (Nat × Host.Outcome State Fault Refusal)
  | _, [] => none
  | i, g :: gs => if idle s (g s) then firstDoing s (i + 1) gs else some (i, g s)

/-- The device's own next event (log 4): the places of the list take turns. -/
def State.internal (s : State) : Option (Host.Outcome State Fault Refusal) :=
  let l := s.doings
  let r := s.rotor % (l.length + 1)
  let found := match firstDoing s r (l.drop r) with
    | some q => some q
    | none => firstDoing s 0 (l.take r)
  found.map (fun q => match q.2 with
    | .next t => .next { t with rotor := q.1 + 1 }
    | o => o)

/-! ### The agenda -/

/-- The device runs: it has booted and is not shut down (R313 to R318). -/
def State.live (s : State) : Bool :=
  match s.power with
  | .p0 => true
  | .p1 => true
  | .p2 => true
  | _ => false

/-- Events that reach a device which is off, shut down or in the recovery state (R314). -/
def reachesOff : Instr → Bool
  | .powerOnBoot _ => true
  | .firmwareImageWrite _ => true
  | .getMeasurements _ _ => true
  | _ => false

/-- The root gives a module's first version to a tenant's runtime (log 35). -/
def State.firstVersion (s : State) (k : Nat) (m : BitVec 24) (image : List Byte) : State :=
  match parseImage image with
  | none => s
  | some img =>
    let y := (s.ctxAt k).moduleAt m
    if img.modid ≠ m ∨ y.imago.isSome ∨ y.other.isSome then s
    else match s.loadVersion ((s.ctxAt k).cores.headD 0) k img with
      | some t => t.switch k m
      | none => s

/-- A participant of a barrier is parked in HBAR, here or in the image of an EVICTED context (R88, R308). -/
def State.hbarParked (s : State) (b : HbarKey) : Bool :=
  let parked (c : Core) : Bool := (List.range 11).any (fun f => decide ((c.frameAt f).park = some (.hbar b)))
  s.cores.any (fun p => parked p.2) || s.storedCores.any (fun n => match s.keeper n with
    | some q => parked q.2.2
    | none => false)

/-- One turn of the agenda. -/
def State.takeTurn (s : State) (t : Turn) : Host.Outcome State Fault Refusal :=
  match t with
  | .hostWrite pasid addr bytes => .next { s with mem := memPut s.mem (hostAddr pasid addr) bytes }
  | .corrected u => .next (s.countError u)
  | .uncorrected u n =>
    let v := s.freeValue
    .next (if s.live then ((match u.cluster with
      | some c => v.2.wearCluster c
      | none => v.2).machine n false v.1 15) else s)
  | .oscillator die i v => .next { s with oscillators := s.oscillators.filter (fun o => decide (¬(o.1 = die ∧ o.2.1 = i))) ++ [(die, i, v)] }
  | .upset addr => .next { s with bad := insertNat s.bad addr }
  | .upsetCode c m v off => .next { s with badCode := s.badCode ++ [(c, m.toNat, v.toNat, off)] }
  | .ringReply vf r seq st dtime words => .next (if s.live then s.ringReply vf r seq st dtime words else s)
  | .ringStage vf r seq stage dtime => .next (if s.live then s.ringStage vf r seq stage dtime else s)
  | .host i => if s.live && (match ringWrite i with
      | some vf => s.hostReaches vf
      | none => true) then exec i s else .next s
  | .barRead vf off n tenant =>
    if s.live && vfExists vf && (tenant || s.hostReaches vf) then
      .next (s.emit (.barData vf off ((List.range n).map (fun i => s.vfByte vf (off + i)))))
    else .next s
  | .pfWrite off bs => .next (if s.live then s.pfWrite off bs else s)
  | .pfRead off n => .next (if s.live then s.emit (.barData 0 off ((List.range n).map (fun i => s.pfByte (off + i)))) else s)
  | .pathReturns pos => .next (if s.live then s.reachable pos else s)
  | .resendAsked port group i => .next (if s.live then s.resendTo port group i else s)
  | .tagFailed port group => .next (if s.live then s.groupFailed port group else s)
  | .accepted port group => .next (if s.live then s.groupAccepted port group else s)
  | .credit port cls spent => .next (if s.live then s.linkCredit port cls spent else s)
  | .secondDown dst => .next (if s.live then s.secondDown dst else s)
  | .busAnswer rid bs => .next (if s.live then s.busAnswer rid bs else s)
  | .bankWrite cl matrix bank bs =>
    let c := s.clusterAt cl
    if !s.live then .next s
    else .next (s.setCluster cl { c with
      stores := c.stores.filter (fun x => decide (¬(x.matrix = matrix ∧ x.bank = bank))) ++ [⟨matrix, bank, bs⟩] })
  | .event i => if s.live || reachesOff i then exec i s else .next s
  | .deliver n => if s.live then s.deliver n else .next s
  | .issue n => if s.live then (match s.choose n with
    | some f => s.issue n f
    | none => .next s) else .next s
  | .grant n f r i => match (if s.live then (s.ctxAt (s.ctxOf n)).windows[i]? else none) with
    | some c => .next (s.setFrame n f ((s.frameAt n f).setCap r c))
    | none => .next s
  | .grantModule n f r m =>
    if !s.live then .next s
    else .next (s.setFrame n f ((s.frameAt n f).setCap r ⟨true, rightS ||| rightI, 2, m.setWidth 40, 0, 0⟩))
  | .firstVersion k m image => .next (if s.live then s.firstVersion k m image else s)
  | .reserve n u src =>
    let c := s.coreAt n
    let ok := s.takesMessages n && decide (0 < s.roomAt n u)
    if !s.live then .next s else
    let t := if ok then s.setCore n { c with promised := c.promised ++ [⟨src, u, none⟩] } else s
    .next (t.emit (.reservation (s.via n (s.ctxOf n)) src u ok))
  | .configRead => .next (if s.power = .off ∨ s.power = .shutdown then s
      else s.emit (.functions (if s.live then totalVfs else 0) firstVfOffset vfStride pfVectors vfVectors))
  | .session on => .next (if s.live then { s with secured := on } else s)
  | .enrol b cores devices => if !s.live || s.hbarParked b then .next s
    else .next { s with hbars := s.hbars.filter (fun p => decide (p.1 ≠ b)) ++ [(b, ⟨cores, devices, []⟩)] }

/-! ### After each step -/

/-- What a SEND parked with reason CREDIT waits for is there, and the frame obtains it (R70, R74, R75, R416). -/
def State.obtain (s : State) (n f : Nat) : Credit → Option State
  | .slot => if (s.coreAt n).freeSlot.isSome then some (s.takeTxSlot n f) else none
  | .queue k u => if 0 < s.roomAt k u then some (s.takeTxEntry n f (.near k u)) else none
  | .far c u => if s.unreachable.contains (c / 4096) then some s
      else if Config.farReserve s.steps then some (s.takeTxEntry n f (.far c u)) else none
  | .pods => if s.podEntries < 4096 then some (s.takeTxEntry n f .pods) else none

/-- Frames parked with reason CREDIT become READY when they obtain their entry or slot (R70), in the order of cores and frames
(log 28). One whose device has become unreachable executes its SEND again. -/
def State.refreshCredits (s : State) : State :=
  s.allFrames.foldl (fun s p =>
    match (s.frameAt p.1 p.2).park with
    | some (.credit w) =>
      if (s.frameAt p.1 p.2).state = .parked then
        match s.obtain p.1 p.2 w with
        | some t => t.wake p.1 p.2 id
        | none => s
      else s
    | _ => s) s

/-- The correction of FTIME in a stretch of time: at most 0.1% of it (R231). -/
def correction (err : Int) (span : Nat) : Int := max (-(span / 1000 : Nat)) (min (span / 1000 : Nat) err)

/-- The stores of a claim's proposers on this device are in memory when it is decided, so that a member whose CLWAIT answers 1 finds
what the proposer released before it (R132; log 108). -/
def State.drainProposers (s : State) : State :=
  let due := s.claims.filter (fun p => decide (p.2.state = .announced ∧ p.2.ann.te ≤ s.ftime ∧ p.2.ann.proposer = s.pos))
  let cores := due.flatMap (fun p => match (s.groupAt p.2.ann.group).owner with
    | some k => (s.ctxAt k).cores
    | none => [])
  cores.foldl (fun s n => s.drainSome n 16) s

/-- Time passes (R231, R383; log 5), claims whose effect time has come are decided (R255), collectives whose time is up end
(R238). -/
def State.tick (s : State) : State :=
  let span := Config.ftimeStep s.steps
  let fix := correction s.ftimeErr span
  ({ s with
    steps := s.steps + 1
    cycles := s.cycles + 1 + Config.cycleStep s.steps
    ftime := s.ftime + ((span : Int) + fix).toNat
    ftimeErr := s.ftimeErr - fix } : State).drainProposers.claimsDue.collsDue

/-- What follows every step: WAITA's watch (R443), event messages that find room (R260), records that do (R276), credits, time. -/
def State.settle (s : State) : State := s.watch.flushEvents.recordDiscarded.refreshCredits.tick

/-- A step's outcome with what follows. -/
def settled (o : Host.Outcome State Fault Refusal) : Host.Outcome State Fault Refusal :=
  match o with
  | .next t => .next t.settle
  | o => o

/-- What the device does when the agenda names nothing: its cores and the rest of it take turns (log 4). -/
def State.own (s : State) : Host.Outcome State Fault Refusal :=
  if !s.live then .next s
  else
    let run (q : Nat × Nat) : Host.Outcome State Fault Refusal := ({ s with engineTurn := true } : State).issue q.1 q.2
    let other : Option (Host.Outcome State Fault Refusal) := ({ s with engineTurn := false } : State).internal
    if s.engineTurn then
      match other with
      | some o => o
      | none => match s.nextIssue with
        | some q => run q
        | none => .next s
    else
      match s.nextIssue with
      | some q => run q
      | none => match other with
        | some o => o
        | none => .next s

end Sys2Proof.Machine
end

