-- ==== Sys2Proof/Machine/Step.lean ====
section
/-! DEFINITION. One step of the device, and the placing of one instruction where the next step fetches it. -/
namespace Sys2Proof.Machine

/-- One step: the next turn of the agenda, or what the device does by itself; then what follows every step (log 4). -/
def step (s : State) : Host.Outcome State Fault Refusal :=
  match s.agenda with
  | t :: ts => settled (({ s with agenda := ts } : State).takeTurn t)
  | [] => settled s.own

/-- An instruction is placed where the next step fetches it (log 7): it is the kernel image, the device runs, nothing else is
on the agenda, and the supervisor frame of core 0 is READY at offset 0. The image is as long as the instruction. -/
def State.withFetchWord (s : State) (nbits w : Nat) : State :=
  let b := leBytes (nbits / 8) w
  let code := match b with
    | b0 :: _ => if b0.getLsbD 0 then leBytes 4 w else leBytes 2 w
    | [] => leBytes 4 w
  let c := s.coreAt 0
  let fr := { c.frameAt 10 with state := .ready, pc := 0, wait := none, park := none, trap := none, pauseTo := 0 }
  { s.setCore 0 (c.setFrame 10 fr) with
    kernelCode := code, power := .p0, agenda := [], engineTurn := false, core := 0, frame := 10 }

end Sys2Proof.Machine
end

