-- ==== Sys2Proof/Safety.lean ====
section
/-! DEFINITION. What counts as a safe state and a safe run, and what an instruction leaves as it was, in the terms in which
the statements are made. -/
namespace Sys2Proof.Machine

/-! ### Safe states and runs -/

/-- The memory is in canonical form: addresses strictly rising, no entry that reads as an unlisted address does. Equal
memories are then equal data. -/
abbrev Memory.wf (m : List Host.Cell) : Prop := memWf m = true

/-- How many bytes an access of i can have: those of one element, line or piece of a 4 KiB page, or those of the request that i
brings or that the fault-queue record it replays holds. -/
def AccessBytes (i : Instr) (s : State) (n : Nat) : Prop :=
  n ≤ 4096 ∨ (∃ r, i = .remoteRequest r ∧ n = sizeOfOp r.op) ∨
  ∃ die index r q, i = .faultReplay die index ∧ r ∈ (s.dieAt die).faultq ∧ r.held = .request q ∧ n = sizeOfOp q.op

/-- The instruction or event i is not refused, and it faults only at an address from which no one memory has the bytes of its access
(R92, R108). -/
def StopsOnlyAtHoles (i : Instr) (s : State) : Prop :=
  (∀ e, exec i s ≠ .refused e) ∧ ∀ a, exec i s = .fault (.hole a) → ∃ n, AccessBytes i s n ∧ spanExists a n = false

/-- A run of n steps that neither faults nor refuses. -/
def SafeRun (n : Nat) (s : State) : Prop := ∃ t, Host.Core.run Sys2Proof.core n s = .next t

/-! ### Frames: what stands -/

/-- Every byte of memory reads as before. -/
def SameBytes (s t : State) : Prop := ∀ a, memGet t.mem a = memGet s.mem a

/-- Nothing has changed but the current frame: every field of the state but the cores, every other core, every other
frame of this core, the rest of this core, every byte of memory. -/
structure Elsewhere (s t : State) : Prop where
  rest   : { t with cores := s.cores } = s
  cores  : ∀ n, n ≠ s.core → t.coreAt n = s.coreAt n
  frames : ∀ f, f ≠ s.frame → t.frameAt s.core f = s.frameAt s.core f
  core   : { t.coreAt s.core with frames := (s.coreAt s.core).frames } = s.coreAt s.core
  bytes  : SameBytes s t

/-- Nothing has changed but general register d and the pc of the current frame. -/
def OnlyG (d : BitVec 5) (s t : State) : Prop :=
  Elsewhere s t ∧ { t.cur with g := s.cur.g, pc := s.cur.pc } = s.cur ∧ ∀ r, r ≠ d → t.cur.gpr r = s.cur.gpr r

/-- Nothing has changed but capability register d and the pc of the current frame. -/
def OnlyC (d : BitVec 4) (s t : State) : Prop :=
  Elsewhere s t ∧ { t.cur with c := s.cur.c, pc := s.cur.pc } = s.cur ∧ ∀ r, r ≠ d → t.cur.cap r = s.cur.cap r

/-- Nothing has changed but vector register d and the pc of the current frame. -/
def OnlyV (d : BitVec 5) (s t : State) : Prop :=
  Elsewhere s t ∧ { t.cur with v := s.cur.v, pc := s.cur.pc } = s.cur ∧ ∀ r, r ≠ d → t.cur.vreg r = s.cur.vreg r

/-- Nothing has changed but the pc of the current frame. -/
def OnlyPc (s t : State) : Prop := Elsewhere s t ∧ { t.cur with pc := s.cur.pc } = s.cur

/-- The pc stands n bytes further on, modulo 2^32 (R32). -/
def PcPast (n : Nat) (s t : State) : Prop := t.cur.pc.toNat = (s.cur.pc.toNat + n) % 2 ^ 32

/-- The instruction i completes: it writes general register d with v, in a register g0 discards, moves the pc past its n
bytes, and changes nothing else. -/
def WritesG (i : Instr) (s : State) (d : BitVec 5) (v : Word) (n : Nat) : Prop :=
  ∃ t, exec i s = .next t ∧ OnlyG d s t ∧ t.cur.gpr d = (if d = 0 then 0 else v) ∧ PcPast n s t

/-- The same for a capability register; c0 discards. -/
def WritesC (i : Instr) (s : State) (d : BitVec 4) (v : Cap) (n : Nat) : Prop :=
  ∃ t, exec i s = .next t ∧ OnlyC d s t ∧ t.cur.cap d = (if d = 0 then Cap.null else v) ∧ PcPast n s t

/-- The same for a vector register: its 32 lanes are f's. -/
def WritesV (i : Instr) (s : State) (d : BitVec 5) (f : Nat → Lane) (n : Nat) : Prop :=
  ∃ t, exec i s = .next t ∧ OnlyV d s t ∧ (∀ l, l < 32 → lane (t.cur.vreg d) l = f l) ∧ PcPast n s t

/-- The instruction i changes nothing but the pc, which it moves past its n bytes. -/
def Passes (i : Instr) (s : State) (n : Nat) : Prop := ∃ t, exec i s = .next t ∧ OnlyPc s t ∧ PcPast n s t

/-! ### Traps -/

/-- Frame f of core n has trapped with a cause and EVAL, and the supervisor frame of the core has taken the trap (R267):
EPC names the trapped instruction in link-value form, ECAUSE and EVAL are written, KILL and SKIP are clear, TFRAME is f, and
the supervisor frame is READY at the kernel's vector. -/
structure TrapTaken (n f : Nat) (cause : BitVec 8) (eval : Word) (s t : State) : Prop where
  epc    : (t.coreAt n).epc = linkValue (s.frameAt n f).ver (s.frameAt n f).modid (s.frameAt n f).pc
  ecause : (t.coreAt n).ecause = cause.setWidth 64
  eval   : (t.coreAt n).eval = eval
  tframe : bitsOf (t.coreAt n).sstatus.toNat 19 16 = f
  kill   : (t.coreAt n).sstatus.getLsbD 1 = false
  skip   : (t.coreAt n).sstatus.getLsbD 0 = false
  busy   : (t.coreAt n).handling = true
  ready  : (t.frameAt n 10).state = .ready
  vector : (t.frameAt n 10).pc = s.kernelVector
  bytes  : SameBytes s t
  others : ∀ m, m ≠ n → t.coreAt m = s.coreAt m

/-- The instruction i of the current frame raises a trap that the supervisor frame takes at once. -/
def Traps (i : Instr) (s : State) (cause : BitVec 8) (eval : Word) : Prop :=
  ∃ t, exec i s = .next t ∧ TrapTaken s.core s.frame cause eval s t

/-- Frame f of core n is not the supervisor frame and runs on, and the supervisor frame of its core can take its trap at
once: it handles none, and no other frame's trap waits (R267). -/
structure TrapsFree (n f : Nat) (s : State) : Prop where
  frame   : f < 10
  idle    : (s.coreAt n).handling = false
  first   : (s.coreAt n).pendingTrap = none
  wait    : (s.frameAt n f).wait = none
  running : (s.frameAt n f).state ≠ .stopped

end Sys2Proof.Machine
end

