-- ==== Sys2Proof/Certificates/Slice0/Obligations.lean ====
section
/-! DEFINITION. The statements about the machine: each formalises rules of the spec, over all states that meet its
hypotheses. -/
open Sys2Proof Sys2Proof.Machine

namespace Sys2Proof.Says

/-! ### Results, as equations between numbers -/

/-- A result at width n of operands a and b. -/
abbrev IntRel := (n : Nat) → BitVec n → BitVec n → BitVec n → Prop

def IsAdd : IntRel := fun n a b r => r.toNat = (a.toNat + b.toNat) % 2 ^ n
def IsSub : IntRel := fun n a b r => r.toNat = (a.toNat + 2 ^ n - b.toNat) % 2 ^ n
def IsMul : IntRel := fun n a b r => r.toNat = a.toNat * b.toNat % 2 ^ n
/-- Bits [2n - 1:n] of the exact signed product. -/
def IsMulh : IntRel := fun n a b r => r.toInt = a.toInt * b.toInt / 2 ^ n
def IsMulhn : IntRel := fun n a b r => r.toNat = a.toNat * b.toNat / 2 ^ n
/-- All ones for a zero divisor; the quotient is truncated toward zero; the most negative value by -1 is itself. -/
def IsDiv : IntRel := fun n a b r =>
  (b.toInt = 0 → r.toInt = -1 ∨ n = 0) ∧
  (b.toInt ≠ 0 → (a.toInt = -(2 ^ (n - 1)) ∧ b.toInt = -1 → r.toInt = -(2 ^ (n - 1))) ∧
    (¬ (a.toInt = -(2 ^ (n - 1)) ∧ b.toInt = -1) → r.toInt = a.toInt.tdiv b.toInt))
def IsRem : IntRel := fun _ a b r =>
  (b.toInt = 0 → r.toInt = a.toInt) ∧ (b.toInt ≠ 0 → r.toInt = a.toInt - b.toInt * a.toInt.tdiv b.toInt)
def IsDivn : IntRel := fun n a b r =>
  (b.toNat = 0 → r.toNat = 2 ^ n - 1) ∧ (b.toNat ≠ 0 → r.toNat = a.toNat / b.toNat)
def IsRemn : IntRel := fun _ a b r =>
  (b.toNat = 0 → r.toNat = a.toNat) ∧ (b.toNat ≠ 0 → r.toNat = a.toNat - b.toNat * (a.toNat / b.toNat))
def IsShl : IntRel := fun n a b r => r.toNat = a.toNat * 2 ^ (b.toNat % n) % 2 ^ n
def IsShr : IntRel := fun n a b r => r.toNat = a.toNat / 2 ^ (b.toNat % n)
def IsShra : IntRel := fun n a b r => r.toInt = a.toInt / 2 ^ (b.toNat % n)
/-- Bit i comes from bit i + amount, modulo the width: a rotation to the right. -/
def IsRot : IntRel := fun n a b r => ∀ i, i < n → r.getLsbD i = a.getLsbD ((i + b.toNat) % n)
def IsAnd : IntRel := fun n a b r => ∀ i, i < n → r.getLsbD i = (a.getLsbD i && b.getLsbD i)
def IsOr : IntRel := fun n a b r => ∀ i, i < n → r.getLsbD i = (a.getLsbD i || b.getLsbD i)
def IsXor : IntRel := fun n a b r => ∀ i, i < n → r.getLsbD i = xor (a.getLsbD i) (b.getLsbD i)
def IsAndn : IntRel := fun n a b r => ∀ i, i < n → r.getLsbD i = (a.getLsbD i && !b.getLsbD i)
def IsMin : IntRel := fun _ a b r => r.toInt = min a.toInt b.toInt
def IsMax : IntRel := fun _ a b r => r.toInt = max a.toInt b.toInt
def IsMinn : IntRel := fun _ a b r => r.toNat = min a.toNat b.toNat
def IsMaxn : IntRel := fun _ a b r => r.toNat = max a.toNat b.toNat
def IsSlt : IntRel := fun _ a b r => r.toNat = if a.toInt < b.toInt then 1 else 0
def IsSltn : IntRel := fun _ a b r => r.toNat = if a.toNat < b.toNat then 1 else 0
def IsSeq : IntRel := fun _ a b r => r.toNat = if a.toNat = b.toNat then 1 else 0
/-- The zero bits above the highest set bit; b plays no part. -/
def IsClz : IntRel := fun n a _ r =>
  r.toNat ≤ n ∧ (∀ i, i < n → n - r.toNat ≤ i → a.getLsbD i = false) ∧ (r.toNat < n → a.getLsbD (n - 1 - r.toNat) = true)
def IsPopc : IntRel := fun n a _ r => r.toNat = ((List.range n).filter (fun i => a.getLsbD i)).length

/-- The instruction i writes d with the result of an operation on x and y: at 64 bits, or with W32 at 32 bits of their low
halves, sign-extended (R37). -/
def IntResult (i : Instr) (s : State) (w : BitVec 1) (rel : IntRel) (x y : Word) (d : BitVec 5) : Prop :=
  ∃ v : Word,
    (w = 0 → rel 64 x y v) ∧
    (w = 1 → ∃ r : BitVec 32, rel 32 (x.setWidth 32) (y.setWidth 32) r ∧ v = r.signExtend 64) ∧
    WritesG i s d v 4

/-- Sign extension: the value of an n-bit number at 64 bits. -/
def IsSext {n : Nat} (x : BitVec n) (v : Word) : Prop := v.toInt = x.toInt

end Sys2Proof.Says

open Sys2Proof.Says

/-- R170: every operation that its table lists, on two registers or on a register and an immediate. No form traps. -/
def Obligations.IntegerArithmetic : Prop :=
  ∀ s : State, s.frame < 11 → ∀ (w : BitVec 1) (b a d : BitVec 5) (m : BitVec 6) (i : BitVec 12) (k : Word),
    IsSext i k →
    IntResult (.add w b a d) s w IsAdd (s.cur.gpr a) (s.cur.gpr b) d ∧
    IntResult (.sub w b a d) s w IsSub (s.cur.gpr a) (s.cur.gpr b) d ∧
    IntResult (.mul w b a d) s w IsMul (s.cur.gpr a) (s.cur.gpr b) d ∧
    IntResult (.mulh w b a d) s w IsMulh (s.cur.gpr a) (s.cur.gpr b) d ∧
    IntResult (.mulhn w b a d) s w IsMulhn (s.cur.gpr a) (s.cur.gpr b) d ∧
    IntResult (.div w b a d) s w IsDiv (s.cur.gpr a) (s.cur.gpr b) d ∧
    IntResult (.rem w b a d) s w IsRem (s.cur.gpr a) (s.cur.gpr b) d ∧
    IntResult (.divn w b a d) s w IsDivn (s.cur.gpr a) (s.cur.gpr b) d ∧
    IntResult (.remn w b a d) s w IsRemn (s.cur.gpr a) (s.cur.gpr b) d ∧
    IntResult (.shl w b a d) s w IsShl (s.cur.gpr a) (s.cur.gpr b) d ∧
    IntResult (.shr w b a d) s w IsShr (s.cur.gpr a) (s.cur.gpr b) d ∧
    IntResult (.shra w b a d) s w IsShra (s.cur.gpr a) (s.cur.gpr b) d ∧
    IntResult (.rot w b a d) s w IsRot (s.cur.gpr a) (s.cur.gpr b) d ∧
    IntResult (.addImm i a d) s 0 IsAdd (s.cur.gpr a) k d ∧
    IntResult (.shlImm w m a d) s w IsShl (s.cur.gpr a) (m.setWidth 64) d ∧
    IntResult (.shrImm w m a d) s w IsShr (s.cur.gpr a) (m.setWidth 64) d ∧
    IntResult (.shraImm w m a d) s w IsShra (s.cur.gpr a) (m.setWidth 64) d ∧
    IntResult (.rotImm w m a d) s w IsRot (s.cur.gpr a) (m.setWidth 64) d

/-- R332, R333, R376, R397, R419, R448: bitwise operations, smaller and greater, comparisons, on two registers or with a
sign-extended immediate (R38). -/
def Sys2Proof.Says.LogicAndComparison : Prop :=
  ∀ s : State, s.frame < 11 → ∀ (w : BitVec 1) (b a d : BitVec 5) (i : BitVec 12) (k : Word), IsSext i k →
    IntResult (.and w b a d) s w IsAnd (s.cur.gpr a) (s.cur.gpr b) d ∧
    IntResult (.or w b a d) s w IsOr (s.cur.gpr a) (s.cur.gpr b) d ∧
    IntResult (.xor w b a d) s w IsXor (s.cur.gpr a) (s.cur.gpr b) d ∧
    IntResult (.andn w b a d) s w IsAndn (s.cur.gpr a) (s.cur.gpr b) d ∧
    IntResult (.min w b a d) s w IsMin (s.cur.gpr a) (s.cur.gpr b) d ∧
    IntResult (.max w b a d) s w IsMax (s.cur.gpr a) (s.cur.gpr b) d ∧
    IntResult (.minn w b a d) s w IsMinn (s.cur.gpr a) (s.cur.gpr b) d ∧
    IntResult (.maxn w b a d) s w IsMaxn (s.cur.gpr a) (s.cur.gpr b) d ∧
    IntResult (.slt w b a d) s w IsSlt (s.cur.gpr a) (s.cur.gpr b) d ∧
    IntResult (.sltn w b a d) s w IsSltn (s.cur.gpr a) (s.cur.gpr b) d ∧
    IntResult (.seq w b a d) s w IsSeq (s.cur.gpr a) (s.cur.gpr b) d ∧
    IntResult (.clz w a d) s w IsClz (s.cur.gpr a) 0 d ∧
    IntResult (.popc w a d) s w IsPopc (s.cur.gpr a) 0 d ∧
    IntResult (.andImm i a d) s 0 IsAnd (s.cur.gpr a) k d ∧
    IntResult (.orImm i a d) s 0 IsOr (s.cur.gpr a) k d ∧
    IntResult (.xorImm i a d) s 0 IsXor (s.cur.gpr a) k d ∧
    IntResult (.sltImm i a d) s 0 IsSlt (s.cur.gpr a) k d ∧
    IntResult (.sltnImm i a d) s 0 IsSltn (s.cur.gpr a) k d ∧
    IntResult (.seqImm i a d) s 0 IsSeq (s.cur.gpr a) k d

/-- R39: LI and LIS. -/
def Sys2Proof.Says.LoadImmediate : Prop :=
  ∀ s : State, s.frame < 11 → ∀ (i : BitVec 20) (d : BitVec 5),
    (∃ v : Word, IsSext i v ∧ WritesG (.li i d) s d v 4) ∧
    (∃ v : Word, v.toNat = ((s.cur.gpr d).toNat * 2 ^ 20 ||| i.toNat) % 2 ^ 64 ∧ WritesG (.lis i d) s d v 4)

/-- R420, R449, R61: extensions of the low 8, 16 or 32 bits, and the 16-bit integer forms, which are two bytes long. -/
def Sys2Proof.Says.ExtensionsAndShortForms : Prop :=
  ∀ s : State, s.frame < 11 → ∀ (a d : BitVec 5) (m i : BitVec 6) (k : Word), IsSext i k →
    (∀ (b : BitVec 5) (n : Nat), (b, n) ∈ [((0 : BitVec 5), 8), (1, 16), (2, 32)] →
      (∃ v : Word, IsSext ((s.cur.gpr a).setWidth n) v ∧ WritesG (.sext b a d) s d v 4) ∧
      (∃ v : Word, v.toNat = (s.cur.gpr a).toNat % 2 ^ n ∧ WritesG (.zext b a d) s d v 4)) ∧
    WritesG (.mov a d) s d (s.cur.gpr a) 2 ∧
    (∃ v : Word, IsAdd 64 (s.cur.gpr d) (s.cur.gpr a) v ∧ WritesG (.add16 a d) s d v 2) ∧
    (∃ v : Word, IsSub 64 (s.cur.gpr d) (s.cur.gpr a) v ∧ WritesG (.sub16 a d) s d v 2) ∧
    (∃ v : Word, IsAnd 64 (s.cur.gpr d) (s.cur.gpr a) v ∧ WritesG (.and16 a d) s d v 2) ∧
    (∃ v : Word, IsAdd 64 (s.cur.gpr d) k v ∧ WritesG (.addi16 i d) s d v 2) ∧
    (∃ v : Word, IsShl 64 (s.cur.gpr d) (m.setWidth 64) v ∧ WritesG (.shli16 m d) s d v 2) ∧
    (∃ v : Word, IsShr 64 (s.cur.gpr d) (m.setWidth 64) v ∧ WritesG (.shri16 m d) s d v 2)

/-- Bitwise operations, comparisons, extensions, immediates and the 16-bit forms of the integer family. -/
def Obligations.LogicImmediatesAndShortForms : Prop :=
  Sys2Proof.Says.LogicAndComparison ∧ Sys2Proof.Says.LoadImmediate ∧ Sys2Proof.Says.ExtensionsAndShortForms

namespace Sys2Proof.Says

/-- A signed offset in halfwords added to a pc, modulo 2^32 (R41). -/
def targetOf {n : Nat} (pc : BitVec 32) (off : BitVec n) : Int := ((pc.toNat : Int) + 2 * off.toInt) % 2 ^ 32

/-- The instruction i changes the pc alone: to a branch target when the condition holds, else past its bytes. -/
def Branches {n : Nat} (i : Instr) (s : State) (taken : Prop) (off : BitVec n) (len : Nat) : Prop :=
  ∃ t, exec i s = .next t ∧ OnlyPc s t ∧ (taken → (t.cur.pc.toNat : Int) = targetOf s.cur.pc off) ∧ (¬ taken → PcPast len s t)

/-- The link value of a call: VER, MODID and the address of the next instruction; VER and MODID are 0 in the supervisor
frame (R345, R346). -/
def IsLink (s : State) (v : Word) : Prop :=
  v.extractLsb' 0 32 = s.cur.pc + 4 ∧
  (s.frame ≠ 10 → v.extractLsb' 32 24 = s.cur.modid ∧ v.extractLsb' 56 8 = s.cur.ver) ∧
  (s.frame = 10 → v.extractLsb' 32 24 = 0 ∧ v.extractLsb' 56 8 = 0)

/-- The current frame has entered a version at an offset: VCTX names it, c3 is its constant table with rights R and C, and,
apart from g31 where a link is written, every other register of the frame stands (R142). -/
structure Entered (s t : State) (m : BitVec 24) (v : Version) (pc : BitVec 32) (link : Bool) : Prop where
  elsewhere : Elsewhere s t
  modid : t.cur.modid = m
  ver   : t.cur.ver = v.ver
  pc    : t.cur.pc = pc
  c3    : t.cur.cap 3 = ⟨true, 9, 1, v.table, 0, 4096⟩
  caps  : ∀ r, r ≠ 3 → t.cur.cap r = s.cur.cap r
  gprs  : ∀ r, (link = true ∧ r = 31) ∨ t.cur.gpr r = s.cur.gpr r
  rest  : { t.cur with g := s.cur.g, c := s.cur.c, pc := s.cur.pc, modid := s.cur.modid, ver := s.cur.ver } = s.cur

end Sys2Proof.Says

/-- R339, R340, R343, R61: conditional and unconditional branches change the pc alone. -/
def Sys2Proof.Says.BranchesChangeThePcAlone : Prop :=
  ∀ s : State, s.frame < 11 → ∀ (a b : BitVec 5) (o : BitVec 12) (f : BitVec 25) (p : BitVec 11) (q : BitVec 6),
    Branches (.br f) s True f 4 ∧ Branches (.br16 p) s True p 2 ∧
    Branches (.beq o b a) s (s.cur.gpr a = s.cur.gpr b) o 4 ∧
    Branches (.bne o b a) s (s.cur.gpr a ≠ s.cur.gpr b) o 4 ∧
    Branches (.blt o b a) s ((s.cur.gpr a).toInt < (s.cur.gpr b).toInt) o 4 ∧
    Branches (.bge o b a) s ((s.cur.gpr b).toInt ≤ (s.cur.gpr a).toInt) o 4 ∧
    Branches (.bltn o b a) s ((s.cur.gpr a).toNat < (s.cur.gpr b).toNat) o 4 ∧
    Branches (.bgen o b a) s ((s.cur.gpr b).toNat ≤ (s.cur.gpr a).toNat) o 4 ∧
    Branches (.bez q a) s (s.cur.gpr a = 0) q 2 ∧
    Branches (.bnz q a) s (s.cur.gpr a ≠ 0) q 2

/-- R374: LOOP takes one from its counter modulo 2^64 and goes back while it is not zero; with g0 nothing is counted and the
branch is never taken. -/
def Sys2Proof.Says.LoopCountsDown : Prop :=
  ∀ s : State, s.frame < 11 → ∀ (a : BitVec 5) (o : BitVec 12),
    ∃ t, exec (.loop o a) s = .next t ∧ OnlyG a s t ∧
      (a ≠ 0 → t.cur.gpr a = s.cur.gpr a - 1) ∧
      (t.cur.gpr a ≠ 0 → (t.cur.pc.toNat : Int) = targetOf s.cur.pc o) ∧
      (t.cur.gpr a = 0 → PcPast 4 s t)

/-- R345: CALL, CALLR and JR. The link goes to g31, CALLR reads its target before; an odd target raises ALIGN with EVAL =
t[31:0] and is not taken. -/
def Sys2Proof.Says.JumpsAndCalls : Prop :=
  ∀ s : State, s.frame < 11 → ∀ (a : BitVec 5) (o : BitVec 25),
    (∃ t v, IsLink s v ∧ exec (.call o) s = .next t ∧ OnlyG 31 s t ∧ t.cur.gpr 31 = v ∧
      (t.cur.pc.toNat : Int) = targetOf s.cur.pc o) ∧
    ((s.cur.gpr a).getLsbD 0 = false →
      (∃ t, exec (.jr a) s = .next t ∧ OnlyPc s t ∧ t.cur.pc = (s.cur.gpr a).extractLsb' 0 32) ∧
      (∃ t v, IsLink s v ∧ exec (.callr a) s = .next t ∧ OnlyG 31 s t ∧ t.cur.gpr 31 = v ∧
        t.cur.pc = (s.cur.gpr a).extractLsb' 0 32)) ∧
    ((s.cur.gpr a).getLsbD 0 = true → TrapsFree s.core s.frame s →
      Traps (.jr a) s ALIGN (((s.cur.gpr a).extractLsb' 0 32).setWidth 64) ∧
      Traps (.callr a) s ALIGN (((s.cur.gpr a).extractLsb' 0 32).setWidth 64))

/-- R408, R143, R61: RET returns into the version that the link value names, when it is the imago or the exuvia of its module;
otherwise it raises STRAGGLER; ALIGN for an odd offset in such a version. The supervisor frame returns without a version. -/
def Sys2Proof.Says.Returns : Prop :=
  ∀ s : State, s.frame < 11 → ∀ (i : Instr) (a : BitVec 5), (i = .ret a ∨ (i = .ret16 ∧ a = 31)) →
    (s.frame = 10 → (s.cur.gpr a).getLsbD 0 = false →
      ∃ t, exec i s = .next t ∧ OnlyPc s t ∧ t.cur.pc = (s.cur.gpr a).extractLsb' 0 32) ∧
    (s.frame ≠ 10 → ∀ v : Version,
      (s.ctxAt (s.ctxOf s.core)).entered ((s.cur.gpr a).extractLsb' 32 24) ((s.cur.gpr a).extractLsb' 56 8) = some v →
      (s.cur.gpr a).getLsbD 0 = false →
      ∃ t, exec i s = .next t ∧ Entered s t ((s.cur.gpr a).extractLsb' 32 24) v ((s.cur.gpr a).extractLsb' 0 32) false) ∧
    (TrapsFree s.core s.frame s →
      ((s.ctxAt (s.ctxOf s.core)).entered ((s.cur.gpr a).extractLsb' 32 24) ((s.cur.gpr a).extractLsb' 56 8) = none →
        Traps i s STRAGGLER (s.cur.gpr a)) ∧
      (∀ v, (s.ctxAt (s.ctxOf s.core)).entered ((s.cur.gpr a).extractLsb' 32 24) ((s.cur.gpr a).extractLsb' 56 8) = some v →
        (s.cur.gpr a).getLsbD 0 = true → Traps i s ALIGN (((s.cur.gpr a).extractLsb' 0 32).setWidth 64)))

/-- R447: XCALL through a kind 2 capability with right S enters the imago of its module at the entry, with the link in g31;
without an imago or such an entry it raises ILLEGAL, and CAPTAG without a tag. -/
def Sys2Proof.Says.CrossModuleCalls : Prop :=
  ∀ s : State, s.frame < 11 → ∀ (i : BitVec 16) (m : BitVec 4),
    (s.frame ≠ 10 → (s.cur.cap m).tag = true → (s.cur.cap m).kind = 2 → (s.cur.cap m).rights.getLsbD 2 = true →
      (∀ v pc, (s.ctxAt (s.ctxOf s.core)).imago ((s.cur.cap m).oid.extractLsb' 0 24) = some v →
        look v.entries i.toNat = some pc →
        ∃ t, exec (.xcall i m) s = .next t ∧ Entered s t ((s.cur.cap m).oid.extractLsb' 0 24) v pc true ∧
          IsLink s (t.cur.gpr 31)) ∧
      (TrapsFree s.core s.frame s → (∀ v, (s.ctxAt (s.ctxOf s.core)).imago ((s.cur.cap m).oid.extractLsb' 0 24) = some v →
          look v.entries i.toNat = none) →
        Traps (.xcall i m) s ILLEGAL
          (BitVec.ofNat 64 ((s.cur.cap m).oid.toNat % 2 ^ 24 * 65536 + i.toNat)))) ∧
    (TrapsFree s.core s.frame s → (s.cur.cap m).tag = false → Traps (.xcall i m) s CAPTAG 0)

/-- Branches, LOOP, calls and jumps within a version. -/
def Obligations.BranchesAndCalls : Prop :=
  Sys2Proof.Says.BranchesChangeThePcAlone ∧ Sys2Proof.Says.LoopCountsDown ∧ Sys2Proof.Says.JumpsAndCalls

/-- RET and XCALL enter the version that the link value or the capability names. -/
def Obligations.VersionedReturnsAndCalls : Prop :=
  Sys2Proof.Says.Returns ∧ Sys2Proof.Says.CrossModuleCalls

namespace Sys2Proof.Says

/-- The instruction i may narrow the capability x, when its kind is among those given: it writes y to d; without a tag it
raises CAPTAG, and CAPKIND for another kind (RequireNarrowable, R350). -/
def Narrows (i : Instr) (s : State) (x : Cap) (kinds : List (BitVec 8)) (fits : Prop) (d : BitVec 4) (y : Cap) : Prop :=
  (x.tag = true → x.kind ∈ kinds → fits → WritesC i s d y 4) ∧
  (TrapsFree s.core s.frame s →
    (x.tag = false → Traps i s CAPTAG 0) ∧ (x.tag = true → x.kind ∉ kinds → Traps i s CAPKIND 0))

/-- The values that MFS reads, by number (R53). -/
def readable (s : State) : List (BitVec 12 × Word) :=
  [(0x000, s.cur.status), (0x001, BitVec.ofNat 64 s.frame), (0x002, BitVec.ofNat 64 (s.pos * 4096 + s.core)),
   (0x003, BitVec.ofNat 64 s.ftime), (0x004, BitVec.ofNat 64 (s.cycles - (s.coreAt s.core).born)),
   (0x010, s.cur.dlnext), (0x011, s.cur.clprio), (0x012, s.cur.qrowlen), (0x013, s.cur.barrot), (0x014, s.cur.rstat),
   (0x015, s.cur.clstat), (0x016, s.cur.amoerr), (0x017, (s.coreAt s.core).dslack), (0x020, (s.coreAt s.core).fupc),
   (0x021, s.cur.frec)]

/-- Those that the supervisor frame alone reads and writes. -/
def supervisorOnly (s : State) : List (BitVec 12 × Word) :=
  let c := s.coreAt s.core
  [(0x100, c.epc), (0x101, c.ecause), (0x102, c.eval), (0x103, c.sstatus), (0x104, c.uquota), (0x105, c.t1), (0x106, c.t2),
   (0x107, c.t3)]

/-- The registers that MTS writes whole, with the bits that are not reserved (R382). -/
def writable : List (BitVec 12 × Word) :=
  [(0x010, 0xFFFFFFFFFFFFFFFF), (0x011, 0xFF), (0x012, 0x1FFFF), (0x013, 7), (0x014, 0xFF), (0x015, 3),
   (0x016, 0xFFFFF0FFFFFFFFFF), (0x017, 0xFFFFFFFF), (0x020, 0xFFFFFFFFFFFFFF), (0x100, 0xFFFFFFFFFFFFFFFF),
   (0x101, 0xFF), (0x102, 0xFFFFFFFFFFFFFFFF), (0x104, 0xFFFFFFFFFF), (0x105, 0xFFFFFFFF), (0x106, 0xFFFFFFFF),
   (0x107, 0xFFFFFFFF)]

/-- The value that reads back as special register r of the current frame. -/
def Reads (s : State) (r : BitVec 12) (v : Word) : Prop := (r, v) ∈ readable s ++ supervisorOnly s

/-- Nothing has changed but special register r and the pc of the current frame: every other special register reads as
before, and every other register, frame, core and byte of memory stands. -/
structure OnlySr (r : BitVec 12) (s t : State) : Prop where
  sr    : ∀ q v, q ≠ r → Reads s q v → Reads t q v
  rest  : { t with cores := s.cores } = s
  cores : ∀ n, n ≠ s.core → t.coreAt n = s.coreAt n
  frames : ∀ f, f ≠ s.frame → t.frameAt s.core f = s.frameAt s.core f
  frame : { t.cur with
    status := s.cur.status, dlnext := s.cur.dlnext, clprio := s.cur.clprio, qrowlen := s.cur.qrowlen, barrot := s.cur.barrot,
    rstat := s.cur.rstat, clstat := s.cur.clstat, amoerr := s.cur.amoerr, pc := s.cur.pc } = s.cur
  core  : { t.coreAt s.core with
    frames := (s.coreAt s.core).frames, dslack := (s.coreAt s.core).dslack, fupc := (s.coreAt s.core).fupc,
    epc := (s.coreAt s.core).epc, ecause := (s.coreAt s.core).ecause, eval := (s.coreAt s.core).eval,
    sstatus := (s.coreAt s.core).sstatus, uquota := (s.coreAt s.core).uquota, t1 := (s.coreAt s.core).t1,
    t2 := (s.coreAt s.core).t2, t3 := (s.coreAt s.core).t3 } = s.coreAt s.core
  bytes : SameBytes s t

/-- The numbers that no frame may name, and those that MTS may not (R54). -/
def unlistedSr (r : BitVec 12) : Prop :=
  (0x006 ≤ r.toNat ∧ r.toNat ≤ 0x00F) ∨ (0x018 ≤ r.toNat ∧ r.toNat ≤ 0x01F) ∨ (0x022 ≤ r.toNat ∧ r.toNat ≤ 0x0FF) ∨
  (0x108 ≤ r.toNat ∧ r.toNat ≤ 0x1FF) ∨ 0x200 ≤ r.toNat
def readOnlySr (r : BitVec 12) : Prop := (1 ≤ r.toNat ∧ r.toNat ≤ 5) ∨ r = 0x021

end Sys2Proof.Says

/-- R350, R351: the capability operations write registers alone and only narrow; CGET's fields; c0 reads null and
discards. -/
def Obligations.CapabilitiesNarrow : Prop :=
  ∀ s : State, s.frame < 11 → ∀ (b d : BitVec 5) (a a' m : BitVec 4),
    WritesC (.cmov a m) s m (s.cur.cap a) 4 ∧
    Narrows (.cinc b a m) s (s.cur.cap a) [1, 4, 6] ((s.cur.gpr b).toNat ≤ (s.cur.cap a).len.toNat) m
      { s.cur.cap a with
        base := BitVec.ofNat 36 ((s.cur.cap a).base.toNat + (s.cur.gpr b).toNat)
        len := BitVec.ofNat 36 ((s.cur.cap a).len.toNat - (s.cur.gpr b).toNat) } ∧
    Narrows (.cbnd b a m) s (s.cur.cap a) [1, 4, 6] ((s.cur.gpr b).toNat ≤ (s.cur.cap a).len.toNat) m
      { s.cur.cap a with len := BitVec.ofNat 36 (s.cur.gpr b).toNat } ∧
    ((s.cur.gpr b).toNat < 256 →
      Narrows (.cperm b a m) s (s.cur.cap a) [1, 2, 3, 4, 5, 6] True m
        { s.cur.cap a with rights := (s.cur.cap a).rights &&& BitVec.ofNat 8 (s.cur.gpr b).toNat }) ∧
    (TrapsFree s.core s.frame s →
      (256 ≤ (s.cur.gpr b).toNat → Traps (.cperm b a m) s ILLEGAL (s.cur.gpr b)) ∧
      ((s.cur.cap a).tag = true → (s.cur.cap a).kind ∈ [(1 : BitVec 8), 4, 6] →
        (s.cur.cap a).len.toNat < (s.cur.gpr b).toNat →
        Traps (.cinc b a m) s CAPBOUND (s.cur.gpr b) ∧ Traps (.cbnd b a m) s CAPBOUND (s.cur.gpr b))) ∧
    (∀ p ∈ [((0 : BitVec 5), (s.cur.cap a).oid.toNat), (1, (s.cur.cap a).base.toNat), (2, (s.cur.cap a).len.toNat),
        (3, (s.cur.cap a).rights.toNat), (4, (s.cur.cap a).kind.toNat), (5, if (s.cur.cap a).tag then 1 else 0)],
      WritesG (.cget p.1 a d) s d (BitVec.ofNat 64 p.2) 4) ∧
    WritesG (.ceq a' a d) s d (if s.cur.cap a = s.cur.cap a' then 1 else 0) 4

/-- R53, R54, R380: MFS reads each register, and those of the supervisor in the supervisor frame alone. -/
def Sys2Proof.Says.SpecialRegisterReads : Prop :=
  ∀ s : State, s.frame < 11 → ∀ d : BitVec 5,
    (∀ p ∈ readable s, WritesG (.mfs p.1 d) s d p.2 4) ∧
    (s.frame = 10 → WritesG (.mfs 0x005 d) s d 0 4 ∧ ∀ p ∈ supervisorOnly s, WritesG (.mfs p.1 d) s d p.2 4) ∧
    (s.frame ≠ 10 → ∃ v : Word, WritesG (.mfs 0x005 d) s d v 4 ∧ v.extractLsb' 56 8 = s.cur.ver ∧
      v.extractLsb' 32 24 = s.cur.modid ∧ v.getLsbD 0 = s.cur.cvt ∧ v.extractLsb' 2 30 = 0 ∧
      (v.getLsbD 1 = true ↔ ((s.ctxAt (s.ctxOf s.core)).moduleAt s.cur.modid).exuvia = true ∧
        ∃ w, ((s.ctxAt (s.ctxOf s.core)).moduleAt s.cur.modid).other = some w ∧ w.ver = s.cur.ver))

/-- R380, R382, R84, R10, R266: MTS writes the bits of a register that are not reserved, OVD alone of STATUS, KILL and SKIP of
SSTATUS, whose other bits stand (log 45), and nothing else. -/
def Sys2Proof.Says.SpecialRegisterWrites : Prop :=
  ∀ s : State, s.frame < 11 → ∀ d : BitVec 5,
    (∀ p ∈ writable, (p.1.toNat < 0x100 ∨ s.frame = 10) → (p.1 = 0x020 → (s.cur.gpr d).getLsbD 0 = false) →
      ∃ t, exec (.mts p.1 d) s = .next t ∧ OnlySr p.1 s t ∧ Reads t p.1 (s.cur.gpr d &&& p.2) ∧ PcPast 4 s t) ∧
    (∃ t, exec (.mts 0x000 d) s = .next t ∧ OnlySr 0x000 s t ∧ PcPast 4 s t ∧
      t.cur.status.getLsbD 0 = (s.cur.gpr d).getLsbD 0 ∧
      ∀ i, i ≠ 0 → t.cur.status.getLsbD i = s.cur.status.getLsbD i) ∧
    (s.frame = 10 → ∃ t, exec (.mts 0x103 d) s = .next t ∧ OnlySr 0x103 s t ∧ PcPast 4 s t ∧
      ∀ i, (t.coreAt s.core).sstatus.getLsbD i =
        (if i < 2 then (s.cur.gpr d).getLsbD i else (s.coreAt s.core).sstatus.getLsbD i))

/-- R54, R380, R265: what MFS and MTS refuse, in the order of R54; PRIV carries EVAL 0, ILLEGAL the instruction's own word. The
supervisor frame meets no PRIV but the same ILLEGALs, 0x108 to 0x1FF included, in traps of its own, which it takes at once
(log 15). -/
def Sys2Proof.Says.SpecialRegisterChecks : Prop :=
  ∀ s : State, ∀ (r : BitVec 12) (d : BitVec 5),
    (TrapsFree s.core s.frame s →
      (0x100 ≤ r.toNat ∧ r.toNat ≤ 0x1FF → Traps (.mfs r d) s PRIV 0 ∧ Traps (.mts r d) s PRIV 0) ∧
      (unlistedSr r → ¬ (0x100 ≤ r.toNat ∧ r.toNat ≤ 0x1FF) →
        Traps (.mfs r d) s ILLEGAL (BitVec.ofNat 64 (encode (.mfs r d))) ∧
        Traps (.mts r d) s ILLEGAL (BitVec.ofNat 64 (encode (.mts r d))))) ∧
    (TrapsFree s.core s.frame s ∨ s.frame = 10 →
      (readOnlySr r → Traps (.mts r d) s ILLEGAL (BitVec.ofNat 64 (encode (.mts r d)))) ∧
      ((s.cur.gpr d).getLsbD 0 = true → Traps (.mts 0x020 d) s ILLEGAL (s.cur.gpr d))) ∧
    (s.frame = 10 → unlistedSr r →
      Traps (.mfs r d) s ILLEGAL (BitVec.ofNat 64 (encode (.mfs r d))) ∧
      Traps (.mts r d) s ILLEGAL (BitVec.ofNat 64 (encode (.mts r d))))

/-- R53, R54, R382: MFS and MTS over every special register: what they read, write and refuse. -/
def Obligations.SpecialRegisters : Prop :=
  Sys2Proof.Says.SpecialRegisterReads ∧
  Sys2Proof.Says.SpecialRegisterWrites ∧
  Sys2Proof.Says.SpecialRegisterChecks

namespace Sys2Proof.Says

/-- The access of size bytes at an offset through the capability c, with the rights and kinds it needs, passes every check of
R101, in which o is the object's descriptor and a the offset within it, and the check of R151. -/
structure Passed (s : State) (c : Cap) (off : Int) (size align : Nat) (need : BitVec 8) (kinds : List (BitVec 8))
    (noHost : Bool) (o : Desc) (a : Nat) : Prop where
  tag     : c.tag = true
  kind    : c.kind ∈ kinds
  rights  : need &&& ~~~c.rights = 0
  offset  : (a : Int) = c.base.toNat + off
  aligned : a % align = 0
  low     : 0 ≤ off
  high    : off + size ≤ c.len.toNat
  live    : s.liveAt (s.ctxAt (s.ctxOf s.core)) c.oid = some o
  reach   : s.reachRefused s.core o .frame noHost = false
  imm     : need.getLsbD 1 = true → o.imm = false
  layout  : s.layoutCheck s.core s.frame c o = .ok ()

/-- The instruction i, which makes such an access, ends in the trap of R101 for the first check that fails. -/
def ChecksAccess (i : Instr) (s : State) (c : Cap) (off : Int) (size align : Nat) (need : BitVec 8) (kinds : List (BitVec 8)) :
    Prop :=
  (c.tag = false → Traps i s CAPTAG 0) ∧
  (c.tag = true → c.kind ∉ kinds → Traps i s CAPKIND 0) ∧
  (c.tag = true → c.kind ∈ kinds → need &&& ~~~c.rights ≠ 0 →
    Traps i s CAPRIGHT (BitVec.ofNat 64 (need &&& ~~~c.rights).toNat)) ∧
  (c.tag = true → c.kind ∈ kinds → need &&& ~~~c.rights = 0 → (c.base.toNat + off) % align ≠ 0 →
    Traps i s ALIGN (BitVec.ofInt 64 (c.base.toNat + off))) ∧
  (c.tag = true → c.kind ∈ kinds → need &&& ~~~c.rights = 0 → (c.base.toNat + off) % align = 0 →
    ¬ (0 ≤ off ∧ off + size ≤ c.len.toNat) → Traps i s CAPBOUND (BitVec.ofInt 64 off)) ∧
  (c.tag = true → c.kind ∈ kinds → need &&& ~~~c.rights = 0 → (c.base.toNat + off) % align = 0 → 0 ≤ off →
    off + size ≤ c.len.toNat → s.liveAt (s.ctxAt (s.ctxOf s.core)) c.oid = none → Traps i s CAPTAG 0) ∧
  (∀ o, c.tag = true → c.kind ∈ kinds → need &&& ~~~c.rights = 0 → (c.base.toNat + off) % align = 0 → 0 ≤ off →
    off + size ≤ c.len.toNat → s.liveAt (s.ctxAt (s.ctxOf s.core)) c.oid = some o →
    s.reachRefused s.core o .frame false = false → need.getLsbD 1 = true → o.imm = true → o.hb = false → o.pw = false →
    o.pageReg = false → Traps i s CAPRIGHT 256) ∧
  (∀ o, c.tag = true → c.kind ∈ kinds → need &&& ~~~c.rights = 0 → (c.base.toNat + off) % align = 0 → 0 ≤ off →
    off + size ≤ c.len.toNat → s.liveAt (s.ctxAt (s.ctxOf s.core)) c.oid = some o →
    s.reachRefused s.core o .frame false = true → Traps i s CAPKIND 0)

/-- The bytes lie in the memory of the frame's own die, at an address that exists and holds no uncorrectable error. -/
def Near (s : State) (o : Desc) (a addr size : Nat) : Prop :=
  (s.placeOf (s.ctxAt (s.ctxOf s.core)) o a (dieOf s.core) = .migrating addr ∨
    ∃ q, s.placeOf (s.ctxAt (s.ctxOf s.core)) o a (dieOf s.core) = .here addr q) ∧
  addrExists addr = true ∧ s.badAt addr size = none

/-- The bytes bs as a loaded value: little-endian, extended with zeros or with the sign (R371). -/
def IsLoaded (size : Nat) (signed : Bool) (bs : List Byte) (v : Word) : Prop :=
  ∀ i, i < 64 → v.getLsbD i =
    (if i < 8 * size then (bs.getD (i / 8) 0).getLsbD (i % 8) else signed && (bs.getD (size - 1) 0).getLsbD 7)

/-- The load i of size bytes at an offset through c into d, when the bytes are near and no watermark covers them: d gets what
the frame reads there, its own buffered stores included, and nothing else changes but the pc and a die's access counts. -/
def LoadsNear (i : Instr) (s : State) (c : Cap) (off : Int) (size : Nat) (signed : Bool) (d : BitVec 5) (len : Nat) : Prop :=
  ∀ o a addr, Passed s c off size size 1 [1, 6] false o a → s.stalled s.core o.oid a (a + size) = false →
    Near s o a addr size →
    ∃ t, exec i s = .next t ∧ OnlyG d s { t with dies := s.dies } ∧ PcPast len s t ∧
      (d = 0 ∨ IsLoaded size signed (s.readOwn s.core s.frame addr size) (t.cur.gpr d))

/-- The current frame has parked in REMOTE with its registers and pc as they were, and a request r with the next number is on
its way to the home h: within the device, or to another device that can be reached. -/
structure ParkedRemote (s t : State) (h : Nat) (oid : BitVec 40) (off : Nat) (op : ReqOp) (len : Nat) (fin : Then) : Prop where
  parked : t.cur.state = .parked ∧ t.cur.park = some (.remote len [s.nextId] fin)
  frame  : { t.cur with state := s.cur.state, park := s.cur.park, wait := s.cur.wait } = s.cur
  sent   : ∃ r : Request, r.rid = s.nextId ∧ r.core = s.coreid s.core ∧ r.frame = s.frame ∧ r.home = h ∧ r.oid = oid ∧
    r.off = off ∧ r.op = op ∧ r.returns = true ∧
    ((h / 4096 = s.pos ∧ t.inflight = s.inflight ++ [.remoteRequest r] ∧ t.outbox = s.outbox) ∨
     (h / 4096 ≠ s.pos ∧ t.outbox = s.outbox ++ [.request r (h / 4096)] ∧ t.inflight = s.inflight))
  frames : ∀ f, f ≠ s.frame → t.frameAt s.core f = s.frameAt s.core f
  cores  : ∀ n, n ≠ s.core → t.coreAt n = s.coreAt n
  rest   : { t with cores := s.cores, inflight := s.inflight, outbox := s.outbox, nextId := s.nextId } = s
  bytes  : SameBytes s t

def LoadsRemote (i : Instr) (s : State) (c : Cap) (off : Int) (size : Nat) (signed : Bool) (d : BitVec 5) (len : Nat) : Prop :=
  ∀ o a h oid, Passed s c off size size 1 [1, 6] false o a → s.stalled s.core o.oid a (a + size) = false →
    s.placeOf (s.ctxAt (s.ctxOf s.core)) o a (dieOf s.core) = .remote h oid → h / 4096 ∉ s.unreachable →
    ∃ t, exec i s = .next t ∧ ParkedRemote s t h oid a (.load size) len (.word d size signed)

/-- A number's byte i, little-endian (R9). -/
def byteOf (n i : Nat) : Byte := BitVec.ofNat 8 (n / 256 ^ i % 256)

/-- Entries enter the store buffer of the core in their order: the frame's own pc moves on, and nothing else changes. -/
structure Enters (ps : List PStore) (len : Nat) (s t : State) : Prop where
  buffer : (t.coreAt s.core).buffer = (s.coreAt s.core).buffer ++ ps
  frame  : { t.cur with pc := s.cur.pc } = s.cur
  pc     : PcPast len s t
  frames : ∀ f, f ≠ s.frame → t.frameAt s.core f = s.frameAt s.core f
  core   : { t.coreAt s.core with buffer := (s.coreAt s.core).buffer, frames := (s.coreAt s.core).frames } = s.coreAt s.core
  cores  : ∀ n, n ≠ s.core → t.coreAt n = s.coreAt n
  rest   : { t with cores := s.cores } = s
  bytes  : SameBytes s t

/-- What a release at a scope waits for is there (R125); scope 0 waits for nothing. -/
def Released (s : State) (sc : Nat) : Prop := sc ≠ 0 → s.cur.acked (max sc 4) = true

/-- The store i of the low size bytes of v at an offset through c: near bytes enter the store buffer; bytes of host memory leave in a
posted request to the object's home, whose service hart writes them (R124, R222). -/
def Stores (i : Instr) (s : State) (c : Cap) (off : Int) (size sc : Nat) (v : Word) (len : Nat) : Prop :=
  ∀ o a, Passed s c off size size 2 [1, 6] false o a → Released s sc →
    (∀ addr q, s.placeOf (s.ctxAt (s.ctxOf s.core)) o a (dieOf s.core) = .here addr q → addrExists addr = true →
      s.badAt addr size = none → (s.coreAt s.core).buffer.length < 16 →
      s.tableCheck s.core s.frame c addr (leBytes size (v.toNat % 2 ^ (8 * size))) = .ok () →
      ∃ t p, exec i s = .next t ∧ Enters [p] len s t ∧ p.frame = s.frame ∧ p.addr = addr ∧ p.cap = none ∧
        p.bytes.length = size ∧ ∀ j, j < size → p.bytes.getD j 0 = byteOf v.toNat j) ∧
    (∀ pasid va h, s.placeOf (s.ctxAt (s.ctxOf s.core)) o a (dieOf s.core) = .host pasid va →
      s.homeOf (s.ctxAt (s.ctxOf s.core)) o (o.stripe a) = h → h / 4096 = s.pos →
      (s.buffered s.core s.frame = false ∨ (sc = 0 ∧ s.cur.relStores = false)) →
      ∃ t r, exec i s = .next t ∧ PcPast len s t ∧ t.cur.posted = s.cur.posted ++ [⟨s.nextId, 7, false⟩] ∧
        t.inflight = s.inflight ++ [.remoteRequest r] ∧ r.rid = s.nextId ∧ r.core = s.coreid s.core ∧ r.frame = s.frame ∧
        r.home = h ∧ r.oid = o.oid ∧ r.off = a ∧ r.returns = false ∧
        (∃ bs, r.op = .store bs ∧ bs.length = size ∧ ∀ j, j < size → bs.getD j 0 = byteOf v.toNat j) ∧
        OnlyPc s { t.setCur { t.cur with posted := s.cur.posted } with inflight := s.inflight, nextId := s.nextId })

/-- The n bytes from an address up lie outside the encrypted tiers, or in blocks that stand under the key of tenant k (R118). -/
def Keyed (s : State) (k a n : Nat) : Prop := 2 ^ 42 ≤ a ∨ ∀ b ∈ blocksAt a n, s.mine (s.ctxAt k) b = true

/-- The capability m that a CLDC at offset a of the object table gets through a window with these rights, O among them (R106):
minted from the descriptor's bytes, or the sixteen bytes at the address without a tag. -/
def Mints (s : State) (rights : BitVec 8) (a addr : Nat) (m : Cap) : Prop :=
  let x := s.ctxAt (s.ctxOf s.core)
  let w := leNat (s.readOwn s.core s.frame (x.descAddr (a / 64)) 64)
  let oid := BitVec.ofNat 40 (a / 64)
  let size := BitVec.ofNat 36 (bitsOf w 191 156)
  let live := a / 64 < x.tableLen ∧ bitsOf w 40 40 = 1
  let tier := bitsOf w 379 376
  (live → a % 64 = 0 → m =
    if bitsOf w 371 371 = 1 then ⟨true, (rights &&& 0x6F) ||| 0x40, 6, oid, 0, size⟩ else ⟨true, rights &&& 0x6F, 1, oid, 0, size⟩) ∧
  (live → a % 64 = 16 → tier = 1 → m = ⟨true, rights &&& 3, 4, oid, 0, size⟩) ∧
  (¬ (live ∧ (a % 64 = 0 ∨ (a % 64 = 16 ∧ tier = 1))) →
    m.tag = false ∧ leBytes 16 (capNat m) = s.readOwn s.core s.frame addr 16)

/-- The sixteen bytes of a capability: LEN, BASE, OID, kind and rights from bit 0 up (R96). -/
def IsStored (c : Cap) (bs : List Byte) : Prop :=
  ∀ i, i < 128 → (bs.getD (i / 8) 0).getLsbD (i % 8) =
    (if i < 36 then c.len.getLsbD i else if i < 72 then c.base.getLsbD (i - 36) else if i < 112 then c.oid.getLsbD (i - 72)
     else if i < 120 then c.kind.getLsbD (i - 112) else c.rights.getLsbD (i - 120))

/-- No frame of core n has more to do when a store leaves its buffer: none has stores that wait to enter it, none ends, no message
waits behind its stores, and no trap or event waits for the supervisor frame. -/
structure NoneWaits (s : State) (n : Nat) : Prop where
  entering : ∀ f, f < 11 → (s.frameAt n f).entering = []
  ending   : ∀ f, f < 11 → ∀ e, (s.frameAt n f).wait ≠ some (.ending e)
  messages : (s.coreAt n).outgoing = []
  traps    : (s.coreAt n).busy = true ∨ ((s.coreAt n).pendingTrap = none ∧ (s.coreAt n).events = [])

/-- The bytes at an address belong to no descriptor and no page-map entry of any tenant. -/
def PlainBytes (s : State) (a n : Nat) : Prop :=
  a ≥ 2 ^ 40 ∨ ∀ p ∈ s.contexts, p.2.descIndex a = none ∧ s.mapEntries p.2 a n = []

end Sys2Proof.Says

/-- R101: the checks of scalar loads and stores, capability loads and stores and atomics, in their order, and the traps they
raise (R265, R450). -/
def Obligations.AccessChecks : Prop :=
  ∀ s : State, TrapsFree s.core s.frame s → ∀ (o : BitVec 10) (sc : BitVec 3) (n w : BitVec 1) (p g b d : BitVec 5)
    (a m : BitVec 4),
    (∀ z : BitVec 2,
      ChecksAccess (.ld o sc z a d) s (s.cur.cap a) (o.toInt * 2 ^ z.toNat) (2 ^ z.toNat) (2 ^ z.toNat) 1 [1, 6] ∧
      ChecksAccess (.lds o sc z a d) s (s.cur.cap a) (o.toInt * 2 ^ z.toNat) (2 ^ z.toNat) (2 ^ z.toNat) 1 [1, 6] ∧
      ChecksAccess (.ldIndexed g sc z a d) s (s.cur.cap a) (s.cur.gpr g).toInt (2 ^ z.toNat) (2 ^ z.toNat) 1 [1, 6] ∧
      ChecksAccess (.ldsIndexed g sc z a d) s (s.cur.cap a) (s.cur.gpr g).toInt (2 ^ z.toNat) (2 ^ z.toNat) 1 [1, 6] ∧
      ChecksAccess (.st o sc z a d) s (s.cur.cap a) (o.toInt * 2 ^ z.toNat) (2 ^ z.toNat) (2 ^ z.toNat) 2 [1, 6] ∧
      ChecksAccess (.stx g sc z a d) s (s.cur.cap a) (s.cur.gpr g).toInt (2 ^ z.toNat) (2 ^ z.toNat) 2 [1, 6]) ∧
    ChecksAccess (.ldD16 a d) s (s.cur.cap a) 0 8 8 1 [1, 6] ∧
    ChecksAccess (.stD16 a d) s (s.cur.cap a) 0 8 8 2 [1, 6] ∧
    ChecksAccess (.cldc o sc a m) s (s.cur.cap a) (o.toInt * 16) 16 16 9 [1] ∧
    ChecksAccess (.cstc o sc a m) s (s.cur.cap a) (o.toInt * 16) 16 16 10 [1] ∧
    ChecksAccess (.amo sc n w p b a d) s (s.cur.cap a) 0 (if w = 1 then 8 else 4) (if w = 1 then 8 else 4) 3 [1] ∧
    ChecksAccess (.cas sc w b a d) s (s.cur.cap a) 0 (if w = 1 then 8 else 4) (if w = 1 then 8 else 4) 3 [1]

/-- R371, R61, R40: loads of near bytes, in every form. -/
def Sys2Proof.Says.NearLoads : Prop :=
  ∀ s : State, s.frame < 11 → ∀ (o : BitVec 10) (sc : BitVec 3) (z : BitVec 2) (g d : BitVec 5) (c : BitVec 4),
    LoadsNear (.ld o sc z c d) s (s.cur.cap c) (o.toInt * 2 ^ z.toNat) (2 ^ z.toNat) false d 4 ∧
    LoadsNear (.lds o sc z c d) s (s.cur.cap c) (o.toInt * 2 ^ z.toNat) (2 ^ z.toNat) true d 4 ∧
    LoadsNear (.ldIndexed g sc z c d) s (s.cur.cap c) (s.cur.gpr g).toInt (2 ^ z.toNat) false d 4 ∧
    LoadsNear (.ldsIndexed g sc z c d) s (s.cur.cap c) (s.cur.gpr g).toInt (2 ^ z.toNat) true d 4 ∧
    LoadsNear (.ldD16 c d) s (s.cur.cap c) 0 8 false d 2

/-- R371, R70, R222: a load whose bytes lie elsewhere parks in REMOTE and sends a request to the home. -/
def Sys2Proof.Says.RemoteLoads : Prop :=
  ∀ s : State, s.frame < 11 → (s.frame = 10 ∨ s.heavePending s.core = false) →
    ∀ (o : BitVec 10) (sc : BitVec 3) (z : BitVec 2) (g d : BitVec 5) (c : BitVec 4),
    LoadsRemote (.ld o sc z c d) s (s.cur.cap c) (o.toInt * 2 ^ z.toNat) (2 ^ z.toNat) false d 4 ∧
    LoadsRemote (.lds o sc z c d) s (s.cur.cap c) (o.toInt * 2 ^ z.toNat) (2 ^ z.toNat) true d 4 ∧
    LoadsRemote (.ldIndexed g sc z c d) s (s.cur.cap c) (s.cur.gpr g).toInt (2 ^ z.toNat) false d 4 ∧
    LoadsRemote (.ldsIndexed g sc z c d) s (s.cur.cap c) (s.cur.gpr g).toInt (2 ^ z.toNat) true d 4 ∧
    LoadsRemote (.ldD16 c d) s (s.cur.cap c) 0 8 false d 2

/-- R423, R123, R61, R124, R222: stores enter the store buffer of the core, in every form; those to host memory leave in posted requests to
the
object's home. -/
def Obligations.StoresOfEveryForm : Prop :=
  ∀ s : State, s.frame < 11 → ∀ (o : BitVec 10) (sc : BitVec 3) (z : BitVec 2) (g d : BitVec 5) (c : BitVec 4),
    Stores (.st o sc z c d) s (s.cur.cap c) (o.toInt * 2 ^ z.toNat) (2 ^ z.toNat) sc.toNat (s.cur.gpr d) 4 ∧
    Stores (.stx g sc z c d) s (s.cur.cap c) (s.cur.gpr g).toInt (2 ^ z.toNat) sc.toNat (s.cur.gpr d) 4 ∧
    Stores (.stD16 c d) s (s.cur.cap c) 0 8 0 (s.cur.gpr d) 2

/-- R123, R99, R118: the oldest entry of the store buffer is performed: its bytes are in memory, every other byte stands, the tags
of the granules it touches are the stored capability's or clear. -/
def Sys2Proof.Says.StoreBufferDrains : Prop :=
  ∀ (s : State) (n : Nat) (p : PStore) (ps : List PStore),
    (s.coreAt n).buffer = p :: ps → p.paged = none → PlainBytes s p.addr p.bytes.length → memWf s.mem = true →
    Keyed s p.ctx p.addr p.bytes.length → NoneWaits s n →
    ∃ t, exec (.storeBufferDrain n) s = .next t ∧ (t.coreAt n).buffer = ps ∧ t.keys = s.keys ∧
      (∀ x, ¬ (p.addr ≤ x ∧ x < p.addr + p.bytes.length) → memGet t.mem x = memGet s.mem x) ∧
      (∀ j (h : j < p.bytes.length), memGet t.mem (p.addr + j) = p.bytes[j]) ∧
      (∀ f, { t.frameAt n f with relStores := (s.frameAt n f).relStores } = s.frameAt n f) ∧
      (∀ m, m ≠ n → t.coreAt m = s.coreAt m) ∧
      (p.cap = none → ∀ g, g ∈ t.tags ↔ g ∈ s.tags ∧ g ∉ granules p.addr p.bytes.length) ∧
      (∀ c, p.cap = some c → p.bytes.length = 16 → (p.addr / 16 ∈ t.tags ↔ c.tag = true))

/-- R353, R99: CLDC of near bytes gets the stored capability with its granule's tag, and CSTC enters the store buffer with
the capability it carries and its sixteen bytes; neither changes anything else. R106: A CLDC through a window over the object table
that holds O mints what the descriptor gives, and reads anything else there without a tag. -/
def Obligations.CapabilityLoadsAndStores : Prop :=
  ∀ s : State, s.frame < 11 → ∀ (off : BitVec 10) (sc : BitVec 3) (c m : BitVec 4) (o : Desc) (a addr : Nat),
    (Passed s (s.cur.cap c) (off.toInt * 16) 16 16 9 [1] false o a → s.stalled s.core o.oid a (a + 16) = false →
      Near s o a addr 16 → o.whole = none →
      ∃ t, exec (.cldc off sc c m) s = .next t ∧ OnlyC m s { t with dies := s.dies } ∧ PcPast 4 s t ∧
        (m = 0 ∨ ((t.cur.cap m).tag = s.tagOwn s.core s.frame addr ∧
          leBytes 16 (capNat (t.cur.cap m)) = s.readOwn s.core s.frame addr 16))) ∧
    (Passed s (s.cur.cap c) (off.toInt * 16) 16 16 9 [1] false o a → s.stalled s.core o.oid a (a + 16) = false →
      Near s o a addr 16 → o.whole.isSome = true → (s.cur.cap c).rights.getLsbD 5 = true →
      ∃ t, exec (.cldc off sc c m) s = .next t ∧ OnlyC m s { t with dies := s.dies } ∧ PcPast 4 s t ∧
        (m = 0 ∨ Mints s (s.cur.cap c).rights a addr (t.cur.cap m))) ∧
    (∀ q, Passed s (s.cur.cap c) (off.toInt * 16) 16 16 10 [1] false o a → Released s sc.toNat →
      s.placeOf (s.ctxAt (s.ctxOf s.core)) o a (dieOf s.core) = .here addr q → o.hb = false → addrExists addr = true →
      s.badAt addr 16 = none → (s.coreAt s.core).buffer.length < 16 →
      s.tableCheck s.core s.frame (s.cur.cap c) addr (leBytes 16 (capNat (s.cur.cap m))) = .ok () →
      ∃ t p, exec (.cstc off sc c m) s = .next t ∧ Enters [p] 4 s t ∧ p.frame = s.frame ∧ p.addr = addr ∧
        p.cap = some (s.cur.cap m) ∧ p.bytes.length = 16 ∧ IsStored (s.cur.cap m) p.bytes)

/-- R123: a load of the bytes that the frame's youngest buffered store covers reads that store's bytes, and another frame of
the core does not see it. -/
def Sys2Proof.Says.LoadsForwardOwnStores : Prop :=
  ∀ (s : State) (n f : Nat) (ps : List PStore) (p : PStore), (s.coreAt n).buffer = ps ++ [p] → p.paged = none →
    (p.frame = f → s.readOwn n f p.addr p.bytes.length = p.bytes) ∧
    (p.frame ≠ f → ∀ a k, s.readOwn n f a k = (s.setCore n { s.coreAt n with buffer := ps }).readOwn n f a k)

/-- Loads that complete at once, and loads that leave the core. -/
def Obligations.Loads : Prop :=
  Sys2Proof.Says.NearLoads ∧ Sys2Proof.Says.RemoteLoads

/-- R123: stores pass through the store buffer in order, and the frame's own loads see them. -/
def Obligations.StoreBuffer : Prop :=
  Sys2Proof.Says.StoreBufferDrains ∧ Sys2Proof.Says.LoadsForwardOwnStores

namespace Sys2Proof.Says

/-- Combine of R328 at a width of n bits, for the operations on integers. -/
def combines : List (BitVec 5 × IntRel) :=
  [(0, IsAdd), (1, IsAnd), (2, IsOr), (3, IsXor), (4, IsMin), (5, IsMax), (6, IsMinn), (7, IsMaxn), (8, fun _ _ x r => r = x)]

/-- The frame's atomic of n bytes through c is performed here, at the location's home: the place is near and not migrating, its
bytes are plain and sound, every check passes, and the frame's earlier accesses are performed (R327, R330). -/
structure AtomicHere (s : State) (c : Cap) (n sc : Nat) (o : Desc) (a addr : Nat) : Prop where
  passed : Passed s c 0 n n 3 [1] true o a
  place  : ∃ q, s.placeOf (s.ctxAt (s.ctxOf s.core)) o a (dieOf s.core) = .here addr q
  home   : (if s.far o then o.home else s.homeOf (s.ctxAt (s.ctxOf s.core)) o (o.stripe a)) = s.coreid s.core
  sound  : addrExists addr = true ∧ s.badAt addr n = none
  plain  : PlainBytes s addr n
  keyed  : Keyed s (s.ctxOf s.core) addr n
  table  : ∀ bs, bs.length = n → s.tableCheck s.core s.frame c addr bs = .ok ()
  order  : s.cur.acked (max sc 4) = true ∧ s.buffered s.core s.frame = false
  form   : memWf s.mem = true

/-- The n bytes at an address have gone from the value old to new, and every other byte stands. -/
def Exchanges (n addr old new : Nat) (s t : State) : Prop :=
  leNat (memBytes s.mem addr n) = old ∧ leNat (memBytes t.mem addr n) = new ∧
  ∀ x, ¬ (addr ≤ x ∧ x < addr + n) → memGet t.mem x = memGet s.mem x

/-- What the state is but for memory, tags, access counts and the marks of a migration. -/
def putBack (s t : State) : State := { t with mem := s.mem, tags := s.tags, dies := s.dies, contexts := s.contexts }

/-- The atomic i of n bytes at its home: the old value to d, when it is wanted, zero-extended; the new value in memory. -/
def AtomicDoes (i : Instr) (s : State) (returns : Bool) (n addr old new : Nat) (d : BitVec 5) : Prop :=
  ∃ t, exec i s = .next t ∧ Exchanges n addr old new s t ∧ PcPast 4 s t ∧
    (returns = true → OnlyG d s (putBack s t) ∧ (d = 0 ∨ (t.cur.gpr d).toNat = old)) ∧
    (returns = false → OnlyPc s (putBack s t))

end Sys2Proof.Says

/-- R328, R348, R130: atomics at their home: every integer operation at 4 and 8 bytes, with and without a returned value,
compare-and-swap, and the float operations at 4 bytes. -/
def Sys2Proof.Says.AtomicsAtHome : Prop :=
  ∀ s : State, s.frame < 11 → ∀ (sc : BitVec 3) (r w : BitVec 1) (b d : BitVec 5) (c : BitVec 4) (o : Desc) (a addr : Nat),
    AtomicHere s (s.cur.cap c) (if w = 1 then 8 else 4) sc.toNat o a addr →
    (w = 0 → ∀ old x : BitVec 32, leNat (memBytes s.mem addr 4) = old.toNat → x = (s.cur.gpr b).setWidth 32 →
      (∀ p ∈ combines, ∃ new : BitVec 32, p.2 32 old x new ∧
        AtomicDoes (.amo sc r w p.1 b c d) s (r = 0) 4 addr old.toNat new.toNat d) ∧
      (∀ p ∈ [((9 : BitVec 5), addF old x), (11, minF old x), (12, maxF old x)],
        AtomicDoes (.amo sc r w p.1 b c d) s (r = 0) 4 addr old.toNat p.2.toNat d) ∧
      (∃ new : BitVec 32, AtomicDoes (.amo sc r w 10 b c d) s (r = 0) 4 addr old.toNat new.toNat d ∧
        new.extractLsb' 16 16 = BitVec.ofNat 16 (bf16.round .rne false ((bf16.value (old.toNat / 65536)).add (bf16.value (x.toNat / 65536)))) ∧
        new.extractLsb' 0 16 = BitVec.ofNat 16 (bf16.round .rne false ((bf16.value (old.toNat % 65536)).add (bf16.value (x.toNat % 65536))))) ∧
      AtomicDoes (.cas sc w b c d) s true 4 addr old.toNat
        (if old = (s.cur.gpr d).setWidth 32 then x.toNat else old.toNat) d) ∧
    (w = 1 → ∀ old x : BitVec 64, leNat (memBytes s.mem addr 8) = old.toNat → x = s.cur.gpr b →
      (∀ p ∈ combines, ∃ new : BitVec 64, p.2 64 old x new ∧
        AtomicDoes (.amo sc r w p.1 b c d) s (r = 0) 8 addr old.toNat new.toNat d) ∧
      AtomicDoes (.cas sc w b c d) s true 8 addr old.toNat (if old = s.cur.gpr d then x.toNat else old.toNat) d)

/-- R328, R70, R222: an atomic whose home is another die or device parks with the request on its way, when it returns a
value. -/
def Sys2Proof.Says.AtomicsElsewhere : Prop :=
  ∀ s : State, s.frame < 11 → (s.frame = 10 ∨ s.heavePending s.core = false) →
    ∀ (sc : BitVec 3) (w : BitVec 1) (p b d : BitVec 5) (c : BitVec 4) (o : Desc) (a h : Nat) (oid : BitVec 40),
    Passed s (s.cur.cap c) 0 (if w = 1 then 8 else 4) (if w = 1 then 8 else 4) 3 [1] true o a →
    (∀ b bs, s.addrAtHome s.core o a h = some b → s.tableCheck s.core s.frame (s.cur.cap c) b bs = .ok ()) →
    s.placeOf (s.ctxAt (s.ctxOf s.core)) o a (dieOf s.core) = .remote h oid → h / 4096 ∉ s.unreachable →
    (if s.far o then o.home else s.homeOf (s.ctxAt (s.ctxOf s.core)) o (o.stripe a)) = h →
    s.cur.acked (max sc.toNat 4) = true → s.buffered s.core s.frame = false →
    (∃ t e, exec (.amo sc 0 w p b c d) s = .next t ∧
      ParkedRemote s t h oid a (.amo p (w = 1) e (s.cur.gpr b)) 4 (.atomic d (w = 1))) ∧
    (∃ t, exec (.cas sc w b c d) s = .next t ∧
      ParkedRemote s t h oid a (.amo 13 (w = 1) (if w = 1 then s.cur.gpr d else (s.cur.gpr d) &&& 0xFFFFFFFF) (s.cur.gpr b)) 4
        (.atomic d (w = 1)))

/-- Atomics and CAS, at their home core and elsewhere. -/
def Obligations.Atomics : Prop :=
  Sys2Proof.Says.AtomicsAtHome ∧ Sys2Proof.Says.AtomicsElsewhere

namespace Sys2Proof.Says

/-- Lane l is guarded by mask register k: k0 guards every lane (R55). -/
def Guarded (s : State) (k : BitVec 3) (l : Nat) : Prop := k = 0 ∨ (s.cur.mask k).getLsbD l = true

/-- The instruction i writes vector register d: each guarded lane with a result of its operands' lanes, every other lane as it
was (R171), and changes nothing else. -/
def Lanes (i : Instr) (s : State) (k : BitVec 3) (d : BitVec 5) (rel : Nat → Lane → Prop) : Prop :=
  ∃ f : Nat → Lane, WritesV i s d f 4 ∧
    ∀ l, l < 32 → (Guarded s k l → rel l (f l)) ∧ (¬ Guarded s k l → f l = lane (s.cur.vreg d) l)

/-- The same for an operation on the lanes of two registers. -/
def Lanes2 (i : Instr) (s : State) (k : BitVec 3) (d : BitVec 5) (x y : VReg) (rel : Lane → Lane → Lane → Prop) : Prop :=
  Lanes i s k d (fun l r => rel (lane x l) (lane y l) r)

/-- A finite f32 lane. -/
def IsFinite (x : Lane) : Prop := x.toNat % 2 ^ 31 < 0x7F800000

/-- The lut8 bank that the format context selects (R178), by code. -/
def tableOf (s : State) (i : Nat) : Fp := (s.coreAt s.core).lutEntry (bitsOf s.cur.fctx0.toNat 13 13) i

/-- A table whose entries rise with their codes. -/
def Ascends (t : Nat → Fp) : Prop := ∀ i j, i < j → j < 256 → (t i).lt (t j) = true

/-- The code n has the entry nearest to the lane x, and is the lower one of two that are as near (R175). -/
def NearestCode (t : Nat → Fp) (x : Lane) (n : Nat) : Prop :=
  let dist (j : Nat) : Fp := ((t j).add (fpOf x).neg).abs
  n < 256 ∧ ∀ j, j < 256 → (dist j).lt (dist n) = false ∧ (j < n → (dist n).lt (dist j) = true)

def IsNan (x : Lane) : Prop := 0x7F800000 < x.toNat % 2 ^ 31

/-- A result of f32 lanes: the canonical NaN where an operand is a NaN (R168, R171), else what follows. -/
def FloatRel (rel : Lane → Lane → Lane → Prop) : Lane → Lane → Lane → Prop := fun a b r =>
  (IsNan a ∨ IsNan b → r = 0x7FC00000) ∧ (¬ IsNan a → ¬ IsNan b → rel a b r)

/-- The lesser and the greater of two f32 values, with -0 below +0 (R172). -/
def FloatMin (a b r : Lane) : Prop :=
  (r = a ∨ r = b) ∧ (fpOf a).lt (fpOf r) = false ∧ (fpOf b).lt (fpOf r) = false ∧ (a = 0x80000000 → b = 0 → r = a) ∧
    (b = 0x80000000 → a = 0 → r = b)
def FloatMax (a b r : Lane) : Prop :=
  (r = a ∨ r = b) ∧ (fpOf r).lt (fpOf a) = false ∧ (fpOf r).lt (fpOf b) = false ∧ (a = 0x80000000 → b = 0 → r = b) ∧
    (b = 0x80000000 → a = 0 → r = a)

/-- A comparison of VCMP on two lanes (R172, R430), by its code: on f32 values, signed and unsigned integers. -/
def Compares (f : BitVec 4) (t : BitVec 3) (a b : Lane) : Prop :=
  (t = 0 ∧ ((IsNan a ∨ IsNan b) ∧ f = 1 ∨ ¬ IsNan a ∧ ¬ IsNan b ∧
      (f = 0 ∧ (fpOf a).lt (fpOf b) = false ∧ (fpOf b).lt (fpOf a) = false ∨
       f = 1 ∧ ((fpOf a).lt (fpOf b) = true ∨ (fpOf b).lt (fpOf a) = true) ∨
       f = 2 ∧ (fpOf a).lt (fpOf b) = true ∨ f = 3 ∧ (fpOf b).lt (fpOf a) = false ∨
       f = 4 ∧ (fpOf b).lt (fpOf a) = true ∨ f = 5 ∧ (fpOf a).lt (fpOf b) = false))) ∨
  (t = 1 ∧ (f = 0 ∧ a.toInt = b.toInt ∨ f = 1 ∧ a.toInt ≠ b.toInt ∨ f = 2 ∧ a.toInt < b.toInt ∨ f = 3 ∧ a.toInt ≤ b.toInt ∨
    f = 4 ∧ b.toInt < a.toInt ∨ f = 5 ∧ b.toInt ≤ a.toInt)) ∨
  (t = 2 ∧ (f = 0 ∧ a.toNat = b.toNat ∨ f = 1 ∧ a.toNat ≠ b.toNat ∨ f = 2 ∧ a.toNat < b.toNat ∨ f = 3 ∧ a.toNat ≤ b.toNat ∨
    f = 4 ∧ b.toNat < a.toNat ∨ f = 5 ∧ b.toNat ≤ a.toNat))

/-- VRED of integer lanes (R172): the sum modulo 2^32, the least or the greatest; with no lane, the identity. -/
def Reduces (f : BitVec 4) (t : BitVec 3) (xs : List Lane) (r : Lane) : Prop :=
  (f = 0 → r.toNat = (xs.map BitVec.toNat).sum % 2 ^ 32) ∧
  (f = 1 → t = 1 → (xs = [] → r = 0x7FFFFFFF) ∧ (xs ≠ [] → r ∈ xs ∧ ∀ x ∈ xs, r.toInt ≤ x.toInt)) ∧
  (f = 2 → t = 1 → (xs = [] → r = 0x80000000) ∧ (xs ≠ [] → r ∈ xs ∧ ∀ x ∈ xs, x.toInt ≤ r.toInt)) ∧
  (f = 1 → t = 2 → (xs = [] → r = 0xFFFFFFFF) ∧ (xs ≠ [] → r ∈ xs ∧ ∀ x ∈ xs, r.toNat ≤ x.toNat)) ∧
  (f = 2 → t = 2 → (xs = [] → r = 0) ∧ (xs ≠ [] → r ∈ xs ∧ ∀ x ∈ xs, x.toNat ≤ r.toNat))

/-- The special results of VFN (R176), by function code: those of a NaN, of zeros, infinities and negative values. -/
def FnSpecial (f : BitVec 4) (a r : Lane) : Prop :=
  (IsNan a → r = 0x7FC00000) ∧
  (a = 0 → r = (if f = 0 ∨ f = 1 then 0x7F800000 else if f = 2 ∨ f = 5 then 0 else if f = 4 then 0xFF800000 else 0x3F800000)) ∧
  (a = 0x80000000 → r = (if f = 0 ∨ f = 1 then 0xFF800000 else if f = 2 ∨ f = 5 then 0x80000000
    else if f = 4 then 0xFF800000 else 0x3F800000)) ∧
  (a = 0x7F800000 → r = (if f = 0 ∨ f = 1 then 0 else if f = 2 ∨ f = 3 ∨ f = 4 then 0x7F800000 else 0x7FC00000)) ∧
  (a = 0xFF800000 → r = (if f = 0 then 0x80000000 else if f = 3 then 0 else 0x7FC00000)) ∧
  (0x80000000 < a.toNat → a.toNat < 0xFF800000 → (f = 1 ∨ f = 2 ∨ f = 4) → r = 0x7FC00000)

/-- The real number that a finite f32 value is. -/
def IsReal (x : Fp) (v : ℝ) : Prop := ∃ n m e, x = .num n m e ∧ v = (if n then -1 else 1) * (m : ℝ) * (2 : ℝ) ^ (e : ℤ)

/-- The lane r is the real number v rounded once to f32 by RNE (R176, R167): no finite lane is nearer to v, of two that are as near it
is the even one, and a magnitude of half a step above the greatest finite value or more gives infinity. -/
def Rounds (v : ℝ) (r : Lane) : Prop :=
  (r.getLsbD 31 = true ↔ v < 0) ∧ ((2 : ℝ) ^ 128 - 2 ^ 103 ≤ |v| → r.toNat % 2 ^ 31 = 0x7F800000) ∧
  (|v| < (2 : ℝ) ^ 128 - 2 ^ 103 → ∃ x, IsFinite r ∧ IsReal (fpOf r) x ∧
    ∀ y w, IsFinite y → IsReal (fpOf y) w → |x - v| ≤ |w - v| ∧ (|x - v| = |w - v| → w = x ∨ r.getLsbD 0 = false))

/-- The results of VFN at a number x other than zero, where they are algebraic (R176): the reciprocal, the reciprocal root, the root,
2^x of an integer and log2 of a power of 2, each rounded once. -/
def FnOrdinary (f : BitVec 4) (x : ℝ) (r : Lane) : Prop :=
  (f = 0 → Rounds (1 / x) r) ∧ (f = 1 → 0 < x → Rounds (1 / Real.sqrt x) r) ∧ (f = 2 → 0 < x → Rounds (Real.sqrt x) r) ∧
  (f = 3 → ∀ n : ℤ, x = n → Rounds ((2 : ℝ) ^ n) r) ∧ (f = 4 → ∀ n : ℤ, x = (2 : ℝ) ^ n → Rounds n r)

/-- The lane r is the correct rounding of a number that lies within 2^-1000 of v. -/
def RoundsNear (v : ℝ) (r : Lane) : Prop := ∃ w : ℝ, |w - v| ≤ 1 / 2 ^ 1000 ∧ Rounds w r

/-- Every guarded lane's element of a vector access, of size bytes at the offset off, passes its checks, and its bytes are in
the memory of the frame's own die. -/
structure ElementsNear (s : State) (c : Cap) (size : Nat) (need : BitVec 8) (k : BitVec 3) (off : Nat → Int) (o : Nat → Desc)
    (a addr : Nat → Nat) : Prop where
  passed : ∀ l, l < 32 → Guarded s k l → Passed s c (off l) size size need [1, 6] false (o l) (a l)
  place  : ∀ l, l < 32 → Guarded s k l → ∃ q, s.placeOf (s.ctxAt (s.ctxOf s.core)) (o l) (a l) (dieOf s.core) = .here (addr l) q
  sound  : ∀ l, l < 32 → Guarded s k l → addrExists (addr l) = true ∧ s.badAt (addr l) size = none

def LoadsLanes (i : Instr) (s : State) (c : Cap) (size : Nat) (k : BitVec 3) (d : BitVec 5) (off : Nat → Int) : Prop :=
  ∀ o a addr, ElementsNear s c size 1 k off o a addr →
    (∀ l, l < 32 → Guarded s k l → s.stalled s.core (o l).oid (a l) (a l + size) = false) →
    ∃ t, exec i s = .next t ∧ OnlyV d s { t with dies := s.dies } ∧ PcPast 4 s t ∧
      ∀ l, l < 32 →
        (Guarded s k l → IsLoaded size false (s.readOwn s.core s.frame (addr l) size) ((lane (t.cur.vreg d) l).setWidth 64)) ∧
        (¬ Guarded s k l → lane (t.cur.vreg d) l = lane (s.cur.vreg d) l)

/-- The entries of the store buffer that a vector store makes: one for each guarded lane, in ascending order. -/
def LaneStores (s : State) (size : Nat) (k : BitVec 3) (d : BitVec 5) (addr : Nat → Nat) (ps : List PStore) : Prop :=
  ∃ ls : List Nat, (∀ l, l ∈ ls ↔ l < 32 ∧ Guarded s k l) ∧ ls.Pairwise (· < ·) ∧
    ps.map (fun p => (p.frame, p.addr, p.cap, p.bytes)) =
      ls.map (fun l => (s.frame, addr l, none, (List.range size).map (byteOf (lane (s.cur.vreg d) l).toNat)))

def StoresLanes (i : Instr) (s : State) (c : Cap) (size : Nat) (k : BitVec 3) (d : BitVec 5) (off : Nat → Int) : Prop :=
  ∀ o a addr, ElementsNear s c size 2 k off o a addr → (s.coreAt s.core).buffer.length < 16 →
    (∀ l bs, l < 32 → Guarded s k l → s.tableCheck s.core s.frame c (addr l) bs = .ok ()) →
    ∃ t ps, exec i s = .next t ∧ LaneStores s size k d addr ps ∧
      ((s.coreAt s.core).buffer.length + ps.length ≤ 16 → Enters ps 4 s t) ∧
      (16 < (s.coreAt s.core).buffer.length + ps.length →
        (t.coreAt s.core).buffer ++ t.cur.entering = (s.coreAt s.core).buffer ++ ps ∧
        (t.coreAt s.core).buffer.length = 16 ∧ t.cur.wait = some .entering ∧ PcPast 4 s t ∧ SameBytes s t)

end Sys2Proof.Says

/-- R428, R172, R37: the integer and bitwise lane operations. -/
def Sys2Proof.Says.IntegerLanes : Prop :=
  ∀ s : State, s.frame < 11 → ∀ (k : BitVec 3) (b a d : BitVec 5),
    (∀ t ∈ [(1 : BitVec 3), 2],
      Lanes2 (.vadd t k b a d) s k d (s.cur.vreg a) (s.cur.vreg b) (IsAdd 32) ∧
      Lanes2 (.vsub t k b a d) s k d (s.cur.vreg a) (s.cur.vreg b) (IsSub 32) ∧
      Lanes2 (.vmul t k b a d) s k d (s.cur.vreg a) (s.cur.vreg b) (IsMul 32) ∧
      Lanes2 (.vmin t k b a d) s k d (s.cur.vreg a) (s.cur.vreg b) (if t = 1 then Says.IsMin 32 else IsMinn 32) ∧
      Lanes2 (.vmax t k b a d) s k d (s.cur.vreg a) (s.cur.vreg b) (if t = 1 then Says.IsMax 32 else IsMaxn 32) ∧
      Lanes2 (.vshl t k b a d) s k d (s.cur.vreg a) (s.cur.vreg b) (IsShl 32) ∧
      Lanes2 (.vshr t k b a d) s k d (s.cur.vreg a) (s.cur.vreg b) (IsShr 32) ∧
      Lanes2 (.vshra t k b a d) s k d (s.cur.vreg a) (s.cur.vreg b) (IsShra 32)) ∧
    ∀ t : BitVec 3,
      Lanes2 (.vand t k b a d) s k d (s.cur.vreg a) (s.cur.vreg b) (IsAnd 32) ∧
      Lanes2 (.vor t k b a d) s k d (s.cur.vreg a) (s.cur.vreg b) (IsOr 32) ∧
      Lanes2 (.vxor t k b a d) s k d (s.cur.vreg a) (s.cur.vreg b) (IsXor 32)

/-- R171, R172, R428, R434, R435, R176: the f32 lane operations: the exact result rounded once, canonical NaNs, minimum and maximum
that order the zeros, the special results of the functions, and their algebraic ones. -/
def Sys2Proof.Says.FloatLanes : Prop :=
  ∀ s : State, s.frame < 11 → ∀ (k : BitVec 3) (b a d : BitVec 5),
    Lanes2 (.vadd 0 k b a d) s k d (s.cur.vreg a) (s.cur.vreg b)
      (FloatRel fun x y r => r.toNat = f32.round .rne false ((fpOf x).add (fpOf y))) ∧
    Lanes2 (.vsub 0 k b a d) s k d (s.cur.vreg a) (s.cur.vreg b)
      (FloatRel fun x y r => r.toNat = f32.round .rne false ((fpOf x).add (fpOf y).neg)) ∧
    Lanes2 (.vmul 0 k b a d) s k d (s.cur.vreg a) (s.cur.vreg b)
      (FloatRel fun x y r => r.toNat = f32.round .rne false ((fpOf x).mul (fpOf y))) ∧
    Lanes2 (.vmin 0 k b a d) s k d (s.cur.vreg a) (s.cur.vreg b) (FloatRel FloatMin) ∧
    Lanes2 (.vmax 0 k b a d) s k d (s.cur.vreg a) (s.cur.vreg b) (FloatRel FloatMax) ∧
    Lanes (.vfma k b a d) s k d (fun l r => r.toNat =
      f32.round .rne false (((fpOf (lane (s.cur.vreg a) l)).mul (fpOf (lane (s.cur.vreg b) l))).add (fpOf (lane (s.cur.vreg d) l)))) ∧
    Lanes (.vfmaNeg k b a d) s k d (fun l r => r.toNat =
      f32.round .rne false (((fpOf (lane (s.cur.vreg a) l)).mul (fpOf (lane (s.cur.vreg b) l))).neg.add (fpOf (lane (s.cur.vreg d) l)))) ∧
    ∀ f : BitVec 4, f.toNat ≤ 6 → Lanes (.vfn f k a d) s k d (fun l r => FnSpecial f (lane (s.cur.vreg a) l) r ∧
      ∀ x, IsReal (fpOf (lane (s.cur.vreg a) l)) x → x ≠ 0 → FnOrdinary f x r)

/-- R429, R431, R432, R173, R433, R175: broadcast, permutation, selection, conversion, and the tables of lut8, with the
nearest code of an ascending one.
A conversion between equal formats copies the whole lane: the model's choice of log 100. -/
def Obligations.LaneMovesAndConversions : Prop :=
  ∀ s : State, s.frame < 11 → ∀ (k : BitVec 3) (b a d : BitVec 5) (z : BitVec 1) (m : BitVec 2),
    Lanes (.vbcast k a d) s k d (fun _ r => r = (s.cur.gpr a).extractLsb' 0 32) ∧
    Lanes (.vperm k b a d) s k d (fun l r => r = lane (s.cur.vreg a) ((lane (s.cur.vreg b) l).toNat % 32)) ∧
    (∃ f, WritesV (.vsel k b a d) s d f 4 ∧ ∀ l, l < 32 →
      (Guarded s k l → f l = lane (s.cur.vreg a) l) ∧ (¬ Guarded s k l → f l = lane (s.cur.vreg b) l)) ∧
    (∀ t : BitVec 3, Lanes (.vcvt z t k m t a d) s k d (fun l r => r = lane (s.cur.vreg a) l)) ∧
    Lanes (.vcvt z 1 k m 2 a d) s k d (fun l r => r.toInt = min (lane (s.cur.vreg a) l).toNat 2147483647) ∧
    Lanes (.vcvt z 2 k m 1 a d) s k d (fun l r => (r.toNat : Int) = max (lane (s.cur.vreg a) l).toInt 0) ∧
    (∀ t u : BitVec 3, t ≠ u → u ∉ [(1 : BitVec 3), 2] → t ∉ [(1 : BitVec 3), 2] →
      Lanes (.vcvt z t k m u a d) s k d (fun l r => r.toNat = (fmtOf t).round (rmOf m) (z = 1)
        ((fmtOf u).value ((lane (s.cur.vreg a) l).toNat % 2 ^ (1 + (fmtOf u).ew + (fmtOf u).fw))))) ∧
    (∀ u : BitVec 3, u ∉ [(1 : BitVec 3), 2] →
      Lanes (.vcvt z 1 k m u a d) s k d (fun l r => r.toInt = toBounds (rmOf m) (-2147483648) 2147483647
        ((fmtOf u).value ((lane (s.cur.vreg a) l).toNat % 2 ^ (1 + (fmtOf u).ew + (fmtOf u).fw)))) ∧
      Lanes (.vcvt z 2 k m u a d) s k d (fun l r => (r.toNat : Int) = toBounds (rmOf m) 0 4294967295
        ((fmtOf u).value ((lane (s.cur.vreg a) l).toNat % 2 ^ (1 + (fmtOf u).ew + (fmtOf u).fw))))) ∧
    (∀ t : BitVec 3, t ∉ [(1 : BitVec 3), 2] →
      Lanes (.vcvt z t k m 1 a d) s k d (fun l r => r.toNat =
        (fmtOf t).round (rmOf m) (z = 1) (fpInt (lane (s.cur.vreg a) l).toInt)) ∧
      Lanes (.vcvt z t k m 2 a d) s k d (fun l r => r.toNat =
        (fmtOf t).round (rmOf m) (z = 1) (fpInt (lane (s.cur.vreg a) l).toNat))) ∧
    Lanes (.vdec k a d) s k d (fun l r => r.toNat = f32.round .rne false
      (tableOf s ((lane (s.cur.vreg a) l).toNat % 256))) ∧
    Lanes (.venc k a d) s k d (fun l r => r.toNat < 256 ∧ (IsNan (lane (s.cur.vreg a) l) → r = 0) ∧
      (Ascends (tableOf s) → IsFinite (lane (s.cur.vreg a) l) → NearestCode (tableOf s) (lane (s.cur.vreg a) l) r.toNat))

/-- R430, R172: VCMP writes a mask register, with 0 for the lanes that are not guarded; k0 is never written. -/
def Sys2Proof.Says.LaneComparison : Prop :=
  ∀ s : State, s.frame < 11 → ∀ (f : BitVec 4) (t k m : BitVec 3) (b a : BitVec 5), f.toNat ≤ 5 → t.toNat ≤ 2 →
    ∃ u, exec (.vcmp f t k b a m) s = .next u ∧ Elsewhere s u ∧ { u.cur with k := s.cur.k, pc := s.cur.pc } = s.cur ∧
      PcPast 4 s u ∧ (∀ q, q ≠ m → u.cur.mask q = s.cur.mask q) ∧
      (m ≠ 0 → ∀ l, l < 32 → ((u.cur.mask m).getLsbD l = true ↔
        Guarded s k l ∧ Compares f t (lane (s.cur.vreg a) l) (lane (s.cur.vreg b) l)))

/-- R439, R172: VRED over the guarded lanes: integer sums and extremes; f32 with no lane, and a fold in ascending order. The result is
sign-extended for s32 and zero-extended otherwise.
The f32 fold starts from the first guarded lane: the model's choice of log 95. -/
def Sys2Proof.Says.LaneReduction : Prop :=
  ∀ s : State, s.frame < 11 → ∀ (k : BitVec 3) (a d : BitVec 5) (ls : List Nat),
    (∀ l, l ∈ ls ↔ l < 32 ∧ Guarded s k l) → ls.Pairwise (· < ·) →
    (∀ f : BitVec 4, f.toNat ≤ 2 →
      (∃ r, Reduces f 1 (ls.map (lane (s.cur.vreg a))) r ∧ WritesG (.vred f 1 k a d) s d (r.signExtend 64) 4) ∧
      (∃ r, Reduces f 2 (ls.map (lane (s.cur.vreg a))) r ∧ WritesG (.vred f 2 k a d) s d (r.setWidth 64) 4)) ∧
    (ls = [] → WritesG (.vred 0 0 k a d) s d 0 4 ∧ WritesG (.vred 1 0 k a d) s d 0x7F800000 4 ∧
      WritesG (.vred 2 0 k a d) s d 0xFF800000 4) ∧
    (∀ l ls', ls = l :: ls' → ¬ IsNan (lane (s.cur.vreg a) l) →
      WritesG (.vred 0 0 k a d) s d
        ((ls'.foldl (fun r j => BitVec.ofNat 32 (f32.round .rne false ((fpOf r).add (fpOf (lane (s.cur.vreg a) j)))))
          (lane (s.cur.vreg a) l)).setWidth 64) 4 ∧
      WritesG (.vred 1 0 k a d) s d
        ((ls'.foldl (fun r j => minF r (lane (s.cur.vreg a) j)) (lane (s.cur.vreg a) l)).setWidth 64) 4 ∧
      WritesG (.vred 2 0 k a d) s d
        ((ls'.foldl (fun r j => maxF r (lane (s.cur.vreg a) j)) (lane (s.cur.vreg a) l)).setWidth 64) 4)

/-- R437, R436, R55: vector loads of near elements: contiguous, strided, gathered. -/
def Sys2Proof.Says.VectorLoads : Prop :=
  ∀ s : State, s.frame < 11 → ∀ (k : BitVec 3) (z : BitVec 2) (g i d : BitVec 5) (c : BitVec 4), z.toNat < 3 →
    LoadsLanes (.vld k z 0 c d) s (s.cur.cap c) (2 ^ z.toNat) k d (fun l => (l : Int) * 2 ^ z.toNat) ∧
    (g ≠ 0 → LoadsLanes (.vld k z g c d) s (s.cur.cap c) (2 ^ z.toNat) k d (fun l => (l : Int) * (s.cur.gpr g).toInt)) ∧
    LoadsLanes (.vgath k z i c d) s (s.cur.cap c) (2 ^ z.toNat) k d
      (fun l => ((lane (s.cur.vreg i) l).toNat : Int) * 2 ^ z.toNat)

/-- R437, R436, R451: vector stores of near elements enter the store buffer in ascending lane order, and wait there for room
one by one where it has less. -/
def Sys2Proof.Says.VectorStores : Prop :=
  ∀ s : State, s.frame < 11 → ∀ (k : BitVec 3) (z : BitVec 2) (g i d : BitVec 5) (c : BitVec 4), z.toNat < 3 →
    StoresLanes (.vst k z 0 c d) s (s.cur.cap c) (2 ^ z.toNat) k d (fun l => (l : Int) * 2 ^ z.toNat) ∧
    (g ≠ 0 → StoresLanes (.vst k z g c d) s (s.cur.cap c) (2 ^ z.toNat) k d (fun l => (l : Int) * (s.cur.gpr g).toInt)) ∧
    StoresLanes (.vscat k z i c d) s (s.cur.cap c) (2 ^ z.toNat) k d
      (fun l => ((lane (s.cur.vreg i) l).toNat : Int) * 2 ^ z.toNat)

/-- Vector arithmetic in the integer and the float lane types. -/
def Obligations.VectorArithmetic : Prop :=
  Sys2Proof.Says.IntegerLanes ∧ Sys2Proof.Says.FloatLanes

/-- Vector comparison and reduction (the f32 fold starts from the first guarded lane: log 95). -/
def Obligations.LaneComparisonAndReduction : Prop :=
  Sys2Proof.Says.LaneComparison ∧ Sys2Proof.Says.LaneReduction

/-- Vector loads, gathers, stores and scatters. -/
def Obligations.VectorMemory : Prop :=
  Sys2Proof.Says.VectorLoads ∧ Sys2Proof.Says.VectorStores

namespace Sys2Proof.Says

/-- A barrier's fields (R200). -/
structure Bar where
  pend  : Nat
  arr   : Nat
  exp   : Nat
  phase : Nat
  err   : Nat

/-- The fields of the low twelve bytes of a barrier at an address. -/
def barAt (m : List Host.Cell) (a : Nat) : Bar :=
  let w := leNat (memBytes m a 12)
  ⟨w % 2 ^ 48, w / 2 ^ 48 % 2 ^ 16, w / 2 ^ 64 % 2 ^ 16, w / 2 ^ 80 % 2, w / 2 ^ 88 % 2 ^ 8⟩

def Bar.complete (b : Bar) : Prop := b.pend = 0 ∧ b.arr = b.exp

/-- PEND and ERR after bytes are taken away: UND where there are too few (R201). -/
def TakesBytes (n : Nat) (b : Bar) (pend err : Nat) : Prop :=
  (n ≤ b.pend → pend = b.pend - n ∧ err = b.err) ∧ (b.pend < n → pend = 0 ∧ err = b.err ||| 2)

/-- An update at the home (R200, R201, R335), the phase included, which flips where the barrier becomes complete. -/
def BarNext (u : BarUpd) (b c : Bar) : Prop :=
  match u with
  | .init n => c.pend = 0 ∧ c.arr = 0 ∧ c.exp = n % 2 ^ 16 ∧ c.phase = 0 ∧ c.err = 0
  | .add n => c.exp = b.exp ∧ c.arr = b.arr ∧ c.phase = b.phase ∧
      (b.pend + n < 2 ^ 48 → c.pend = b.pend + n ∧ c.err = b.err) ∧
      (2 ^ 48 ≤ b.pend + n → c.pend = 2 ^ 48 - 1 ∧ c.err = b.err ||| 4)
  | .sub n => c.exp = b.exp ∧ c.arr = b.arr ∧ TakesBytes n b c.pend c.err ∧
      (b.complete ∨ ¬ c.complete → c.phase = b.phase) ∧ (¬ b.complete → c.complete → c.phase = 1 - b.phase)
  | .arrive => c.exp = b.exp ∧ c.pend = b.pend ∧
      (b.arr = b.exp → c.arr = b.arr ∧ c.err = b.err ||| 1) ∧ (b.arr < b.exp → c.arr = b.arr + 1 ∧ c.err = b.err) ∧
      (b.complete ∨ ¬ c.complete → c.phase = b.phase) ∧ (¬ b.complete → c.complete → c.phase = 1 - b.phase)
  | .abortArrive n => c.exp = b.exp ∧ (∃ e, TakesBytes n b c.pend e ∧
      (b.arr = b.exp → c.arr = b.arr ∧ c.err = e ||| 8 ||| 1) ∧ (b.arr < b.exp → c.arr = b.arr + 1 ∧ c.err = e ||| 8)) ∧
      (b.complete ∨ ¬ c.complete → c.phase = b.phase) ∧ (¬ b.complete → c.complete → c.phase = 1 - b.phase)
  | .err _ => c.exp = b.exp ∧ c.arr = b.arr ∧ c.pend = b.pend ∧ c.phase = b.phase

/-- The state after an update of the barrier at an address: its fields follow R201 and every other byte stands. -/
def Updates (u : BarUpd) (addr : Nat) (s t : State) : Prop :=
  BarNext u (barAt s.mem addr) (barAt t.mem addr) ∧
    ∀ x, ¬ (addr ≤ x ∧ x < addr + 12) → memGet t.mem x = memGet s.mem x

/-- The instruction i updates a barrier whose home is the frame's own core, and its frame goes on. -/
def UpdatesHere (i : Instr) (s : State) (u : BarUpd) (addr : Nat) : Prop :=
  ∃ t, exec i s = .next t ∧ Updates u addr s t ∧ PcPast 4 s t ∧ { t.cur with pc := s.cur.pc } = s.cur

/-- The capability c names the barrier at offset off of the object o, which every check of R334 passes; home is its home
core. -/
def BarrierAt (s : State) (c : Cap) (o : Desc) (off home : Nat) : Prop := s.barCheck c = .ok (o, off, home)

/-- Nothing has changed but that the current frame has parked. -/
def Parks (p : Park) (s t : State) : Prop :=
  Elsewhere s t ∧ t.cur.state = .parked ∧ t.cur.park = some p ∧
    { t.cur with state := s.cur.state, park := s.cur.park, wait := s.cur.wait } = s.cur

/-- No heave-to stands in the way of parking. -/
def MayPark (s : State) : Prop := s.frame = 10 ∨ s.heavePending s.core = false

end Sys2Proof.Says

/-- R200, R201, R334 to R336, R286: barrier updates at the frame's own core, the checks before them, and the updates that a home
performs for others; one that meets an uncorrectable error writes nothing. -/
def Sys2Proof.Says.BarrierUpdates : Prop :=
  ∀ s : State, memWf s.mem = true →
    (∀ k oid off addr u, s.barAddr k oid off = some addr → (∀ b, u ≠ .err b) →
      (s.badAt addr 12 = none → (barAt s.mem addr).arr ≤ (barAt s.mem addr).exp →
        ∃ t, exec (.barrierUpdate k oid off u) s = .next t ∧ Updates u addr s t) ∧
      (s.badAt addr 12 ≠ none → ∃ t, exec (.barrierUpdate k oid off u) s = .next t ∧ SameBytes s t)) ∧
    (s.frame < 11 → s.cur.park = none → ∀ (a : BitVec 5) (c : BitVec 4) o off home addr,
      BarrierAt s (s.cur.cap c) o off home → home = s.coreid s.core → s.barAddr (s.ctxOf s.core) o.oid off = some addr →
      s.badAt addr 12 = none → (barAt s.mem addr).arr ≤ (barAt s.mem addr).exp →
      ((s.cur.gpr a).toNat < 2 ^ 16 → UpdatesHere (.barinit a c) s (.init (s.cur.gpr a).toNat) addr) ∧
      (s.cur.acked 4 = true → s.buffered s.core s.frame = false →
        UpdatesHere (.bararr c) s .arrive addr ∧
        ((s.cur.gpr a).toNat < 2 ^ 48 → UpdatesHere (.barpend a c) s (.add (s.cur.gpr a).toNat) addr))) ∧
    (TrapsFree s.core s.frame s → ∀ (a : BitVec 5) (c : BitVec 4),
      ChecksAccess (.barinit a c) s (s.cur.cap c) 0 32 32 3 [4] ∧ ChecksAccess (.bararr c) s (s.cur.cap c) 0 32 32 3 [4] ∧
      ChecksAccess (.barpend a c) s (s.cur.cap c) 0 32 32 3 [4] ∧ ChecksAccess (.barwait c a) s (s.cur.cap c) 0 32 32 3 [4] ∧
      (∀ o off home, BarrierAt s (s.cur.cap c) o off home →
        (2 ^ 16 ≤ (s.cur.gpr a).toNat → Traps (.barinit a c) s ILLEGAL (s.cur.gpr a)) ∧
        (2 ^ 48 ≤ (s.cur.gpr a).toNat → Traps (.barpend a c) s ILLEGAL (s.cur.gpr a))))

/-- R203, R335, R204: BARWAIT and BARANY of barriers of this device: the result at once where one is complete, otherwise the frame
parks; BARANY begins at BARROT and moves it on. -/
def Obligations.BarrierWaits : Prop :=
  ∀ s : State, s.frame < 11 →
    (∀ (c : BitVec 4) (d : BitVec 5) o off home addr, BarrierAt s (s.cur.cap c) o off home → s.far o = false →
      s.barSettled home = .ok () → s.barAddr (s.ctxOf s.core) o.oid off = some addr → s.badAt addr 12 = none →
      ((barAt s.mem addr).complete → WritesG (.barwait c d) s d (BitVec.ofNat 64 (barAt s.mem addr).err) 4) ∧
      (¬ (barAt s.mem addr).complete → MayPark s →
        ∃ t, exec (.barwait c d) s = .next t ∧ Parks (.barrier d false [⟨0, o.oid, off, home, none⟩]) s t)) ∧
    (∀ (m : BitVec 8) (d : BitVec 5) (o : Nat → Desc) (off home addr : Nat → Nat), s.cur.park = none →
      (∀ i, i < 8 → m.getLsbD i = true → BarrierAt s (s.cur.cap (BitVec.ofNat 4 (8 + i))) (o i) (off i) (home i) ∧
        s.far (o i) = false ∧ s.barSettled (home i) = .ok () ∧ s.barAddr (s.ctxOf s.core) (o i).oid (off i) = some (addr i) ∧
        s.badAt (addr i) 12 = none) →
      (∀ n, n < 8 → m.getLsbD n = true → (barAt s.mem (addr n)).complete →
        (∀ j, j < 8 → m.getLsbD j = true → (barAt s.mem (addr j)).complete →
          (n + 8 - s.cur.barrot.toNat % 8) % 8 ≤ (j + 8 - s.cur.barrot.toNat % 8) % 8) →
        ∃ t, exec (.barany m d) s = .next t ∧ Elsewhere s t ∧ PcPast 4 s t ∧
          (d ≠ 0 → (t.cur.gpr d).toNat = n + (if (barAt s.mem (addr n)).err = 0 then 0 else 8)) ∧
          t.cur.barrot.toNat = (n + 1) % 8 ∧
          { t.cur with g := s.cur.g, barrot := s.cur.barrot, pc := s.cur.pc } = s.cur ∧ ∀ r, r ≠ d → t.cur.gpr r = s.cur.gpr r) ∧
      ((∀ j, j < 8 → m.getLsbD j = true → ¬ (barAt s.mem (addr j)).complete) → MayPark s →
        ∃ t bars, exec (.barany m d) s = .next t ∧ Parks (.barrier d true bars) s t ∧
          ∀ b, b ∈ bars ↔ ∃ i, i < 8 ∧ m.getLsbD i = true ∧ b = ⟨i, (o i).oid, off i, home i, none⟩))

/-- R201, R203, R70: the update that completes a barrier makes a frame parked in BARWAIT at it READY behind its instruction, with
ERR in its register. -/
def Sys2Proof.Says.BarrierCompletionResumes : Prop :=
  ∀ (s : State) (k n f : Nat) (oid : BitVec 40) (off addr home : Nat) (u : BarUpd) (d : BitVec 5), f < 11 → memWf s.mem = true →
    s.barAddr k oid off = some addr → s.badAt addr 12 = none → (n, f) ∈ s.framesOf k → (s.frameAt n f).saved = none →
    (s.frameAt n f).park = some (.barrier d false [⟨0, oid, off, home, none⟩]) →
    ¬ (barAt s.mem addr).complete → (barAt s.mem addr).arr ≤ (barAt s.mem addr).exp → (∀ b, u ≠ .err b) →
    ∃ t, exec (.barrierUpdate k oid off u) s = .next t ∧
      ((barAt t.mem addr).complete →
        (t.frameAt n f).state = .ready ∧ (t.frameAt n f).park = none ∧ (t.frameAt n f).pc = (s.frameAt n f).pc + 4 ∧
        (d ≠ 0 → (t.frameAt n f).gpr d = BitVec.ofNat 64 (barAt t.mem addr).err)) ∧
      (¬ (barAt t.mem addr).complete → t.frameAt n f = s.frameAt n f)

/-- R126, R125, R395, R60, R398, R84: fences, once what they wait for is there, and no-operations change the pc alone, but that a release
fence holds the frame's later stores behind its buffered ones; a full or release fence waits in place before that, and for all
memories has the PCI Express writes flushed; PAUSE makes the frame READY for another to run. -/
def Sys2Proof.Says.FencesAndPauses : Prop :=
  ∀ s : State, s.frame < 11 → ∀ c : BitVec 3,
    Passes .nop s 2 ∧ Passes .nop32 s 4 ∧ Passes (.fenceAcq c) s 4 ∧
    (s.cur.acked (max c.toNat 4) = true → s.buffered s.core s.frame = false → Passes (.fence c) s 4) ∧
    (s.cur.acked (max c.toNat 4) = true → ∃ t, exec (.fenceRel c) s = .next t ∧ Elsewhere s t ∧ PcPast 4 s t ∧
      t.cur.relStores = (s.cur.relStores || s.buffered s.core s.frame) ∧
      { t.cur with pc := s.cur.pc, relStores := s.cur.relStores } = s.cur) ∧
    (∀ p ∈ [(Instr.fence c, Wait.release (max c.toNat 4), s.cur.acked (max c.toNat 4) && !s.buffered s.core s.frame),
        (.fenceRel c, .acks (max c.toNat 4), s.cur.acked (max c.toNat 4))], p.2.2 = false →
      ∃ t, exec p.1 s = .next t ∧ Elsewhere s { t with outbox := s.outbox } ∧ t.cur.wait = some p.2.1 ∧
        t.outbox = s.outbox ++ (if c = 7 then [.flush s.core s.frame] else []) ∧
        { t.cur with wait := s.cur.wait, state := s.cur.state } = s.cur) ∧
    (∃ t, exec .pause s = .next t ∧ Elsewhere s t ∧ PcPast 4 s t ∧ t.cur.state = .ready ∧ t.cur.ready = s.ftime ∧
      t.cur.pauseTo = s.cycles + 64 ∧
      { t.cur with pc := s.cur.pc, state := s.cur.state, ready := s.cur.ready, pauseTo := s.cur.pauseTo } = s.cur)

/-- R90, R88: HBAR of an enrolled core arrives, once in an episode, and parks; a core that is not enrolled raises PRIV. When every
enrolled core has arrived, the frames parked in the episode resume and the next episode starts. -/
def Sys2Proof.Says.HardwareBarriers : Prop :=
  ∀ s : State, ∀ (i : BitVec 4) (c : BitVec 3) (k : HbarKey),
    k = ⟨c.toNat, scopeInstance c.toNat s.core, i.toNat⟩ →
    (s.frame < 11 → MayPark s → ∀ x, s.hbarAt k = some x → s.core ∈ x.cores → s.cur.acked (max c.toNat 4) = true →
      s.buffered s.core s.frame = false →
      ∃ t y, exec (.hbar i c) s = .next t ∧ t.hbarAt k = some y ∧ y.cores = x.cores ∧ y.devices = x.devices ∧
        (∀ n, n ∈ y.arrived ↔ n ∈ x.arrived ∨ n = s.core) ∧ (∀ q, q ≠ k → t.hbarAt q = s.hbarAt q) ∧
        t.cur.state = .parked ∧ t.cur.park = some (.hbar k) ∧ t.cur.pc = s.cur.pc ∧ SameBytes s t) ∧
    (TrapsFree s.core s.frame s → (∀ x, s.hbarAt k = some x → s.core ∉ x.cores) → Traps (.hbar i c) s PRIV 0) ∧
    (∀ x, s.hbarAt k = some x → x.cores ≠ [] → (∀ n, n ∈ x.cores → n ∈ x.arrived) →
      ∃ t, exec (.hbarEpisodeComplete k) s = .next t ∧ t.hbarAt k = some { x with arrived := [] } ∧ SameBytes s t ∧
        ∀ n f, f < 11 → (n, f) ∈ s.allFrames → s.keeper n = none →
          ((s.frameAt n f).park ≠ some (.hbar k) → t.frameAt n f = s.frameAt n f) ∧
          ((s.frameAt n f).park = some (.hbar k) → (s.frameAt n f).saved = none →
            (t.frameAt n f).state = .ready ∧ (t.frameAt n f).park = none ∧ (t.frameAt n f).pc = (s.frameAt n f).pc + 4)) ∧
    (∀ pos ds, k.sc = 6 → k.inst = 0 → (look s.declared pos).isSome → (∃ x, s.hbarAt k = some x ∧ pos ∈ x.devices ∧
        ds = x.devices.filter (· ≠ pos) ∧ ¬ (∀ n, n ∈ x.cores → n ∈ x.arrived)) →
      ∃ t x, exec (.hbarEnrolRemove k.id pos) s = .next t ∧ s.hbarAt k = some x ∧
        t.hbarAt k = some { x with devices := ds } ∧ ∀ n, t.coreAt n = s.coreAt n)

/-- R443, R398: WAITA on a dword of the frame's own TCM: status 0 at once where the dword in the memory differs from the register;
otherwise the frame parks with a monitor entry, and 1 ms later resumes with status 1; one that found no entry resumes with status 2 after
1 µs. The frame's own buffered stores to the dword are performed before it is read (log 106). A frame that PAUSE holds competes again
after 64 cycles. -/
def Obligations.WaitOnAddress : Prop :=
  ∀ s : State, s.frame < 11 →
    (∀ (e d : BitVec 5) (c : BitVec 4) o a addr, Passed s (s.cur.cap c) 0 8 8 1 [1] false o a →
      o.tier = 0 → o.hb = false → o.pw = false → o.pageReg = false → o.whole = none → s.far o = false →
      s.stalled s.core o.oid a (a + 8) = false → addr = tcmAddr s.core (o.pmap + a) → addrExists addr = true →
      s.badAt addr 8 = none →
      (s.ownBuffered s.core s.frame addr 8 = true →
        ∃ t, exec (.waita e c d) s = .next t ∧ t.cur.wait = some (.drained addr 8) ∧ t.cur.pc = s.cur.pc ∧ SameBytes s t) ∧
      (s.ownBuffered s.core s.frame addr 8 = false → leNat (memBytes s.mem addr 8) ≠ (s.cur.gpr e).toNat →
        WritesG (.waita e c d) s d 0 4) ∧
      (s.ownBuffered s.core s.frame addr 8 = false → leNat (memBytes s.mem addr 8) = (s.cur.gpr e).toNat → MayPark s →
        (s.clusterAt (clusterOf s.core)).monitors.length < 64 →
        ∃ t, exec (.waita e c d) s = .next t ∧ t.cur.state = .parked ∧ t.cur.pc = s.cur.pc ∧ SameBytes s t ∧
          t.cur.park = some (.waita d (s.cur.gpr e) addr false s.ftime) ∧
          (t.clusterAt (clusterOf s.core)).monitors = (s.clusterAt (clusterOf s.core)).monitors ++ [(s.core, s.frame)])) ∧
    (∀ n f d x a since, f < 11 → (s.frameAt n f).saved = none →
      ((s.frameAt n f).park = some (.waita d x a false since) → since + 1000000 ≤ s.ftime → leNat (s.plain (s.ctxOf n) a 8) = x.toNat →
        ∃ t, exec (.waitaTimeout n f) s = .next t ∧ (t.frameAt n f).state = .ready ∧ (t.frameAt n f).park = none ∧
          (d ≠ 0 → (t.frameAt n f).gpr d = 1) ∧ (t.frameAt n f).pc = (s.frameAt n f).pc + 4 ∧
          (n, f) ∉ (t.clusterAt (clusterOf n)).monitors) ∧
      ((s.frameAt n f).park = some (.waita d x a true since) → since + 1000 ≤ s.ftime →
        ∃ t, exec (.waitaFullExpiry n f) s = .next t ∧ (t.frameAt n f).state = .ready ∧ (t.frameAt n f).park = none ∧
          (d ≠ 0 → (t.frameAt n f).gpr d = 2) ∧ (t.frameAt n f).pc = (s.frameAt n f).pc + 4) ∧
      ((s.frameAt n f).pauseTo ≤ s.cycles →
        ∃ t, exec (.pauseExpiry n f) s = .next t ∧ t.frameAt n f = { s.frameAt n f with pauseTo := 0 } ∧ SameBytes s t))

/-- Barrier registers: updates, and what a completed episode wakes. -/
def Obligations.BarrierUpdatesAndCompletion : Prop :=
  Sys2Proof.Says.BarrierUpdates ∧ Sys2Proof.Says.BarrierCompletionResumes

/-- R426, R341, R268, R367, R64, R267: TRAP, BKPT, a privileged instruction outside the supervisor frame and an unlisted pattern trap;
in the supervisor frame TRAP and BKPT act as NOP. -/
def Sys2Proof.Says.TrapsAndPrivilege : Prop :=
  ∀ s : State, ∀ (i : BitVec 16) (e : Word),
    (TrapsFree s.core s.frame s → Traps (.trap i) s TRAPCODE (i.setWidth 64) ∧ Traps .bkpt s BKPTCODE 0 ∧
      Traps .eret s PRIV 0 ∧ Traps .halt s PRIV 0 ∧ Traps (.illegal e) s ILLEGAL e) ∧
    (s.frame = 10 → Passes (.trap i) s 4 ∧ Passes .bkpt s 4)

namespace Sys2Proof.Says

/-- The supervisor frame of core n has taken a machine event (R265, R267). -/
structure EventTaken (n : Nat) (link : Bool) (eval : Word) (frame : Nat) (s t : State) : Prop where
  epc    : (t.coreAt n).epc = 0
  ecause : (t.coreAt n).ecause = if link then 0x14 else 0x13
  eval   : (t.coreAt n).eval = eval
  tframe : bitsOf (t.coreAt n).sstatus.toNat 19 16 = frame
  bits   : (t.coreAt n).sstatus.getLsbD 0 = false ∧ (t.coreAt n).sstatus.getLsbD 1 = false
  busy   : (t.coreAt n).handling = true
  ready  : (t.frameAt n 10).state = .ready
  vector : (t.frameAt n 10).pc = s.kernelVector
  bytes  : SameBytes s t
  others : ∀ m, m ≠ n → t.coreAt m = s.coreAt m

end Sys2Proof.Says

/-- R267 steps 2 to 4, R286: a supervisor frame that is free takes the trap of the least frame number first, and a machine event only
when no trap waits; one that is handling leaves them waiting. TFRAME of an event that an error in a frame's registers makes is that frame
(log 56). -/
def Obligations.TrapOrder : Prop :=
  ∀ (s : State) (n : Nat),
    (∀ f tr, f < 11 → (s.coreAt n).handling = false → (s.frameAt n f).trap = some tr → tr.taken = false →
      tr.later = false → (s.frameAt n f).wait = none →
      (∀ g, g < f → (s.frameAt n g).trap = none) →
      ∃ t, exec (.trapEntry n) s = .next t ∧ TrapTaken n f tr.cause tr.eval s t ∧ (t.coreAt n).events = (s.coreAt n).events) ∧
    (∀ e, (∀ g, g < 11 → (s.frameAt n g).trap = none) → (s.coreAt n).handling = false → (s.coreAt n).events = [] →
      ∀ src, ∃ t, exec (.machineEvent n src e) s = .next t ∧ EventTaken n (decide (src = .poison)) e (frameOf src) s t ∧
        (t.coreAt n).events = []) ∧
    (∀ ev es, (∀ g, g < 11 → (s.frameAt n g).trap = none) → (s.coreAt n).handling = false → ev.frame < 16 →
      (s.coreAt n).events = ev :: es →
      ∃ t, exec (.trapEntry n) s = .next t ∧ EventTaken n ev.link ev.eval ev.frame s t ∧ (t.coreAt n).events = es) ∧
    ((s.coreAt n).busy = true → exec (.trapEntry n) s = .next s ∧ ∀ src e,
      ∃ t, exec (.machineEvent n src e) s = .next t ∧
        (t.coreAt n).events = (s.coreAt n).events ++ [⟨decide (src = .poison), e, frameOf src⟩] ∧
        (t.coreAt n).epc = (s.coreAt n).epc ∧ (t.coreAt n).ecause = (s.coreAt n).ecause ∧ (t.coreAt n).eval = (s.coreAt n).eval ∧
        (t.coreAt n).sstatus = (s.coreAt n).sstatus ∧ ∀ f, t.frameAt n f = s.frameAt n f)

/-- Nothing waits for the supervisor frame of core n: no machine event, and no trap of a tenant's frame that it can take. -/
def NoTrapWaits (s : State) (n : Nat) : Prop :=
  (s.coreAt n).events = [] ∧ ∀ g tr, g < 10 → (s.frameAt n g).trap = some tr → tr.taken = true ∨ tr.later = true ∨
    endsFirst (s.frameAt n g).wait = true

/-- The supervisor frame of core n waits: it is FREE and handles nothing. -/
def SupervisorFree (n : Nat) (t : State) : Prop := (t.coreAt n).handling = false ∧ (t.frameAt n 10).state = .free

/-- R268: ERET resumes the trapped frame (a trap of the supervisor frame itself, whatever KILL is: log 15) at the place and version that
EPC names, one instruction further with SKIP, a PARKED one with a
new ready time; with KILL it ends the activation, once the frame's stores have drained. With nothing else to take, the supervisor
frame then waits; so it does where no trap is current. -/
def Sys2Proof.Says.EretReturns : Prop :=
  ∀ s : State, s.frame = 10 →
    (∀ (f : Nat) (tr : TrapRec), (s.coreAt s.core).handling = true →
      bitsOf (s.coreAt s.core).sstatus.toNat 19 16 = f → (s.frameAt s.core f).trap = some tr → tr.taken = true →
      (f = 10 ∨ (f < 10 ∧ (s.coreAt s.core).sstatus.getLsbD 1 = false) → ∃ t, exec .eret s = .next t ∧ SameBytes s t ∧
        (t.frameAt s.core f).ver = (s.coreAt s.core).epc.extractLsb' 56 8 ∧
        (t.frameAt s.core f).modid = (s.coreAt s.core).epc.extractLsb' 32 24 ∧
        { t.frameAt s.core f with
          ver := (s.frameAt s.core f).ver, modid := (s.frameAt s.core f).modid, pc := (s.frameAt s.core f).pc } =
          (s.frameAt s.core f).resumed s.ftime ∧
        ((s.coreAt s.core).sstatus.getLsbD 0 = false → (t.frameAt s.core f).pc = (s.coreAt s.core).epc.extractLsb' 0 32) ∧
        (∀ v b, f ≠ 10 → (s.coreAt s.core).sstatus.getLsbD 0 = true →
          (s.ctxAt (s.ctxOf s.core)).entered ((s.coreAt s.core).epc.extractLsb' 32 24) ((s.coreAt s.core).epc.extractLsb' 56 8) = some v →
          v.code[((s.coreAt s.core).epc.extractLsb' 0 32).toNat]? = some b →
          (t.frameAt s.core f).pc = (s.coreAt s.core).epc.extractLsb' 0 32 + (if b.getLsbD 0 then 4 else 2)) ∧
        (f < 10 → NoTrapWaits s s.core → SupervisorFree s.core t)) ∧
      (f < 10 → (s.coreAt s.core).sstatus.getLsbD 1 = true → ∃ t, exec .eret s = .next t ∧ (t.frameAt s.core f).trap = none ∧
        (s.buffered s.core f = false → (t.frameAt s.core f).state = .free ∧ (t.frameAt s.core f).act = none) ∧
        (s.buffered s.core f = true → ∃ e, (t.frameAt s.core f).wait = some (.ending e)))) ∧
    (s.currentTrap s.core = none → (s.coreAt s.core).sstatus.getLsbD 1 = false → NoTrapWaits s s.core →
      ∃ t, exec .eret s = .next t ∧ SupervisorFree s.core t ∧ (∀ f, f ≠ 10 → t.frameAt s.core f = s.frameAt s.core f) ∧
        (∀ n, n ≠ s.core → t.coreAt n = s.coreAt n) ∧ SameBytes s t)

/-- R270, R367: HALT in the supervisor frame, behind which it waits, FREE, for the next trap, machine event or ladder step; it changes
nothing else, and the current trap stays current. A trap or an event that waits already is taken at once. -/
def Sys2Proof.Says.HaltWaits : Prop :=
  ∀ s : State, s.frame = 10 → s.cur.trap = none →
    (NoTrapWaits s s.core → ∃ t, exec .halt s = .next t ∧ Elsewhere s t ∧ PcPast 4 s t ∧ t.cur.state = .free ∧
      t.cur.wait = some .halted ∧
      { t.cur with state := s.cur.state, wait := s.cur.wait, pc := s.cur.pc } = s.cur) ∧
    (∀ f tr, (s.coreAt s.core).pendingTrap = some (f, tr) →
      ∃ t, exec .halt s = .next t ∧ TrapTaken s.core f tr.cause tr.eval s t) ∧
    (∀ ev es, (s.coreAt s.core).pendingTrap = none → (s.coreAt s.core).events = ev :: es → ev.frame < 16 →
      ∃ t, exec .halt s = .next t ∧ EventTaken s.core ev.link ev.eval ev.frame s t ∧ (t.coreAt s.core).events = es)

/-- R274: FRESUME of a token: -2 for a memory-side token, -1 where the frame is not parked under that sequence number, -3 for an
action its state does not allow, and 0 for a frame it resumes: READY, before its instruction or behind it; or whose activation it
ends. -/
def Sys2Proof.Says.FresumeAnswers : Prop :=
  ∀ s : State, s.frame < 11 → ∀ (d : BitVec 5) (f act : Nat), let w := s.cur.gpr d
    w.toNat % 16 = f → w.toNat / 2 ^ 12 % 4 = act →
    (w.getLsbD 31 = true → WritesG (.fresume d) s d (-2) 4) ∧
    (w.getLsbD 31 = false → (10 < f ∨ (s.frameAt s.core f).faultSeq.toNat ≠ w.toNat / 2 ^ 32) → WritesG (.fresume d) s d (-1) 4) ∧
    (w.getLsbD 31 = false → f < 10 → (s.frameAt s.core f).faultSeq.toNat = w.toNat / 2 ^ 32 → (s.frameAt s.core f).saved = none →
      ((s.frameAt s.core f).state ≠ .parked → WritesG (.fresume d) s d (-1) 4) ∧
      (s.frame ≠ f → (s.frameAt s.core f).state = .parked →
        ((s.frameAt s.core f).park = some .fault → act ≠ 0 → WritesG (.fresume d) s d (-3) 4) ∧
        ((s.frameAt s.core f).park = some .fault ∨ (∃ c e, (s.frameAt s.core f).park = some (.trapped c e)) → act = 0 →
          ∃ t, exec (.fresume d) s = .next t ∧ (d = 0 ∨ t.cur.gpr d = 0) ∧ PcPast 4 s t ∧
            t.frameAt s.core f = { s.frameAt s.core f with state := .ready, ready := s.ftime, park := none } ∧ SameBytes s t) ∧
        (∀ c e, (s.frameAt s.core f).park = some (.trapped c e) →
          (act = 1 → ∃ t, exec (.fresume d) s = .next t ∧ (d = 0 ∨ t.cur.gpr d = 0) ∧ PcPast 4 s t ∧ SameBytes s t ∧
            t.frameAt s.core f = { (s.frameAt s.core f).advance (s.lengthHere s.core f) with
              state := .ready, ready := s.ftime, park := none }) ∧
          (act = 2 → s.buffered s.core f = false → (∀ a i l, (s.frameAt s.core f).act = some a → a.kind ≠ .converter i l) →
            ∃ t, exec (.fresume d) s = .next t ∧ (d = 0 ∨ t.cur.gpr d = 0) ∧ PcPast 4 s t ∧
            (t.frameAt s.core f).state = .free ∧ (t.frameAt s.core f).act = none) ∧
          (act = 3 → WritesG (.fresume d) s d (-3) 4))))

/-- R411, R281: SAFE acts as NOP unless the ladder is stopping the partition; then the frame stops behind it, to be READY at restore,
and a register that the live map of the point does not list reads zero. -/
def Sys2Proof.Says.SafePoints : Prop :=
  ∀ s : State, s.frame < 11 → ∀ i : BitVec 16,
    (s.frame = 10 ∨ s.heavePending s.core = false → Passes (.safe i) s 4) ∧
    (s.frame ≠ 10 → s.heavePending s.core = true →
      ∃ t, exec (.safe i) s = .next t ∧ Elsewhere s t ∧ PcPast 4 s t ∧ t.cur.state = .stopped ∧ t.cur.saved = some ⟨.ready, false⟩ ∧
        ∀ v m, s.versionOf s.core s.cur = some v → look v.lives i.toNat = some m →
          (∀ r, t.cur.gpr r = if m.1.getLsbD r.toNat then s.cur.gpr r else 0) ∧
          (∀ r, t.cur.vreg r = if m.2.1.getLsbD r.toNat then s.cur.vreg r else Vector.replicate 32 0) ∧
          (∀ r, t.cur.cap r = if m.2.2.1.getLsbD r.toNat then s.cur.cap r else Cap.null) ∧
          (∀ r, r ≠ 0 → t.cur.mask r = if m.2.2.2.getLsbD r.toNat then s.cur.mask r else 0))

/-- R68, R69: the frame that a core issues from: the supervisor frame first, then the urgent frames, then the normal ones; within a
class the earliest ready time, and the lower number where times are equal. -/
def Obligations.FrameChoice : Prop :=
  ∀ (s : State) (n : Nat),
    (∀ f, s.choose n = some f → f < 11 ∧ s.canIssue n f = true ∧
      (s.canIssue n 10 = true → f = 10) ∧
      (f < 8 → s.canIssue n 8 = false ∧ s.canIssue n 9 = false) ∧
      ∀ g, g < 10 → s.canIssue n g = true → f ≠ 10 → (g < 8 ↔ f < 8) →
        (s.frameAt n f).ready < (s.frameAt n g).ready ∨ (s.frameAt n f).ready = (s.frameAt n g).ready ∧ f ≤ g) ∧
    (s.choose n = none → ∀ g, g < 11 → s.canIssue n g = false) ∧
    (∀ f, s.canIssue n f = true → ((s.frameAt n f).state = .ready ∨ (s.frameAt n f).state = .running) ∧
      (f ≠ 10 → (s.frameAt n f).trap ≠ none ∨ s.halting n = true → endsFirst (s.frameAt n f).wait = true) ∧
      ((s.frameAt n f).pauseTo ≤ s.cycles ∨ f ≠ 10 ∧ ∀ g, g < 11 → g ≠ f → (s.frameAt n g).state ≠ .ready ∧
        ¬ ((s.frameAt n g).state = .running ∧ (s.frameAt n g).wait = none ∧ (s.frameAt n g).trap = none)))

namespace Sys2Proof.Says

/-- The bytes at the pc of frame f of core n decode to the instruction i, and no error stands in them. -/
structure Fetches (s : State) (n f : Nat) (i : Instr) : Prop where
  ok : ∃ code len, s.codeOf n f = some code ∧ (s.frameAt n f).pc.toNat + len ≤ code.length ∧
    decodeBytes ((code.drop (s.frameAt n f).pc.toNat).take len) = .ok (i, len)
  sound : ∀ b ∈ s.badCode, b.1 ≠ clusterOf n ∨ b.2.1 ≠ (s.frameAt n f).modid.toNat

end Sys2Proof.Says

/-- A step runs the decoded instruction (R32, R33, R68): when a core is to issue, frame f is the one it issues from and the bytes at f's pc
decode to i, the step is exec of i for that frame, RUNNING, followed by what follows every step. -/
def Obligations.StepRunsDecoded : Prop :=
  ∀ (s : State) (n f : Nat) (i : Instr), s.live = true → (f ≠ 10 ∨ s.kernelCode ≠ []) →
    (∀ ts, s.agenda = .issue n :: ts → ({ s with agenda := ts } : State).choose n = some f →
      Fetches (({ s with agenda := ts } : State).turnTo n f) n f i →
      step s = settled (exec i (({ s with agenda := ts } : State).turnTo n f))) ∧
    (s.agenda = [] → s.engineTurn = false → s.nextIssue = some (n, f) →
      Fetches (({ s with engineTurn := true } : State).turnTo n f) n f i →
      step s = settled (exec i (({ s with engineTurn := true } : State).turnTo n f)))

/-- R33, R63, R64, R160: a fetch at or beyond the end of the code raises ILLEGAL with EVAL all ones, a pattern that does not decode ILLEGAL
with the pattern, and a fetch from a version that is gone STRAGGLER, with EVAL VCTX by the model's reading (log 69). -/
def Sys2Proof.Says.FetchTraps : Prop :=
  ∀ (s : State) (n f : Nat) (ts : List Turn), s.live = true → s.agenda = .issue n :: ts →
    ({ s with agenda := ts } : State).choose n = some f → f ≠ 10 →
    (∀ code, s.codeOf n f = some code → (∀ b ∈ s.badCode, b.1 ≠ clusterOf n) →
      (code.length ≤ (s.frameAt n f).pc.toNat →
        step s = settled (exec (.illegal (BitVec.allOnes 64)) (({ s with agenda := ts } : State).turnTo n f))) ∧
      (∀ len e, (len = 2 ∨ len = 4) → (s.frameAt n f).pc.toNat + len ≤ code.length →
        (len = 4 ↔ (code.getD (s.frameAt n f).pc.toNat 0).getLsbD 0 = true) →
        decodeBytes ((code.drop (s.frameAt n f).pc.toNat).take len) = .error e →
        step s = settled (exec (.illegal (BitVec.ofNat 64 (leNat ((code.drop (s.frameAt n f).pc.toNat).take len))))
          (({ s with agenda := ts } : State).turnTo n f)))) ∧
    (s.codeOf n f = none →
      step s = settled (.next ((({ s with agenda := ts } : State).turnTo n f).raise n f STRAGGLER (s.vctx n f))))

/-- Fences, pauses, SAFE and the hardware barriers. -/
def Obligations.FencesSafePointsAndHardwareBarriers : Prop :=
  Sys2Proof.Says.FencesAndPauses ∧ Sys2Proof.Says.HardwareBarriers ∧ Sys2Proof.Says.SafePoints

/-- Instructions that trap by themselves, privileged ones in other frames, and the traps of fetching. -/
def Obligations.TrapsPrivilegeAndFetch : Prop :=
  Sys2Proof.Says.TrapsAndPrivilege ∧ Sys2Proof.Says.FetchTraps

/-- The supervisor's ERET, HALT and FRESUME. -/
def Obligations.SupervisorReturns : Prop :=
  Sys2Proof.Says.EretReturns ∧ Sys2Proof.Says.HaltWaits ∧ Sys2Proof.Says.FresumeAnswers

namespace Sys2Proof.Says

/-- The header and payload that SEND gives a message (R73, R412 to R414). -/
structure IsMessage (s : State) (x : Target) (e u : BitVec 1) (c : BitVec 8) (n : BitVec 3) (g : BitVec 5) (rq : Bool) (m : Msg) :
    Prop where
  kind    : m.host = false ∧ m.rq = rq ∧ m.u = decide (u = 1) ∧ m.dlv = decide (e = 1) ∧ m.sl = x.sl ∧ m.nw = n ∧ m.cls = c
  target  : m.objid = x.oid ∧ m.modid = x.modid ∧ m.stripe = BitVec.ofNat 20 x.stripe
  sender  : m.sender = BitVec.ofNat 22 (s.pos * 4096 + s.core)
  due     : m.deadline = if e = 1 then s.cur.dlnext else 0
  payload : m.payload.length = 8 ∧
    ∀ i, i < 8 → m.payload.getD i 0 = if i ≤ n.toNat then s.cur.gpr (g + BitVec.ofNat 5 i) else 0

end Sys2Proof.Says

namespace Sys2Proof.Says

/-- The current frame holds no reply slot and no queue entry for a SEND that it has begun before (R71, R72). -/
def HoldsNone (s : State) : Prop := s.cur.txSlot = none ∧ s.cur.txEntry = none

/-- SLOTSEQ of a reply slot of the frame's core. -/
def slotSeq (s : State) (i : Nat) : BitVec 16 := match look (s.coreAt s.core).slots i with | some p => p.seq | none => 0

/-- Frame f's stores in the buffer of the core. -/
def storesOf (s : State) : Nat := ((s.coreAt s.core).buffer.filter (fun p => decide (p.frame = s.frame))).length

end Sys2Proof.Says

/-- R414, R73, R75, R126: SEND to a core of this device whose queue has room, once the frame's earlier accesses are performed: without a
reply the message is on its way, or stays behind the frame's buffered stores, and the frame goes on; with one, and no stores before it,
the frame parks on a free reply slot (the lowest, which the model chooses: log 79), whose SLOTSEQ is one higher. With T = 1 the first
payload register gets 0. -/
def Sys2Proof.Says.SendLeaves : Prop :=
  ∀ s : State, s.frame < 11 → HoldsNone s →
    ∀ (t e u : BitVec 1) (c : BitVec 8) (n : BitVec 3) (g : BitVec 5) (k : BitVec 4) (x : Target) (dst : Nat),
    s.sendTarget s.core (s.cur.cap k) = .ok x → x.dest = .core dst → 0 < s.roomAt dst (decide (u = 1)) → s.cur.acked 6 = true →
    (storesOf s = 0 →
      ∃ r m, exec (.send t e 0 u c n g k) s = .next r ∧ r.inflight = s.inflight ++ [.messageArrival dst m .here] ∧
        IsMessage s x e u c n g false m ∧ OnlyG g s { r with inflight := s.inflight } ∧ PcPast 4 s r ∧
        r.cur.gpr g = if t = 1 then 0 else s.cur.gpr g) ∧
    (0 < storesOf s →
      ∃ r m, exec (.send t e 0 u c n g k) s = .next r ∧ r.inflight = s.inflight ∧ r.outbox = s.outbox ∧
        (r.coreAt s.core).outgoing = (s.coreAt s.core).outgoing ++ [⟨s.frame, storesOf s, .core dst, m⟩] ∧
        IsMessage s x e u c n g false m ∧ PcPast 4 s r ∧ r.cur.gpr g = (if t = 1 then 0 else s.cur.gpr g) ∧
        (∀ q, q ≠ g → r.cur.gpr q = s.cur.gpr q) ∧ SameBytes s r) ∧
    (∀ i, s.buffered s.core s.frame = false → (s.coreAt s.core).freeSlot = some i → MayPark s →
      ∃ r m q, exec (.send t e 1 u c n g k) s = .next r ∧ r.inflight = s.inflight ++ [.messageArrival dst m .here] ∧
        IsMessage s x e u c n g true m ∧ m.slot = BitVec.ofNat 6 i ∧ m.slotseq = q.seq ∧
        look (r.coreAt s.core).slots i = some q ∧ q.busy = true ∧ q.frame = s.frame ∧ q.seq = slotSeq s i + 1 ∧
        r.cur.state = .parked ∧ r.cur.park = some (.reply i g n) ∧ r.cur.pc = s.cur.pc ∧
        r.cur.gpr g = (if t = 1 then 0 else s.cur.gpr g) ∧ (∀ q, q ≠ g → r.cur.gpr q = s.cur.gpr q) ∧ SameBytes s r)

/-- R414, R75: SEND answers a status and sends nothing: the first payload register takes it, and nothing else changes, but that with RQ = 1
the slot that was taken and is free again has moved its SLOTSEQ on. -/
def Sys2Proof.Says.SendsNone (i : Instr) (s : State) (q : BitVec 1) (g : BitVec 5) (v : Word) : Prop :=
  (q = 0 → WritesG i s g v 4) ∧
  (q = 1 → ∀ j, (s.coreAt s.core).freeSlot = some j →
    ∃ r, exec i s = .next r ∧ r.cur.gpr g = (if g = 0 then 0 else v) ∧ (∀ x, x ≠ g → r.cur.gpr x = s.cur.gpr x) ∧ PcPast 4 s r ∧
      r.inflight = s.inflight ∧ r.outbox = s.outbox ∧ SameBytes s r ∧ HoldsNone r ∧
      (∀ x, x ≠ j → look (r.coreAt s.core).slots x = look (s.coreAt s.core).slots x) ∧
      (look (r.coreAt s.core).slots j).map (fun p => (p.busy, p.seq)) = some (false, slotSeq s j + 1))

/-- R70, R71, R414: a SEND that wants an entry parks with reason CREDIT; with RQ = 1 it keeps the reply slot that it has taken. -/
def Sys2Proof.Says.SendParks (i : Instr) (s : State) (q : BitVec 1) (w : Credit) : Prop :=
  (q = 0 → ∃ r, exec i s = .next r ∧ Parks (.credit w) s r) ∧
  (q = 1 → ∀ j, (s.coreAt s.core).freeSlot = some j →
    ∃ r p, exec i s = .next r ∧ r.cur.state = .parked ∧ r.cur.park = some (.credit w) ∧ r.cur.txSlot = some (j, slotSeq s j + 1) ∧
      look (r.coreAt s.core).slots j = some p ∧ p.busy = true ∧ p.seq = slotSeq s j + 1 ∧ p.frame = s.frame ∧
      { r.cur with state := s.cur.state, park := s.cur.park, wait := s.cur.wait, txSlot := s.cur.txSlot } = s.cur ∧
      r.inflight = s.inflight ∧ r.outbox = s.outbox ∧ SameBytes s r)

/-- R414, R412, R74, R416: what SEND does where it sends nothing: the checks of its target, the answers -1, -2 and -3 of a SEND with
T = 1, and the parking or trap of one without. -/
def Sys2Proof.Says.SendAnswers : Prop :=
  ∀ s : State, s.frame < 11 → ∀ (t e q u : BitVec 1) (c : BitVec 8) (n : BitVec 3) (g : BitVec 5) (k : BitVec 4),
    (TrapsFree s.core s.frame s →
      ((s.cur.cap k).tag = false → Traps (.send t e q u c n g k) s CAPTAG 0) ∧
      ((s.cur.cap k).tag = true → (s.cur.cap k).kind ∉ [(1 : BitVec 8), 2] → Traps (.send t e q u c n g k) s CAPKIND 0) ∧
      ((s.cur.cap k).tag = true → (s.cur.cap k).kind ∈ [(1 : BitVec 8), 2] → (s.cur.cap k).rights.getLsbD 2 = false →
        Traps (.send t e q u c n g k) s CAPRIGHT 4)) ∧
    ∀ x, s.sendTarget s.core (s.cur.cap k) = .ok x → HoldsNone s →
      ((s.coreAt s.core).freeSlot = none →
        WritesG (.send 1 e 1 u c n g k) s g (-2) 4 ∧
        (MayPark s → ∃ r, exec (.send 0 e 1 u c n g k) s = .next r ∧ Parks (.credit .slot) s r)) ∧
      (q = 0 ∨ (s.coreAt s.core).freeSlot ≠ none →
        (∀ dst, x.dest = .core dst → s.roomAt dst (decide (u = 1)) = 0 →
          SendsNone (.send 1 e q u c n g k) s q g (-1) ∧
          (MayPark s → SendParks (.send 0 e q u c n g k) s q (.queue dst (decide (u = 1))))) ∧
        (∀ d, x.dest = .device d → d / 4096 ∈ s.unreachable →
          SendsNone (.send 1 e q u c n g k) s q g (-3) ∧
          (TrapsFree s.core s.frame s →
            Traps (.send 0 e q u c n g k) s REMOTEERR (BitVec.ofNat 64 ((s.cur.cap k).oid.toNat * 256 + 2)))))

/-- R74, R310: a message whose entry is reserved, or that finds room, enters its queue behind those that came before, with its arrival
time; one to a cluster whose partition takes none is dropped, and answered NACK when it wants a reply. -/
def Sys2Proof.Says.MessagesArrive : Prop :=
  ∀ (s : State) (n : Nat) (m : Msg) (o : Origin), s.keeper n = none →
    (s.takesMessages n = true → s.retiredMsg m o = false →
      ((o = .here ∧ m.sender.toNat / 4096 = s.pos) ∨ (∃ p ∈ (s.coreAt n).promised, promiseOf m o p = true) ∨ 0 < s.roomAt n m.u) →
      (∀ x ∈ (s.coreAt n).queue m.u, x.serial < (s.coreAt n).serial) →
      ∃ t, exec (.messageArrival n m o) s = .next t ∧ { t with cores := s.cores } = s ∧ (∀ k, k ≠ n → t.coreAt k = s.coreAt k) ∧
        (t.coreAt n).queue m.u = (s.coreAt n).queue m.u ++ [⟨m, s.ftime, (s.coreAt n).serial, o, false⟩] ∧
        (t.coreAt n).queue (!m.u) = (s.coreAt n).queue (!m.u) ∧ (t.coreAt n).serial = (s.coreAt n).serial + 1 ∧
        (t.coreAt n).frames = (s.coreAt n).frames) ∧
    (s.takesMessages n = false → o = .here → m.sender.toNat / 4096 = s.pos →
      (m.rq = true → ∃ t, exec (.messageArrival n m o) s = .next t ∧ { t with inflight := s.inflight } = s ∧
        t.inflight = s.inflight ++ [.replyArrival (m.sender.toNat % 4096) ⟨m.slot, m.slotseq, 2, []⟩]) ∧
      (m.rq = false → exec (.messageArrival n m o) s = .next s))

namespace Sys2Proof.Says

/-- The effective deadline and the key of a message that waits at core n (R82). -/
def dueOf (s : State) (n : Nat) (e : QEntry) : Nat :=
  if e.msg.dlv then e.msg.deadline.toNat else e.arrival + (s.coreAt n).dslack.toNat
def keyOf (s : State) (n : Nat) (e : QEntry) : Nat := max (dueOf s n e) e.arrival

/-- A frame as dispatch leaves it (R83, R84): READY in the imago v of the message's module at the handler, registers cleared but for
those that carry the message. -/
structure Dispatched (s : State) (m : Msg) (d : Option Desc) (v : Version) (h : BitVec 32) (late urgent : Bool) (fr : Frame) : Prop where
  state : fr.state = .ready ∧ fr.ready = s.ftime ∧ fr.pc = h ∧ fr.modid = m.modid ∧ fr.ver = v.ver ∧ fr.cvt = false
  words : ∀ i, i < 8 → fr.gpr (BitVec.ofNat 5 (i + 1)) = m.payload.getD i 0
  g9    : fr.gpr 9 = m.cls.setWidth 64
  g10   : fr.gpr 10 = BitVec.ofNat 64 (m.sender.toNat + (if m.host then 2 ^ 22 else 0))
  rest  : ∀ r : BitVec 5, 10 < r.toNat → fr.gpr r = 0
  c1    : fr.cap 1 = match m.sl, d with
    | false, some o => ⟨true, 15, 1, o.oid, BitVec.ofNat 36 (if o.hmode = 2 then m.stripe.toNat * 65536 else 0),
        BitVec.ofNat 36 (if o.hmode = 2 then min 65536 (o.size - m.stripe.toNat * 65536) else o.size)⟩
    | _, _ => Cap.null
  c2    : (m.rq = true → (fr.cap 2).tag = true ∧ (fr.cap 2).kind = 3) ∧ (m.rq = false → fr.cap 2 = Cap.null)
  c3    : fr.cap 3 = ⟨true, 9, 1, v.table, 0, 4096⟩
  caps  : ∀ r : BitVec 4, 3 < r.toNat → fr.cap r = Cap.null
  vecs  : ∀ r, fr.vreg r = Vector.replicate 32 0
  masks : ∀ r, r ≠ 0 → fr.mask r = 0
  status : fr.status.toNat = (if late then 1 else 0) + (if urgent then 2 else 0) + (if m.sl then 4 else 0) + (if m.rq then 8 else 0)

end Sys2Proof.Says

/-- R82, R83, R84, R81: dispatch takes the eligible message of least key, or the first to arrive of the urgent queue, into the lowest
free frame of its kind, runs the late handler past the deadline, and takes the object's lock; a message without a handler ends unrun.
-/
def Obligations.MessageDispatch : Prop :=
  ∀ (s : State) (n f : Nat) (urgent : Bool) (e : QEntry), f < 11 → s.mayDispatch n urgent = true →
    (s.coreAt n).freeFrame urgent = some f → s.chosen n urgent = some e →
    (e ∈ (s.coreAt n).queue urgent ∧ s.eligible n e = true ∧
      ∀ x ∈ (s.coreAt n).queue urgent, s.eligible n x = true →
        (urgent = true → e.arrival ≤ x.arrival) ∧
        (urgent = false → keyOf s n e < keyOf s n x ∨ (keyOf s n e = keyOf s n x ∧ e.arrival ≤ x.arrival))) ∧
    (∀ v h late, (s.ctxAt (s.ctxOf n)).imago e.msg.modid = some v →
      (e.msg.sl = true ∨ s.liveAt (s.ctxAt (s.ctxOf n)) e.msg.objid ≠ none) →
      (late = true ↔ dueOf s n e < s.ftime) →
      h = (if late ∧ e.msg.cls ≠ 255 ∧ v.handlers.getD 255 0xFFFFFFFF ≠ 0xFFFFFFFF then v.handlers.getD 255 0xFFFFFFFF
        else v.handlers.getD e.msg.cls.toNat 0xFFFFFFFF) → h ≠ 0xFFFFFFFF →
      ∃ t, exec (.dispatch n urgent) s = .next t ∧
        Dispatched s e.msg (s.liveAt (s.ctxAt (s.ctxOf n)) e.msg.objid) v h late urgent (t.frameAt n f) ∧
        (∀ x, x ∈ (t.coreAt n).queue urgent ↔ x ∈ (s.coreAt n).queue urgent ∧ x.serial ≠ e.serial) ∧
        (e.msg.sl = false → (t.ctxAt (s.ctxOf n)).lockOf e.msg.objid e.msg.stripe.toNat =
          some ⟨e.msg.objid, e.msg.stripe.toNat, n, f, none⟩) ∧
        ∀ k, k ≠ n → t.coreAt k = s.coreAt k) ∧
    ((s.ctxAt (s.ctxOf n)).imago e.msg.modid = none → e.origin = .here → e.used = false → e.msg.rq = true →
      s.retiredMsg e.msg .here = false → e.msg.sender.toNat / 4096 = s.pos →
      ∃ t, exec (.dispatch n urgent) s = .next t ∧ t.frameAt n f = s.frameAt n f ∧
        t.inflight = s.inflight ++ [.replyArrival (e.msg.sender.toNat % 4096) ⟨e.msg.slot, e.msg.slotseq, 4, []⟩])

/-- R405, R76: REPLY through the activation's unused token sends the words with status OK and marks it used; another capability traps. -/
def Sys2Proof.Says.RepliesLeave : Prop :=
  ∀ s : State, s.frame < 11 → ∀ (n : BitVec 3) (g : BitVec 5) (k : BitVec 4) (a : Activation) (e : QEntry),
    (s.cur.act = some a → a.entry = some e → a.used = false → (s.cur.cap k).tag = true → (s.cur.cap k).kind = 3 →
      sameToken (s.cur.cap k) a.token = true → s.cur.posted = [] → s.buffered s.core s.frame = false → e.origin = .here →
      s.retiredMsg e.msg .here = false → e.msg.sender.toNat / 4096 = s.pos →
      ∃ t ws, exec (.reply n g k) s = .next t ∧
        t.inflight = s.inflight ++ [.replyArrival (e.msg.sender.toNat % 4096) ⟨e.msg.slot, e.msg.slotseq, 0, ws⟩] ∧
        ws.length = n.toNat + 1 ∧ (∀ i, i ≤ n.toNat → ws.getD i 0 = s.cur.gpr (g + BitVec.ofNat 5 i)) ∧
        t.cur.act = some { a with used := true } ∧ PcPast 4 s t ∧
        { t.cur with act := s.cur.act, pc := s.cur.pc } = s.cur ∧ Elsewhere s { t with inflight := s.inflight }) ∧
    (TrapsFree s.core s.frame s →
      ((s.cur.cap k).tag = false → Traps (.reply n g k) s CAPTAG 0) ∧
      ((s.cur.cap k).tag = true → (s.cur.cap k).kind ≠ 3 → Traps (.reply n g k) s CAPKIND 0) ∧
      ((s.cur.cap k).tag = true → (s.cur.cap k).kind = 3 →
        (s.cur.act = none ∨ (s.cur.act = some a ∧ (a.entry = none ∨ a.used = true ∨ sameToken (s.cur.cap k) a.token = false))) →
        Traps (.reply n g k) s BADTOKEN 0))

namespace Sys2Proof.Says

/-- The current frame's activation has ended: the frame is FREE and its locks, which nobody lent it, are released. -/
def ActivationEnded (s t : State) (a : Activation) : Prop :=
  t.cur.state = .free ∧ t.cur.act = none ∧
    ∀ l, l ∈ (t.ctxAt a.ctx).locks ↔ l ∈ (s.ctxAt a.ctx).locks ∧ ¬ (l.core = s.core ∧ l.frame = s.frame)

/-- The current frame waits in place for its buffered stores, and its activation with its locks stands. -/
def DrainsFirst (s t : State) (a : Activation) : Prop :=
  (∃ e, t.cur.wait = some (.ending e)) ∧ t.cur.state = .running ∧ t.cur.pc = s.cur.pc ∧
    t.cur.act = some { a with entry := none } ∧ (t.ctxAt a.ctx).locks = (s.ctxAt a.ctx).locks

end Sys2Proof.Says

/-- R359 to R361, R78, R81: DONE and DEFER of a message's activation: DONE answers an unused token NOREPLY and frees the queue entry, DEFER
puts the message back into its queue; then, when the frame's stores have drained, which it waits for in place, the frame is FREE and its
locks are released. The drain of the last store ends it. In the supervisor frame they act as NOP. -/
def Obligations.ActivationsEnd : Prop :=
  ∀ s : State,
    (s.frame = 10 → Passes .done s 2 ∧ Passes .done32 s 4 ∧ Passes .defer s 4) ∧
    (∀ a e, s.frame < 10 → s.cur.cvt = false → s.cur.act = some a → a.kind = .message →
      a.entry = some e → e.origin = .here → (∀ l ∈ (s.ctxAt a.ctx).locks, l.lender = none) →
      (∀ i ∈ [Instr.done, .done32], ∃ t, exec i s = .next t ∧ SameBytes s t ∧
        (s.buffered s.core s.frame = false → ActivationEnded s t a) ∧ (s.buffered s.core s.frame = true → DrainsFirst s t a) ∧
        (a.used = false → e.used = false → e.msg.rq = true → s.retiredMsg e.msg .here = false → e.msg.sender.toNat / 4096 = s.pos →
          t.inflight = s.inflight ++ [.replyArrival (e.msg.sender.toNat % 4096) ⟨e.msg.slot, e.msg.slotseq, 1, []⟩]) ∧
        (a.used = true ∨ e.used = true ∨ e.msg.rq = false → t.inflight = s.inflight)) ∧
      (∃ t, exec .defer s = .next t ∧ SameBytes s t ∧
        (s.buffered s.core s.frame = false → ActivationEnded s t a) ∧ (s.buffered s.core s.frame = true → DrainsFirst s t a) ∧
        (∀ x, x ∈ (t.coreAt s.core).queue e.msg.u ↔
          x ∈ (s.coreAt s.core).queue e.msg.u ∨ x = { e with used := a.used || e.used }) ∧
        t.inflight = s.inflight)) ∧
    (s.frame < 10 → s.cur.act = none → ∀ i ∈ [Instr.done, .done32, .defer], ∃ t, exec i s = .next t ∧ SameBytes s t ∧
      (s.buffered s.core s.frame = false → t.cur.state = .free) ∧
      (s.buffered s.core s.frame = true → t.cur.wait = some (.ending none))) ∧
    (∀ (n f : Nat) (p : PStore) (a : Activation), f < 10 → (s.coreAt n).buffer = [p] → p.paged = none → p.frame = f →
      PlainBytes s p.addr p.bytes.length → (s.coreAt n).outgoing = [] → (∀ g, g < 11 → (s.frameAt n g).entering = []) →
      (s.frameAt n f).wait = some (.ending none) → (s.frameAt n f).act = some a → a.kind = .message →
      ∃ t, exec (.storeBufferDrain n) s = .next t ∧ (t.frameAt n f).state = .free ∧ (t.frameAt n f).act = none)

/-- R77, R78, R76: a reply to a busy slot with its SLOTSEQ gives the parked frame its words, zeros beyond them, and RSTAT, and makes it
READY behind its SEND; one with another SLOTSEQ is discarded; a slot whose time has come ends with TIMEOUT. -/
def Sys2Proof.Says.RepliesArrive : Prop :=
  ∀ (s : State) (n i f : Nat) (q : Slot) (g : BitVec 5) (k : BitVec 3) (seq : BitVec 16) (st : Nat) (ws : List Word) (j : BitVec 6),
    f < 11 → s.keeper n = none → j.toNat = i → look (s.coreAt n).slots i = some q → q.busy = true → q.discard = false → q.frame = f →
    (s.frameAt n f).park = some (.reply i g k) → (s.frameAt n f).saved = none →
    (q.seq ≠ seq → exec (.replyArrival n ⟨j, seq, st, ws⟩) s = .next s) ∧
    (∀ x, (q.seq = seq ∧ x = Instr.replyArrival n ⟨j, seq, st, ws⟩) ∨
        (∃ due, q.due = some due ∧ due ≤ s.ftime ∧ x = .replySlotTimeout n i ∧ st = 3 ∧ ws = []) →
      ∃ t p, exec x s = .next t ∧ look (t.coreAt n).slots i = some p ∧ p.busy = false ∧
        (t.frameAt n f).state = .ready ∧ (t.frameAt n f).park = none ∧ (t.frameAt n f).rstat = BitVec.ofNat 64 st ∧
        (t.frameAt n f).pc = (s.frameAt n f).pc + 4 ∧
        (∀ l, l ≤ k.toNat → g + BitVec.ofNat 5 l ≠ 0 → (t.frameAt n f).gpr (g + BitVec.ofNat 5 l) = ws.getD l 0) ∧
        (∀ r, (∀ l, l ≤ k.toNat → r ≠ g + BitVec.ofNat 5 l) → (t.frameAt n f).gpr r = (s.frameAt n f).gpr r) ∧
        ∀ h, h ≠ f → t.frameAt n h = s.frameAt n h)

/-- R85, R382: a window of the urgent quota that has run its cycles gives way to the next one, with UQUOTA as it then stands, and a
spent quota holds the urgent frames that run messages. R87: Balancing moves a quarter of the difference, the newest first, to the
neighbour with the fewest stateless messages. R80: A queued message whose home has changed goes there.
When the first balancing falls, and that a forwarded message is never refused, are the model's choices of logs 80 and 81. -/
def Sys2Proof.Says.QueuesAndQuotas : Prop :=
  ∀ (s : State) (n : Nat),
    ((s.coreAt n).winStart + (s.coreAt n).window ≤ s.cycles →
      ∃ t, exec (.urgentQuotaWindow n) s = .next t ∧ (t.coreAt n).winCount = 0 ∧ (t.coreAt n).exhausted = false ∧
        (t.coreAt n).uwin = (s.coreAt n).uquota ∧
        (t.coreAt n).winStart ≤ s.cycles ∧ s.cycles < (t.coreAt n).winStart + (t.coreAt n).window ∧
        (s.coreAt n).winStart + (s.coreAt n).window ≤ (t.coreAt n).winStart ∧
        (t.coreAt n).window ∣ (t.coreAt n).winStart - ((s.coreAt n).winStart + (s.coreAt n).window) ∧ ∀ f, t.frameAt n f = s.frameAt n f) ∧
    ((s.coreAt n).quota ≤ (s.coreAt n).winCount →
      ∃ t, exec (.urgentQuotaExhausted n) s = .next t ∧ (t.coreAt n).exhausted = true ∧ (t.coreAt n).quotaHeld = true ∧
        (∀ f, f < 8 ∨ f = 10 → t.frameAt n f = s.frameAt n f) ∧
        (∀ f a, f = 8 ∨ f = 9 → (s.frameAt n f).act = some a → a.kind = .message → (s.frameAt n f).wait = none →
          (s.frameAt n f).state = .running → t.frameAt n f = { s.frameAt n f with state := .ready })) ∧
    (∀ (p : List Nat) (i j k : Nat), p = (s.ctxAt (s.ctxOf n)).cores → i < p.length → p.getD i 0 = n → p.Nodup →
      (s.coreAt n).balanceAt ≤ s.ftime → j ∈ neighbours p.length i → j ≠ i → p.getD j 0 ≠ n →
      (∀ l ∈ neighbours p.length i, (s.coreAt (p.getD j 0)).stateless.length < (s.coreAt (p.getD l 0)).stateless.length ∨
        (s.coreAt (p.getD j 0)).stateless.length = (s.coreAt (p.getD l 0)).stateless.length ∧ j ≤ l) →
      (s.coreAt (p.getD j 0)).stateless.length + 8 < (s.coreAt n).stateless.length →
      ((s.coreAt n).normalQ.map (·.serial)).Nodup → (∀ e ∈ (s.coreAt n).normalQ, e.msg.u = false) →
      k = min (((s.coreAt n).stateless.length - (s.coreAt (p.getD j 0)).stateless.length) / 4) (s.roomAt (p.getD j 0) false) →
      ∃ t, exec (.statelessBalance n) s = .next t ∧ (t.coreAt n).balanceAt = s.ftime + 10000 ∧
        (t.coreAt n).stateless = (s.coreAt n).stateless.take ((s.coreAt n).stateless.length - k) ∧
        (t.coreAt (p.getD j 0)).stateless.length = (s.coreAt (p.getD j 0)).stateless.length + k ∧
        ∀ f, t.frameAt n f = s.frameAt n f) ∧
    (∀ (k h : Nat) (e : QEntry) (d : Desc), s.ctxOf n = k → s.reefed k = true → n ∈ (s.ctxAt k).cores → (s.ctxAt k).cores.Nodup →
      (∀ m ∈ (s.ctxAt k).cores, m ≠ n → (s.coreAt m).normalQ = [] ∧ (s.coreAt m).urgentQ = []) →
      (s.coreAt n).normalQ = [e] → (s.coreAt n).urgentQ = [] → e.msg.u = false → e.msg.sl = false →
      s.liveAt (s.ctxAt k) e.msg.objid = some d → s.far d = false →
      s.homeOf (s.ctxAt k) d e.msg.stripe.toNat % 4096 = h → h ≠ n → s.ctxOf h = k →
      ∃ t, exec (.forwardQueuedMessages k) s = .next t ∧ (t.coreAt n).normalQ = [] ∧
        ∃ x ∈ (t.coreAt h).normalQ, x.msg = e.msg ∧ x.arrival = e.arrival)

/-- SEND: the message that leaves, and what the sender is answered. -/
def Obligations.Sends : Prop :=
  Sys2Proof.Says.SendLeaves ∧ Sys2Proof.Says.SendAnswers

/-- Arrival of messages, inbound queues, the urgent quota and balancing (the model's choices of logs 80 and 81). -/
def Obligations.ArrivalsAndQueues : Prop :=
  Sys2Proof.Says.MessagesArrive ∧ Sys2Proof.Says.QueuesAndQuotas

/-- REPLY: what leaves, and what happens where it arrives. -/
def Obligations.Replies : Prop :=
  Sys2Proof.Says.RepliesLeave ∧ Sys2Proof.Says.RepliesArrive

/-- R222, R223, R99, R118: a request at its home: a load answers the bytes there as its tenant reads them, a store writes its bytes, to
the home's memory or to the host's, and is acknowledged, a request for an object that is gone is answered NOOBJ, and one behind another
that the home holds joins the line. One for a home elsewhere changes nothing (log 22), and one of an EVICTED context waits (log 102). -/
def Sys2Proof.Says.RemoteRequestsServed : Prop :=
  ∀ (s : State) (r : Request), r.core / 4096 = s.pos → s.tainted = [] →
    (r.home / 4096 ≠ s.pos → exec (.remoteRequest r) s = .next s) ∧
    (r.home / 4096 = s.pos →
      ((s.ctxAt r.ctx).state = .evicted → exec (.remoteRequest r) s = .next { s with inflight := s.inflight ++ [.remoteRequest r] }) ∧
      ((s.ctxAt r.ctx).state ≠ .evicted → s.behind (.remoteRequest r) = true → ∃ t, exec (.remoteRequest r) s = .next t ∧
        t.inflight = s.inflight ++ [.remoteRequest r] ∧ (r.core, r.rid) ∈ t.arrived ∧
        { t with inflight := s.inflight, arrived := s.arrived } = s)) ∧
    (r.home / 4096 = s.pos → (s.ctxAt r.ctx).state ≠ .evicted → s.behind (.remoteRequest r) = false →
      ∀ (d : Desc) (a : Nat) (q : Option (BitVec 40 × Nat)),
      s.liveAt (s.ctxAt r.ctx) r.oid = some d →
      s.placeOf (s.ctxAt r.ctx) d r.off (dieOf (r.home % 4096)) = .here a q →
      (∀ n, r.op = .load n → n ≤ 8 → spanExists a n = true → s.badAt a n = none →
        ∃ t v, exec (.remoteRequest r) s = .next t ∧ SameBytes s t ∧ (∀ m, t.coreAt m = s.coreAt m) ∧
          t.inflight = s.inflight ++ [.remoteValue (r.core % 4096) r.frame r.rid (.word v)] ∧
          IsLoaded n false (s.plain r.ctx a n) v) ∧
      (∀ bs, r.op = .store bs → spanExists a bs.length = true → s.badAt a bs.length = none → PlainBytes s a bs.length →
        Keyed s r.ctx a bs.length → memWf s.mem = true →
        ∃ t, exec (.remoteRequest r) s = .next t ∧ (∀ m, t.coreAt m = s.coreAt m) ∧
          t.inflight = s.inflight ++ [.acknowledgement (r.core % 4096) r.frame r.rid] ∧
          (∀ x, ¬ (a ≤ x ∧ x < a + bs.length) → memGet t.mem x = memGet s.mem x) ∧
          ∀ j (h : j < bs.length), memGet t.mem (a + j) = bs[j])) ∧
    (r.home / 4096 = s.pos → (s.ctxAt r.ctx).state ≠ .evicted → s.behind (.remoteRequest r) = false →
      ∀ (d : Desc) (pasid va : Nat) (bs : List Byte), s.liveAt (s.ctxAt r.ctx) r.oid = some d → r.op = .store bs →
      s.placeOf (s.ctxAt r.ctx) d r.off (dieOf (r.home % 4096)) = .host pasid va → memWf s.mem = true →
      s.translation (dieOf (r.home % 4096)) pasid (va / 4096) true = some true →
      ∃ t, exec (.remoteRequest r) s = .next t ∧ (∀ m, t.coreAt m = s.coreAt m) ∧
        t.inflight = s.inflight ++ [.acknowledgement (r.core % 4096) r.frame r.rid] ∧
        (∀ x, ¬ (hostAddr pasid va ≤ x ∧ x < hostAddr pasid va + bs.length) → memGet t.mem x = memGet s.mem x) ∧
        ∀ j (h : j < bs.length), memGet t.mem (hostAddr pasid va + j) = bs[j]) ∧
    (r.home / 4096 = s.pos → (s.ctxAt r.ctx).state ≠ .evicted → s.behind (.remoteRequest r) = false →
      s.liveAt (s.ctxAt r.ctx) r.oid = none → ∀ n, r.op = .load n →
      ∃ t, exec (.remoteRequest r) s = .next t ∧ { t with inflight := s.inflight, arrived := s.arrived } = s ∧
        t.inflight = s.inflight ++ [.remoteNotice (r.core % 4096) r.frame r.rid r.name .noobj])

/-- R124, R222 to R224, R70: what comes back to the issuer: the value a parked load waits for, which makes the frame READY behind it; an
acknowledgement; a notice, which a parked frame takes as REMOTEERR, PARKED as it is, and which AMOERR counts for a posted atomic. An
answer that nobody waits for changes nothing (log 22). -/
def Sys2Proof.Says.RemoteAnswersReceived : Prop :=
  ∀ (s : State) (n f rid : Nat), f < 11 → s.keeper n = none →
    (∀ len d size signed w, (size = 1 ∨ size = 2 ∨ size = 4 ∨ size = 8) → (s.frameAt n f).saved = none →
      (s.frameAt n f).park = some (.remote len [rid] (.word d size signed)) →
      ∃ t, exec (.remoteValue n f rid (.word w)) s = .next t ∧ (t.frameAt n f).state = .ready ∧ (t.frameAt n f).ready = s.ftime ∧
        (t.frameAt n f).park = none ∧ (t.frameAt n f).pc = (s.frameAt n f).pc + BitVec.ofNat 32 len ∧
        (d = 0 ∨ IsLoaded size signed (leBytes size (w.toNat % 2 ^ (8 * size))) ((t.frameAt n f).gpr d)) ∧
        (∀ r, r ≠ d → (t.frameAt n f).gpr r = (s.frameAt n f).gpr r) ∧ SameBytes s t) ∧
    (∀ len d c, (s.frameAt n f).saved = none → (s.frameAt n f).park = some (.remote len [rid] (.cap d)) →
      ∃ t, exec (.remoteValue n f rid (.cap c)) s = .next t ∧ (t.frameAt n f).state = .ready ∧ (t.frameAt n f).park = none ∧
        (d = 0 ∨ (t.frameAt n f).cap d = c) ∧ (t.frameAt n f).pc = (s.frameAt n f).pc + BitVec.ofNat 32 len) ∧
    ((∀ p, (s.frameAt n f).park ≠ some p) → ∀ v, exec (.remoteValue n f rid v) s = .next s) ∧
    (∃ t, exec (.acknowledgement n f rid) s = .next t ∧ SameBytes s t ∧
      (∀ p, p ∈ (t.frameAt n f).posted ↔ p ∈ (s.frameAt n f).posted ∧ p.rid ≠ rid) ∧
      (f < 10 → (s.frameAt n f).trap = none →
        { t.frameAt n f with posted := (s.frameAt n f).posted, wait := (s.frameAt n f).wait } = s.frameAt n f ∧
        (t.frameAt n f).wait = if (s.frameAt n f).wait = some (.ack rid) then none else (s.frameAt n f).wait)) ∧
    (∀ len pend fin oid, f < 10 → (s.frameAt n f).park = some (.remote len pend fin) → rid ∈ pend → (s.frameAt n f).state = .parked →
      (s.frameAt n f).wait = none →
      ∀ p ∈ [(Notice.noobj, 1), (.unreachable, 2), (.machine, 3), (.failed, 4)],
        ∃ t b, exec (.remoteNotice n f rid oid p.1) s = .next t ∧ (t.frameAt n f).state = .parked ∧
          (t.frameAt n f).park = some .abandoned ∧ (t.frameAt n f).pc = (s.frameAt n f).pc ∧
          (t.frameAt n f).trap = some ⟨REMOTEERR, BitVec.ofNat 64 (oid.toNat * 256 + p.2), b, false, false⟩) ∧
    (∀ oid reach, (s.frameAt n f).park = none → (s.frameAt n f).posted = [⟨rid, reach, true⟩] →
      ∀ p ∈ [(Notice.unsupported, 1), (.noobj, 2), (.unreachable, 3)],
        ∃ t, exec (.remoteNotice n f rid oid p.1) s = .next t ∧ (t.frameAt n f).posted = [] ∧
          ((s.frameAt n f).amoerr.toNat / 2 ^ 48 = 0 →
            (t.frameAt n f).amoerr.toNat = 2 ^ 48 + p.2 * 2 ^ 44 + oid.toNat) ∧
          ((s.frameAt n f).amoerr.toNat / 2 ^ 48 ≠ 0 →
            (t.frameAt n f).amoerr.toNat / 2 ^ 48 = min ((s.frameAt n f).amoerr.toNat / 2 ^ 48 + 1) 0xFFFF ∧
            (t.frameAt n f).amoerr.toNat % 2 ^ 48 = (s.frameAt n f).amoerr.toNat % 2 ^ 48))

namespace Sys2Proof.Says

/-- The number of a version, 0 for none. -/
def verNo : Option Version → Nat
  | some v => v.ver.toNat
  | none => 0

/-- The checks of the module instructions on their capability (R145, R147, R158). -/
def ChecksModule (i : Instr) (s : State) (c : Cap) (needsI : Bool) : Prop :=
  (c.tag = false → Traps i s CAPTAG 0) ∧ (c.tag = true → c.kind ≠ 2 → Traps i s CAPKIND 0) ∧
    (needsI = true → c.tag = true → c.kind = 2 → c.rights.getLsbD 4 = false → Traps i s CAPRIGHT 16)

/-- A capability that the module instructions take, and the module it names. -/
def ModuleCap (c : Cap) (m : BitVec 24) : Prop := c.tag = true ∧ c.kind = 2 ∧ c.rights.getLsbD 4 = true ∧ m = c.oid.extractLsb' 0 24

end Sys2Proof.Says

/-- R145, R157, R156: MQRY's word and OBJVER's, and their checks. -/
def Sys2Proof.Says.ModuleAndObjectQueries : Prop :=
  ∀ s : State, s.frame < 11 → ∀ (a : BitVec 4) (d : BitVec 5) (m : BitVec 24) (y : Module),
    y = (s.ctxAt (s.ctxOf s.core)).moduleAt m →
    ((s.cur.cap a).tag = true → (s.cur.cap a).kind = 2 → m = (s.cur.cap a).oid.extractLsb' 0 24 →
      (s.oldFrames (s.ctxOf s.core) m).length < 2 ^ 32 →
      ∃ v : Word, WritesG (.mqry a d) s d v 4 ∧
        v.toNat % 2 ^ 8 = (if y.other.isSome then (if y.exuvia then 2 else 1) else if y.imago.isSome then 3 else 0) ∧
        v.toNat / 2 ^ 8 % 2 ^ 8 = verNo y.imago ∧ v.toNat / 2 ^ 16 % 2 ^ 8 = verNo y.other ∧
        v.getLsbD 24 = y.imago.isSome ∧ v.getLsbD 25 = y.other.isSome ∧ v.toNat / 2 ^ 26 % 2 ^ 6 = 0 ∧
        v.toNat / 2 ^ 32 = (s.oldFrames (s.ctxOf s.core) m).length) ∧
    (∀ o, (s.cur.cap a).tag = true → (s.cur.cap a).kind ∈ [(1 : BitVec 8), 6] →
      s.liveAt (s.ctxAt (s.ctxOf s.core)) (s.cur.cap a).oid = some o → s.exterior o = false → s.far o = false →
      ∃ v : Word, WritesG (.objver a d) s d v 4 ∧ v.toNat = o.owner.toNat * 2 ^ 16 + o.layout.toNat) ∧
    (TrapsFree s.core s.frame s → ChecksModule (.mqry a d) s (s.cur.cap a) false ∧
      ((s.cur.cap a).tag = false → Traps (.objver a d) s CAPTAG 0) ∧
      ((s.cur.cap a).tag = true → (s.cur.cap a).kind ∉ [(1 : BitVec 8), 6] → Traps (.objver a d) s CAPKIND 0))

/-- R158, R159: MPURGE: -1 with nothing to remove, -2 for a pinned staged version, the count of old frames for a soft purge that they
hold up; otherwise the version is removed, by a hard purge also where old frames run, which take STRAGGLER. While a core holds a store
to the version's constant table MPURGE waits in place (R107). The checks of their capability come first. -/
def Sys2Proof.Says.ModulePurges : Prop :=
  ∀ s : State, s.frame < 11 → s.cur.wait = none → ∀ (a : BitVec 4) (d : BitVec 5),
    (TrapsFree s.core s.frame s → ∀ c, c = s.cur.cap a →
      ChecksModule (.mpurgeSoft a d) s c true ∧ ChecksModule (.mpurgeHard a d) s c true) ∧
    (∀ (m : BitVec 24) (k : Nat) (y : Module) i, ModuleCap (s.cur.cap a) m → k = s.ctxOf s.core → y = (s.ctxAt k).moduleAt m →
      y.purging = false → i ∈ [Instr.mpurgeSoft a d, .mpurgeHard a d] → s.tableBusy k m = true →
      ∃ t, exec i s = .next t ∧ t.cur.wait = some (.table m) ∧ t.cur.pc = s.cur.pc ∧ (t.ctxAt k).moduleAt m = y ∧ SameBytes s t) ∧
    ∀ (m : BitVec 24) (k : Nat) (y : Module),
    ModuleCap (s.cur.cap a) m → k = s.ctxOf s.core → y = (s.ctxAt k).moduleAt m → y.purging = false → s.tableBusy k m = false →
    (∀ i ∈ [Instr.mpurgeSoft a d, .mpurgeHard a d],
      (y.other = none → WritesG i s d (-1) 4) ∧
      (∀ v, y.other = some v → y.exuvia = false → s.pinned k m v.ver = true → WritesG i s d (-2) 4) ∧
      (∀ v, y.other = some v → s.cur.park = none → s.frame < 10 →
        (y.exuvia = false ∧ s.pinned k m v.ver = false ∨ y.exuvia = true ∧ s.oldFrames k m = []) →
        ∃ t, exec i s = .next t ∧ (t.ctxAt k).moduleAt m = { y with other := none, exuvia := false, purging := false } ∧
          (d = 0 ∨ t.cur.gpr d = 0) ∧ PcPast 4 s t)) ∧
    (∀ v, y.other = some v → y.exuvia = true → s.oldFrames k m ≠ [] →
      WritesG (.mpurgeSoft a d) s d (BitVec.ofNat 64 (s.oldFrames k m).length) 4) ∧
    (∀ v n f, y.other = some v → y.exuvia = true → s.cur.park = none → s.frame < 10 → s.oldFrames k m = [(n, f)] → n ≠ s.core →
      f < 10 → (s.frameAt n f).state = .parked → (s.frameAt n f).wait = none → (s.frameAt n f).trap = none →
        (s.coreAt n).handling = false → (s.coreAt n).pendingTrap = none →
      ∃ t, exec (.mpurgeHard a d) s = .next t ∧ (t.ctxAt k).moduleAt m = { y with other := none, exuvia := false, purging := false } ∧
        (d = 0 ∨ t.cur.gpr d = 1) ∧ PcPast 4 s t ∧
        (t.frameAt n f).trap = some ⟨STRAGGLER, s.vctx n f, true, true, false⟩ ∧ (t.frameAt n f).state = .parked ∧
        (t.frameAt n f).pc = (s.frameAt n f).pc)

/-- The version w is what an image holds (R147). -/
def Sys2Proof.Says.IsVersionOf (img : Image) (w : Version) : Prop :=
  w.ver = img.ver ∧ w.layout = img.layout ∧ w.code = img.text ∧ w.handlers = img.handlers ∧ w.entries = img.entries ∧ w.convs = img.convs

/-- R147, R148, R149, R144: MINST's answers in their order; a load that succeeds leaves the image's version staged, and one that switches
too, or a switch alone, makes it the imago and the former imago the exuvia. Where a part of the image lies at another home, the frame
parks until it has come. The checks of the module's capability come first. -/
def Obligations.ModuleInstallation : Prop :=
  ∀ s : State, s.frame < 11 → ∀ (b a : BitVec 4) (d : BitVec 5),
    (TrapsFree s.core s.frame s → ∀ x c, c = s.cur.cap a → ChecksModule (.minst x b a d) s c true) ∧
    ∀ (m : BitVec 24) (k : Nat) (y : Module),
    ModuleCap (s.cur.cap a) m → k = s.ctxOf s.core → y = (s.ctxAt k).moduleAt m → y.purging = false →
    (y.other = none ∨ y.exuvia = true → WritesG (.minst 2 b a d) s d (-4) 4) ∧
    (∀ v, y.other = some v → y.exuvia = false →
      (s.pinned k m v.ver = true → WritesG (.minst 2 b a d) s d (-6) 4) ∧
      (s.pinned k m v.ver = false → s.released s.core s.frame 5 = true → s.unbound s.core s.frame k v = true →
        WritesG (.minst 2 b a d) s d (-5) 4) ∧
      (s.pinned k m v.ver = false → s.released s.core s.frame 5 = true → s.unbound s.core s.frame k v = false →
        s.cur.park = none → s.frame < 10 →
        ∃ t, exec (.minst 2 b a d) s = .next t ∧ (d = 0 ∨ t.cur.gpr d = 0) ∧ PcPast 4 s t ∧
          (t.ctxAt k).moduleAt m = { y with imago := some v, other := y.imago, exuvia := y.imago.isSome })) ∧
    (∀ (x : BitVec 8) o off, x = 0 ∨ x = 1 →
      s.access s.core (s.cur.cap b) 0 (s.cur.cap b).len.toNat 1 1 [1] .frame false = .ok (o, off) →
      (y.other.isSome → WritesG (.minst x b a d) s d (-1) 4) ∧
      (y.other = none → ∀ s', s.readImage s.core s.frame o off (s.cur.cap b).len.toNat = .ok (none, s') →
        exec (.minst x b a d) s = .next s') ∧
      (y.other = none → ∀ bytes s₀ s', s.readImage s.core s.frame o off (s.cur.cap b).len.toNat = .ok (some bytes, s₀) →
        s' = s₀.setCur { s₀.cur with park := none } →
        ((parseImage bytes = none ∨ (∃ img, parseImage bytes = some img ∧
            (img.modid ≠ m ∨ ∃ v, (s'.ctxAt k).imago m = some v ∧ img.ver = v.ver))) →
          exec (.minst x b a d) s = .next (s'.writeG d (-2) 4)) ∧
        (∀ img v, parseImage bytes = some img → img.modid = m → (s'.ctxAt k).imago m = some v → img.ver ≠ v.ver →
          img.layout < v.layout → exec (.minst x b a d) s = .next (s'.writeG d (-7) 4)) ∧
        (∀ img, parseImage bytes = some img → img.modid = m →
          (∀ v, (s'.ctxAt k).imago m = some v → img.ver ≠ v.ver ∧ ¬ img.layout < v.layout) →
          (s'.loadVersion s.core k img = none → exec (.minst x b a d) s = .next (s'.writeG d (-3) 4)) ∧
          (∀ u, s'.loadVersion s.core k img = some u →
            (x = 1 → img.consts.any (fun q => q.obj.isNone) = true → exec (.minst x b a d) s = .next (s'.writeG d (-5) 4)) ∧
            (x = 0 → ∃ t w, exec (.minst x b a d) s = .next t ∧ ((t.ctxAt k).moduleAt m).other = some w ∧
              ((t.ctxAt k).moduleAt m).exuvia = false ∧ IsVersionOf img w ∧ SameBytes u t ∧ (d = 0 ∨ t.cur.gpr d = 0) ∧
              (b = 0 ∨ t.cur.cap b = ⟨true, 11, 1, w.table, 0, 4096⟩)) ∧
            (x = 1 → img.consts.any (fun q => q.obj.isNone) = false → s.released s.core s.frame 5 = true →
              ∃ t w, exec (.minst x b a d) s = .next t ∧ ((t.ctxAt k).moduleAt m).imago = some w ∧
                ((t.ctxAt k).moduleAt m).other = (s'.ctxAt k).imago m ∧
                ((t.ctxAt k).moduleAt m).exuvia = ((s'.ctxAt k).imago m).isSome ∧ IsVersionOf img w ∧ (d = 0 ∨ t.cur.gpr d = 0) ∧
                (b = 0 ∨ t.cur.cap b = ⟨true, 11, 1, w.table, 0, 4096⟩))))))

/-- R154, R155, R358, R151: CVTEND of a converter tags its object with the layout of its version and ends the conversion: the frame is
FREE, and a frame parked behind the conversion is READY to execute its access again; outside a converter it raises ILLEGAL. -/
def Sys2Proof.Says.ConversionEnds : Prop :=
  ∀ s : State,
    (TrapsFree s.core s.frame s → s.cur.cvt = false → Traps .cvtend s ILLEGAL (BitVec.ofNat 64 (encode .cvtend))) ∧
    (∀ a oid layout d, s.frame < 10 → s.cur.cvt = true → s.cur.act = some a → a.kind = .converter oid layout → a.entry = none →
      a.ctx = s.ctxOf s.core → s.cur.acked 6 = true → s.buffered s.core s.frame = false → memWf s.mem = true →
      s.liveAt (s.ctxAt a.ctx) oid = some d → d.whole = none → d.pageReg = false →
      d.pasid = (s.ctxAt a.ctx).pasid.toNat → d.keyid = (s.ctxAt a.ctx).keyid.toNat →
      (∃ v ∈ (s.ctxAt a.ctx).convs, v.oid = oid ∧ v.core = s.core ∧ v.frame = some s.frame) →
      s.contexts.findSome? (fun p => match p.2.descIndex ((s.ctxAt a.ctx).descAddr oid.toNat) with
        | some i => some (p.1, i)
        | none => none) = some (a.ctx, oid.toNat) →
      Keyed s a.ctx ((s.ctxAt a.ctx).descAddr oid.toNat) 64 →
      (∀ v ∈ (s.ctxAt a.ctx).convs, v.oid = oid → v.waiting = []) →
      ∃ t, exec .cvtend s = .next t ∧ t.cur.state = .free ∧ t.cur.act = none ∧
        (∀ v ∈ (t.ctxAt a.ctx).convs, v.oid ≠ oid) ∧
        (∃ d', t.liveAt (t.ctxAt a.ctx) oid = some d' ∧ d'.layout = layout ∧ d' = { d with layout := layout }) ∧
        ∀ n f, (n, f) ∈ s.framesOf a.ctx → (n, f) ≠ (s.core, s.frame) → (s.frameAt n f).park = some (.convert oid) →
          (s.frameAt n f).saved = none →
          (t.frameAt n f).state = .ready ∧ (t.frameAt n f).park = none ∧ (t.frameAt n f).pc = (s.frameAt n f).pc)

namespace Sys2Proof.Says

/-- Frame f of core n starts in a version at an offset with general registers, FREC and STATUS of an urgent start (R152, R271). -/
structure Starts (n f : Nat) (m : BitVec 24) (v : Version) (pc : BitVec 32) (gs : List (BitVec 5 × Word)) (frec : Word) (cvt : Bool)
    (s t : State) : Prop where
  state : (t.frameAt n f).state = .ready ∧ (t.frameAt n f).ready = s.ftime ∧ (t.frameAt n f).pc = pc ∧
    (t.frameAt n f).modid = m ∧ (t.frameAt n f).ver = v.ver ∧ (t.frameAt n f).cvt = cvt
  regs  : ∀ p ∈ gs, (t.frameAt n f).gpr p.1 = p.2
  zeros : ∀ r, (∀ p ∈ gs, p.1 ≠ r) → (t.frameAt n f).gpr r = 0
  c3    : (t.frameAt n f).cap 3 = ⟨true, 9, 1, v.table, 0, 4096⟩
  frec  : (t.frameAt n f).frec = frec
  status : (t.frameAt n f).status = 2
  bytes : SameBytes s t

/-- A converter can take the lock of a stripe: nobody holds it, or the frame of the first touch does, which waits for the conversion
and lends it (R152 step 2). -/
def FreeOrLent (s : State) (k : Nat) (oid : BitVec 40) (trig : Option (Nat × Nat)) (p : Nat) : Prop :=
  ∀ l, (s.ctxAt k).lockOf oid p = some l → s.lends oid trig l = true

end Sys2Proof.Says

/-- R152, R269, R271, R273, R276, R278: converters and upcalls start in the lowest free urgent frame: a converter with the two layouts and a
capability to its object, when it has taken the object's locks in ascending order, which it waits for holding its frame and those it
has; an upcall at FUPC with its record in g1 to g4, its kind in g9 and its token in FREC.
That a converter takes its frame before its locks is the model's reading of log 27. -/
def Sys2Proof.Says.ConvertersAndUpcallsStart : Prop :=
  ∀ (s : State) (n f : Nat), (s.coreAt n).freeFrame true = some f →
    (∀ k oid m ver fr trig d v pc, s.nextStart n isConverter = some (.converter k oid m ver fr trig) →
      s.liveAt (s.ctxAt k) oid = some d → (s.ctxAt k).entered m ver = some v → look v.convs fr.toNat = some pc →
      trig ≠ some (n, f) → (∀ l ∈ (s.ctxAt k).locks, ¬ (l.core = n ∧ l.frame = f)) →
      ((∀ p ∈ d.stripes, FreeOrLent s k oid trig p) → ∃ t, exec (.converterStart n) s = .next t ∧
        Starts n f m v pc [(1, fr.setWidth 64), (2, v.layout.setWidth 64)] 0 true s t ∧
        (t.frameAt n f).cap 1 = ⟨true, 15, 1, oid, 0, BitVec.ofNat 36 d.size⟩ ∧
        (∀ p ∈ d.stripes, ∃ l, (t.ctxAt k).lockOf oid p = some l ∧ l.core = n ∧ l.frame = f)) ∧
      (∀ p ∈ d.stripes, ¬ FreeOrLent s k oid trig p → ∃ t, exec (.converterStart n) s = .next t ∧ SameBytes s t ∧
        (t.frameAt n f).state = .parked ∧ (t.frameAt n f).park = some (.locks oid fr trig) ∧
        (t.ctxAt k).lockOf oid p = (s.ctxAt k).lockOf oid p ∧
        ∀ q ∈ d.stripes, (∀ r ∈ d.stripes, r ≤ q → FreeOrLent s k oid trig r) →
          ∃ l, (t.ctxAt k).lockOf oid q = some l ∧ l.core = n ∧ l.frame = f)) ∧
    (∀ m v, s.upcallVersion n = some (m, v) → ∀ pc, pc = (s.coreAt n).fupc.extractLsb' 0 32 →
      (∀ k g seq g1 g2 g3 g4, s.nextStart n (fun u => match u with | .frameFault _ _ _ _ _ _ _ _ => true | _ => false) =
          some (.frameFault k g seq g1 g2 g3 g4 false) →
        ∃ t, exec (.faultUpcall n) s = .next t ∧
          Starts n f m v pc [(1, g1), (2, g2), (3, g3), (4, g4), (9, 1)] (BitVec.ofNat 64 (seq.toNat * 2 ^ 32 + g)) false s t) ∧
      (∀ k die index seq g1 g2 g3 g4, s.nextStart n (fun u => match u with | .memory _ _ _ _ _ _ _ _ => true | _ => false) =
          some (.memory k die index seq g1 g2 g3 g4) →
        ∃ t, exec (.memorySideUpcall n) s = .next t ∧
          Starts n f m v pc [(1, g1), (2, g2), (3, g3), (4, g4), (9, 2)]
            (BitVec.ofNat 64 (seq.toNat * 2 ^ 32 + 2 ^ 31 + die * 1024 + index)) false s t) ∧
      (∀ k g1 g2 g3, s.nextStart n (fun u => match u with | .page _ _ _ _ => true | _ => false) = some (.page k g1 g2 g3) →
        ∃ t, exec (.pageRequestUpcall n) s = .next t ∧
          Starts n f m v pc [(1, g1), (2, g2), (3, g3), (9, 3)] 0 false s t) ∧
      (∀ k g seq g1 g2 g3, s.nextStart n (fun u => match u with | .trap _ _ _ _ _ _ => true | _ => false) =
          some (.trap k g seq g1 g2 g3) →
        ∃ t, exec (.trapUpcall n) s = .next t ∧
          Starts n f m v pc [(1, g1), (2, g2), (3, g3), (4, BitVec.ofNat 64 g), (9, 4)] (BitVec.ofNat 64 (seq.toNat * 2 ^ 32 + g)) false s t))

/-- Requests from other cores served at their home, and their answers received. -/
def Obligations.RemoteAccess : Prop :=
  Sys2Proof.Says.RemoteRequestsServed ∧ Sys2Proof.Says.RemoteAnswersReceived

/-- MQRY, OBJVER and MPURGE. -/
def Obligations.ModuleQueriesAndPurges : Prop :=
  Sys2Proof.Says.ModuleAndObjectQueries ∧ Sys2Proof.Says.ModulePurges

/-- Converters and upcalls: how they start (a converter takes its frame before its locks: log 27), and CVTEND. -/
def Obligations.ConvertersAndUpcalls : Prop :=
  Sys2Proof.Says.ConversionEnds ∧ Sys2Proof.Says.ConvertersAndUpcallsStart

namespace Sys2Proof.Says

/-- The request q stands at the end of the FIFO of the current core (R192), pushed by the current frame. -/
def Pushed (s t : State) (kind : CopyKind) (src dst : Cap) (w : Word) (bar : Cap) : Prop :=
  ∃ q : CopyReq, (t.coreAt s.core).fifo = (s.coreAt s.core).fifo ++ [q] ∧ q.core = s.core ∧ q.frame = s.frame ∧
    q.ctx = s.ctxOf s.core ∧ q.kind = kind ∧ q.src = src ∧ q.dst = dst ∧ q.word = w ∧ q.bar = bar ∧ q.done = [] ∧ q.held = []

/-- What a push waits for is there: earlier accesses acknowledged and performed, no update under way to the barrier's home. -/
def MayPush (s : State) (home : Nat) : Prop :=
  s.cur.posted = [] ∧ s.cur.park = none ∧ s.buffered s.core s.frame = false ∧ s.barSettled home = .ok ()

/-- The push waits in place until the home of its barrier, on another device, has added to it; no request has entered yet. -/
def AddsFirst (s t : State) : Prop :=
  t.cur.wait = some (.pushing s.nextId) ∧ t.cur.state = .running ∧ t.cur.pc = s.cur.pc ∧
    (t.coreAt s.core).fifo = (s.coreAt s.core).fifo ∧ SameBytes s t

/-- The bytes from a up belong to no descriptor and no page-map entry of a tenant. -/
def ClearOfTables (s : State) (a n : Nat) : Prop :=
  ∀ p ∈ s.contexts, (a + n ≤ dieAddr 0 p.2.tableBase ∨ dieAddr 0 p.2.tableBase + 64 * p.2.tableLen ≤ a) ∧
    s.mapEntries p.2 a n = []

/-- No byte of the n bytes from a up is one of the barrier's that a request names. -/
def ClearOfBarrier (s : State) (q : CopyReq) (a n : Nat) : Prop :=
  ∀ x, s.barAddr q.ctx q.bar.oid q.bar.base.toNat = some x → a + n ≤ x ∨ x + 12 ≤ a

/-- Sector i of the accepted request q can be performed: it has not been, it waits in no fault queue, it may go next, and its
destination lies in one piece at b (R196). -/
structure SectorReady (s : State) (cl : Nat) (q : CopyReq) (i : Nat) (dd : Desc) (b : Nat) : Prop where
  found  : (s.clusterAt cl).accepted.find? (fun r => decide (r.id = q.id)) = some q
  left   : i ∈ q.left
  free   : i ∉ q.held
  idle   : q.busy i = false
  goes   : q.ending ≠ 3
  first  : q.inOrder i = true
  digest : wordDigest q.word = false
  live   : s.liveAt (s.ctxAt q.ctx) q.dst.oid = some dd
  place  : ∃ g, s.enginePieces (s.ctxAt q.ctx) dd (q.sector i).dst (q.sector i).len (cl / 128) true =
    .ok [⟨(q.sector i).dst, (q.sector i).len, .here b g⟩]
  keyed  : Keyed s q.ctx b (q.sector i).len

/-- The first n bytes of the window of a capability lie from a flat address up, in memory that an engine of a die reaches: it
exists, holds no uncorrectable error and is under the tenant's key. -/
structure WindowAt (s : State) (k die : Nat) (c : Cap) (n a : Nat) : Prop where
  live  : ∃ d, s.liveAt (s.ctxAt k) c.oid = some d ∧
    ∀ i, i < n → ∃ g, s.placeOf (s.ctxAt k) d (c.base.toNat + i) die = .here (a + i) g
  spans : n ≤ 2 ^ 35 ∧ spanExists a n = true
  sound : s.badAt a n = none
  keyed : Keyed s k a n

end Sys2Proof.Says

/-- R195, R193, R400, R402, R198, R401: QPUSH, QPUSHT and QGATH that pass their checks put one request into the FIFO of the core, after
PEND of its barrier has grown by the bytes to be moved, which for a barrier of another device they wait for in place; where the FIFO is
full QPUSH and QGATH park and QPUSHT answers -1; a request word with a zero-field set raises ILLEGAL. -/
def Obligations.CopyRequestsEnter : Prop :=
  ∀ s : State, s.frame < 11 → memWf s.mem = true → ∀ (b d c : BitVec 4) (l : BitVec 5) (o : Desc) (off home addr : Nat),
    s.pushing = false → BarrierAt s (s.cur.cap b) o off home →
    (∀ os, wordBad (s.cur.gpr l) = false → s.pushChecks (s.cur.cap c) (s.cur.cap d) (s.cur.gpr l) = .ok os →
      (∀ q ∈ os.1, s.layoutCheck s.core s.frame q.1 q.2 = .ok () ∧ (s.far q.2 = false ∨ s.frame = 10)) →
      (s.fifoFull = true →
        (s.cur.park = none → WritesG (.qpusht b l d c) s l (-1) 4) ∧
        (MayPark s → ∃ t, exec (.qpush b l d c) s = .next t ∧ Parks (.engine false (s.cur.place.getD s.steps)) s t)) ∧
      (s.fifoFull = false → MayPush s home → s.far o = true → wordCh (s.cur.gpr l) ≠ 7 →
        (∃ t, exec (.qpush b l d c) s = .next t ∧ AddsFirst s t) ∧ (∃ t, exec (.qpusht b l d c) s = .next t ∧ AddsFirst s t)) ∧
      (s.fifoFull = false → MayPush s home → s.far o = false → s.barAddr (s.ctxOf s.core) o.oid off = some addr →
        s.badAt addr 12 = none → ∀ kind,
        kind = (if wordCh (s.cur.gpr l) = 7 then CopyKind.media else .plain) →
        (∃ t, exec (.qpush b l d c) s = .next t ∧ Pushed s t kind (s.cur.cap c) (s.cur.cap d) (s.cur.gpr l) (s.cur.cap b) ∧
          (wordCh (s.cur.gpr l) = 7 → SameBytes s t) ∧
          (wordCh (s.cur.gpr l) ≠ 7 → Updates (.add (wordLen (s.cur.gpr l))) addr s t) ∧
          { t.cur with pc := s.cur.pc } = s.cur ∧ PcPast 4 s t) ∧
        (∃ t, exec (.qpusht b l d c) s = .next t ∧ Pushed s t kind (s.cur.cap c) (s.cur.cap d) (s.cur.gpr l) (s.cur.cap b) ∧
          (wordCh (s.cur.gpr l) = 7 → SameBytes s t) ∧
          (wordCh (s.cur.gpr l) ≠ 7 → Updates (.add (wordLen (s.cur.gpr l))) addr s t) ∧
          { t.cur with g := s.cur.g, pc := s.cur.pc } = s.cur ∧ PcPast 4 s t ∧ t.cur.gpr l = 0 ∧
          ∀ r, r ≠ l → t.cur.gpr r = s.cur.gpr r))) ∧
    (∀ (k : BitVec 3) (v : BitVec 5) (sd dd : Desc) (a e : Nat → Nat) (rows : List (Nat × Nat)) (q : Nat),
      q = s.cur.qrowlen.toNat → 0 < q → q ≤ 65536 →
      rows = ((List.range 32).filter (s.cur.guards k)).map (fun i => (i, (lane (s.cur.vreg v) i).toNat)) →
      (∀ r ∈ rows, s.access s.core (s.cur.cap c) ↑(r.2 * q) q 1 1 [1] .copyUnit false = .ok (sd, a r.1) ∧
        s.access s.core (s.cur.cap d) ↑(r.1 * q) q 1 2 [1, 6] .copyUnit false = .ok (dd, e r.1)) →
      s.layoutCheck s.core s.frame (s.cur.cap c) sd = .ok () → s.layoutCheck s.core s.frame (s.cur.cap d) dd = .ok () →
      (s.far sd = false ∨ s.frame = 10) → (s.far dd = false ∨ s.frame = 10) →
      (s.fifoFull = true → MayPark s → ∃ t, exec (.qgath k b v d c) s = .next t ∧ Parks (.engine false (s.cur.place.getD s.steps)) s t) ∧
      (s.fifoFull = false → MayPush s home → s.far o = true → ∃ t, exec (.qgath k b v d c) s = .next t ∧ AddsFirst s t) ∧
      (s.fifoFull = false → MayPush s home → s.far o = false → s.barAddr (s.ctxOf s.core) o.oid off = some addr →
        s.badAt addr 12 = none → ∃ t, exec (.qgath k b v d c) s = .next t ∧
          Pushed s t (.gather rows q) (s.cur.cap c) (s.cur.cap d) 0 (s.cur.cap b) ∧
          Updates (.add (q * rows.length)) addr s t ∧ { t.cur with pc := s.cur.pc } = s.cur ∧ PcPast 4 s t)) ∧
    (TrapsFree s.core s.frame s →
      (∀ w, s.cur.gpr l = w → (w.extractLsb' 51 5 ≠ 0 ∨ w.extractLsb' 43 5 ≠ 0 ∨ w.extractLsb' 36 4 ≠ 0 ∨
          (w.extractLsb' 40 3 = 7 ∧ (w.extractLsb' 0 36 ≠ 0 ∨ w.extractLsb' 48 16 ≠ 0))) →
        Traps (.qpush b l d c) s ILLEGAL w ∧ Traps (.qpusht b l d c) s ILLEGAL w) ∧
      ((s.cur.qrowlen = 0 ∨ 65536 < s.cur.qrowlen.toNat) → ∀ k v, Traps (.qgath k b v d c) s ILLEGAL s.cur.qrowlen))

/-- R192, R196, R199, R206, R208, R209: the copy unit takes the oldest request of a FIFO, with the bank selected then, and a media kick
goes to the encoders; a sector writes its bytes where its destination lies, FILLB with FILL; a sector that copies leaves every byte but
those and the barrier's as it was, is not performed again, and ends the request when it is the last; one that fills a channel at its
watermark moves the watermark past itself. A request whose destination is gone is aborted, once what it has under way is performed (log
111): the
bytes of the rest are subtracted and its arrival is counted with ERR. -/
def Sys2Proof.Says.CopyUnitWorks : Prop :=
  ∀ s : State, memWf s.mem = true →
    (∀ (n : Nat) (q : CopyReq) (qs : List CopyReq), (s.coreAt n).fifo = q :: qs →
      (q.kind = .media → ∃ t r, exec (.requestAccept n) s = .next t ∧ (t.coreAt n).fifo = qs ∧
        (t.dieAt (dieOf n)).mediaQ = (s.dieAt (dieOf n)).mediaQ ++ [r] ∧ r.id = q.id ∧ SameBytes s t) ∧
      (q.kind ≠ .media → 0 < q.count → (∀ r ∈ (s.clusterAt (clusterOf n)).accepted, s.jammed r.intake = false) →
        ∃ t, exec (.requestAccept n) s = .next t ∧ (t.coreAt n).fifo = qs ∧
        (t.clusterAt (clusterOf n)).accepted = (s.clusterAt (clusterOf n)).accepted ++
          [{ q with bank := (s.clusterAt (clusterOf n)).copyBank }] ∧ SameBytes s t)) ∧
    (∀ cl q i dd b, SectorReady s cl q i dd b → ClearOfTables s b (q.sector i).len → ClearOfBarrier s q b (q.sector i).len →
      (wordFill q.word = true → ∃ t, exec (.copySector cl q.id i) s = .next t ∧
        ∀ j, j < (q.sector i).len → memGet t.mem (b + j) = q.word.extractLsb' 56 8) ∧
      (∀ sd a, wordFill q.word = false → q.readsAhead = false → (∀ g ∈ q.intake.got, g.1 ≠ i) →
        s.liveAt (s.ctxAt q.ctx) q.src.oid = some sd → Keyed s q.ctx a (q.sector i).len →
        (∃ g, s.enginePieces (s.ctxAt q.ctx) sd (q.sector i).src (q.sector i).len (cl / 128) false =
          .ok [⟨(q.sector i).src, (q.sector i).len, .here a g⟩]) →
        ∃ t, exec (.copySector cl q.id i) s = .next t ∧
          (∀ j, j < (q.sector i).len → memGet t.mem (b + j) = memGet s.mem (a + j)) ∧
          (∀ x, ¬ (b ≤ x ∧ x < b + (q.sector i).len) →
            (∀ y, s.barAddr q.ctx q.bar.oid q.bar.base.toNat = some y → ¬ (y ≤ x ∧ x < y + 12)) →
            memGet t.mem x = memGet s.mem x) ∧
          (∀ r ∈ (t.clusterAt cl).accepted, r.id = q.id → i ∈ r.done ∧ i ∉ r.left) ∧
          (q.left = [i] → ∀ r ∈ (t.clusterAt cl).accepted, r.id ≠ q.id) ∧
          (∀ ch, q.kind = .plain → look (s.clusterAt cl).channels (wordCh q.word) = some ch → ch.arm = true →
            ch.oid = q.dst.oid → ch.ctx = q.ctx → (q.sector i).dst = ch.rbase + ch.w →
            ch.w + (q.sector i).len ≤ ch.rlen →
            ∃ c2, look (t.clusterAt cl).channels (wordCh q.word) = some c2 ∧ ch.w + (q.sector i).len ≤ c2.w))) ∧
    (∀ cl q i, (s.clusterAt cl).accepted.find? (fun r => decide (r.id = q.id)) = some q → (i ∈ q.done ∨ i ∈ q.held) →
      exec (.copySector cl q.id i) s = .next s) ∧
    (∀ cl q i, (s.clusterAt cl).accepted.find? (fun r => decide (r.id = q.id)) = some q → i ∈ q.left → i ∉ q.held →
      q.busy i = false → q.inOrder i = true → q.ending ≠ 3 → s.liveAt (s.ctxAt q.ctx) q.dst.oid = none →
      (q.wsent ≠ [] → ∃ t, exec (.copySector cl q.id i) s = .next t ∧ SameBytes s t ∧
        ∀ r ∈ (t.clusterAt cl).accepted, r.id = q.id → r.ending = 3 ∧ r.wsent = q.wsent) ∧
      (∀ bd addr, q.wsent = [] → s.liveAt (s.ctxAt q.ctx) q.bar.oid = some bd → s.far bd = false →
        s.barAddr q.ctx bd.oid q.bar.base.toNat = some addr → s.badAt addr 12 = none →
        (barAt s.mem addr).arr ≤ (barAt s.mem addr).exp →
        ∃ t, exec (.copySector cl q.id i) s = .next t ∧ Updates (.abortArrive q.bytesLeft) addr s t ∧
          ∀ r ∈ (t.clusterAt cl).accepted, r.id ≠ q.id)) ∧
    (∀ cl bank, ∃ t, exec (.copyBankSelect cl bank) s = .next t ∧ (t.clusterAt cl).copyBank = bank ∧
      (t.clusterAt cl).accepted = (s.clusterAt cl).accepted ∧ ∀ m, m ≠ cl → t.clusterAt m = s.clusterAt m)

/-- R445, R205: WMSET arms a channel of the cluster's copy unit over its window, or disarms it with c0; WMGET reads the watermark, -1 where
the channel is not armed; a channel above 6 raises ILLEGAL; the checks of WMSET's capability. -/
def Sys2Proof.Says.Watermarks : Prop :=
  ∀ s : State, s.frame < 11 → ∀ (n : BitVec 5) (c : BitVec 4),
    ((s.cur.gpr n).toNat ≤ 6 →
      (∃ t, exec (.wmset n 0) s = .next t ∧ OnlyPc s { t with clusters := s.clusters } ∧ PcPast 4 s t ∧
        ∃ x, look (t.clusterAt (clusterOf s.core)).channels (s.cur.gpr n).toNat = some x ∧ x.arm = false) ∧
      (∀ o, (s.cur.cap c).tag = true → (s.cur.cap c).kind = 1 → (s.cur.cap c).rights.getLsbD 0 = true →
        s.liveAt (s.ctxAt (s.ctxOf s.core)) (s.cur.cap c).oid = some o → s.reachRefused s.core o .copyUnit true = false →
        s.far o = false → c ≠ 0 →
        dieOf (s.homeOf (s.ctxAt (s.ctxOf s.core)) o (o.stripe (s.cur.cap c).base.toNat) % 4096) = dieOf s.core →
        ∃ t x, exec (.wmset n c) s = .next t ∧ OnlyPc s { t with clusters := s.clusters } ∧ PcPast 4 s t ∧
          look (t.clusterAt (clusterOf s.core)).channels (s.cur.gpr n).toNat = some x ∧ x.arm = true ∧ x.w = 0 ∧
          x.oid = (s.cur.cap c).oid ∧ x.rbase = (s.cur.cap c).base.toNat ∧ x.rlen = (s.cur.cap c).len.toNat ∧
          (∀ i, i ≠ (s.cur.gpr n).toNat → look (t.clusterAt (clusterOf s.core)).channels i =
            look (s.clusterAt (clusterOf s.core)).channels i) ∧
          ∀ m, m ≠ clusterOf s.core → t.clusterAt m = s.clusterAt m) ∧
      (∀ x, look (s.clusterAt (clusterOf s.core)).channels (s.cur.gpr n).toNat = some x → x.arm = true →
        WritesG (.wmget n) s n (BitVec.ofNat 64 x.w) 4) ∧
      ((∀ x, look (s.clusterAt (clusterOf s.core)).channels (s.cur.gpr n).toNat = some x → x.arm = false) →
        WritesG (.wmget n) s n (-1) 4)) ∧
    (TrapsFree s.core s.frame s →
      (6 < (s.cur.gpr n).toNat → Traps (.wmset n c) s ILLEGAL (s.cur.gpr n) ∧ Traps (.wmget n) s ILLEGAL (s.cur.gpr n)) ∧
      ((s.cur.gpr n).toNat ≤ 6 → c ≠ 0 →
        ((s.cur.cap c).tag = false → Traps (.wmset n c) s CAPTAG 0) ∧
        ((s.cur.cap c).tag = true → (s.cur.cap c).kind ≠ 1 → Traps (.wmset n c) s CAPKIND 0) ∧
        ((s.cur.cap c).tag = true → (s.cur.cap c).kind = 1 → (s.cur.cap c).rights.getLsbD 0 = false →
          Traps (.wmset n c) s CAPRIGHT 1)))

/-- R209 to R211: an idle encoder takes the oldest kick of its die, when no running job names its reference state; a job whose fields are
out of range ends with JSTAT 1 and OUTLEN 0, one whose bitstream is longer than its window with JSTAT 2, OUTLEN 0 and every other byte
as it was; a job that ends well has written the bitstream (the encoder's, which the event carries: the model's choice of log 23), one
temporal unit, to the start of the window.
A plane's window that is too short counts as such a field: the model's choice of log 87. -/
def Obligations.MediaJobs : Prop :=
  ∀ (s : State) (die : Nat) (q : CopyReq) (j : MediaJob) (a : Nat), q.intake = Intake.empty → WindowAt s q.ctx die q.src 96 a →
    j = mediaParse (memBytes s.mem a 96, s.tagsOf q.src.base.toNat a 96) →
    (∀ qs, (s.dieAt die).mediaQ = q :: qs → (s.dieAt die).media.length < 6 →
      (∀ r ∈ (s.dieAt die).media, s.jammed r.intake = false ∧
        (r.ctx ≠ q.ctx ∨ ∀ k, r.mediaJob = some k → k.refcap.oid ≠ j.refcap.oid)) →
      ∃ t r, exec (.mediaJobAccept die) s = .next t ∧ (t.dieAt die).mediaQ = qs ∧
        (t.dieAt die).media = (s.dieAt die).media ++ [r] ∧ { r with intake := q.intake } = q ∧ { t with dies := s.dies } = s) ∧
    (∀ (bits recon : List Byte), memWf s.mem = true →
      (s.dieAt die).media.find? (fun r => decide (r.id = q.id)) = some q → s.heldBack (mediaWriteRecord die q.id) = false →
      q.wsent = [] → q.result = none → ClearOfTables s (a + 64) 12 → ClearOfBarrier s q (a + 64) 12 →
      (s.mediaBad q.ctx j = true → ∃ t, exec (.mediaJobEnd die q.id bits recon) s = .next t ∧
        leNat (memBytes t.mem (a + 64) 8) = 0 ∧ leNat (memBytes t.mem (a + 72) 4) = 1 ∧
        ∀ r ∈ (t.dieAt die).media, r.id ≠ q.id) ∧
      (s.mediaBad q.ctx j = false → temporalUnit (decide (j.fl = 1)) bits = true →
        (∀ o ∈ mediaReads die q j, ∃ b, WindowAt s q.ctx die o.cap o.len b) →
        (q.dst.len.toNat < bits.length → ∃ t, exec (.mediaJobEnd die q.id bits recon) s = .next t ∧
          leNat (memBytes t.mem (a + 64) 8) = 0 ∧ leNat (memBytes t.mem (a + 72) 4) = 2 ∧
          (∀ x, ¬ (a + 64 ≤ x ∧ x < a + 76) →
            (∀ y, s.barAddr q.ctx q.bar.oid q.bar.base.toNat = some y → ¬ (y ≤ x ∧ x < y + 12)) →
            memGet t.mem x = memGet s.mem x)) ∧
        (bits.length ≤ q.dst.len.toNat → ∀ x y,
          WindowAt s q.ctx die j.refcap (min recon.length (4 * j.area)) y → WindowAt s q.ctx die q.dst bits.length x →
          ClearOfTables s y (min recon.length (4 * j.area)) → ClearOfTables s x bits.length →
          ClearOfBarrier s q x bits.length → (x + bits.length ≤ a + 64 ∨ a + 76 ≤ x) →
          ∃ t, exec (.mediaJobEnd die q.id bits recon) s = .next t ∧ leNat (memBytes t.mem (a + 64) 8) = bits.length ∧
            leNat (memBytes t.mem (a + 72) 4) = 0 ∧ memBytes t.mem x bits.length = bits)))

/-- The copy unit's work, and the watermark registers. -/
def Obligations.CopyUnit : Prop :=
  Sys2Proof.Says.CopyUnitWorks ∧ Sys2Proof.Says.Watermarks

namespace Sys2Proof.Says

/-- The job that MMJOB of the current frame makes (R183). -/
structure IsJob (s : State) (m : BitVec 5) (b a : BitVec 4) (j : Job) : Prop where
  id    : j.id = (s.coreAt s.core).nextJob.toNat ∧ j.uid = s.nextId ∧ j.core = s.core ∧ j.ctx = s.ctxOf s.core
  ctx   : j.fctx0 = s.cur.fctx0 ∧ j.bank = (s.clusterAt (clusterOf s.core)).matBank ∧ j.failed = false
  shape : j.m = (s.cur.gpr m).toNat ∧ j.n = (s.cur.gpr (m + 1)).toNat ∧ j.k = (s.cur.gpr (m + 2)).toNat ∧ j.w = s.cur.gpr (m + 3)
  fresh : j.intake = Intake.empty ∧ j.blocks = []
  caps  : j.capA = s.cur.cap a ∧ j.capAs = s.cur.cap (a + 1) ∧ j.capB = s.cur.cap b ∧ j.capBs = s.cur.cap (b + 1)

/-- The shape that R182 and R183 accept. -/
def GoodShape (m n k w : Word) : Prop :=
  1 ≤ m.toNat ∧ m.toNat ≤ 128 ∧ 1 ≤ n.toNat ∧ n.toNat ≤ 128 ∧ 1 ≤ k.toNat ∧ k.toNat ≤ 65535 ∧ w.extractLsb' 31 33 = 0 ∧
    w.getLsbD 23 = false ∧ w.extractLsb' 9 7 = 0 ∧ w.extractLsb' 2 6 = 0 ∧ (w.extractLsb' 16 7).toNat + m.toNat ≤ 128 ∧
    (w.extractLsb' 24 7).toNat + n.toNat ≤ 128

/-- The first word that MMCTX takes (R179). -/
def GoodContext (w : Word) : Prop :=
  w.extractLsb' 14 50 = 0 ∧
  ((w.extractLsb' 0 4).toNat, (w.extractLsb' 4 4).toNat) ∈
    [(0, 0), (1, 1), (1, 2), (1, 3), (1, 4), (2, 1), (2, 2), (2, 3), (2, 4), (3, 1), (3, 2), (3, 3), (3, 4), (4, 1), (4, 2),
      (4, 3), (4, 4), (5, 5), (6, 6), (7, 7), (7, 8), (8, 7), (8, 8), (9, 9)] ∧
  1 ≤ (w.extractLsb' 8 4).toNat ∧ (w.extractLsb' 8 4).toNat ≤ 6 ∧
  ((w.extractLsb' 8 4).toNat = 6 → 7 ≤ (w.extractLsb' 0 4).toNat ∧ (w.extractLsb' 0 4).toNat ≤ 8)

/-- No accepted, unfinished job of the current core is on tile t. -/
def TileQuiet (s : State) (t : Nat) : Prop := ∀ j ∈ s.jobsOf s.core, jobTile j ≠ t

/-- An int8 element (R189): s8 for code 7, n8 for code 8. -/
def intElem (c : Nat) (b : Byte) : Int := if c = 7 then b.toInt else b.toNat

/-- The bits of element e of a row of nb blocks, of an operand from address x up, by format code (R167, R179, R180). -/
def elemBitsAt (s : State) (x c nb row e : Nat) : Nat :=
  let blk := x + (row * nb + e / 32) * (if c = 0 then 16 else if c = 5 ∨ c = 6 then 64 else 32)
  let p := e % 32
  if c = 0 then (memGet s.mem (blk + p / 2)).toNat / 16 ^ (p % 2) % 16
  else if c = 5 ∨ c = 6 then (memGet s.mem (blk + 2 * p)).toNat + 256 * (memGet s.mem (blk + 2 * p + 1)).toNat
  else (memGet s.mem (blk + p)).toNat

/-- The value of an element in its format, or through the job's lut8 bank (R166, R179, R189). -/
def elemAt (s : State) (j : Job) (x c nb row e : Nat) : Fp :=
  let n := elemBitsAt s x c nb row e
  if c = 9 then (s.coreAt j.core).lutEntry (bitsOf j.fctx0.toNat 13 13) n
  else (if c = 0 then e2m1 else if c = 1 ∨ c = 3 then e4m3 else if c = 2 ∨ c = 4 then e5m2 else if c = 5 then bf16 else f16).value n

/-- The pairs of floating element codes (R179). -/
def FloatPair (a b : Nat) : Prop :=
  (a = 0 ∧ b = 0) ∨ (1 ≤ a ∧ a ≤ 4 ∧ 1 ≤ b ∧ b ≤ 4) ∨ (a = b ∧ (a = 5 ∨ a = 6 ∨ a = 9))

/-- The exponent q of the grid of an output (R186 step 3), whose blocks t < nb have the partial sums S t and the exponents x t: for MXFP4
and FP8 it is g above the largest exponent, for the others 71 below the place of the largest partial sum. -/
def IsGrid (a b nb : Nat) (S : Nat → ℝ) (x : Nat → ℤ) (q : ℤ) : Prop :=
  (a ≤ 4 → ∃ t < nb, (∀ u < nb, x u ≤ x t) ∧ q = x t + (if a = 0 then -26
    else if (a = 1 ∨ a = 3) ∧ (b = 1 ∨ b = 3) then -42 else if (a = 2 ∨ a = 4) ∧ (b = 2 ∨ b = 4) then -47 else -49)) ∧
  (4 < a → (∃ t < nb, (2 : ℝ) ^ (q + 71) ≤ |S t|) ∧ ∀ t < nb, |S t| < (2 : ℝ) ^ (q + 72))

/-- The sum of the blocks, each truncated toward zero on the grid (R186 step 3). -/
def GridSum (a b nb : Nat) (S : Nat → ℝ) (x : Nat → ℤ) (y : ℝ) : Prop :=
  ((∀ t < nb, S t = 0) ∧ y = 0) ∨ ∃ q : ℤ, IsGrid a b nb S x q ∧
    y = ∑ t ∈ Finset.range nb, (if S t < 0 then -1 else 1) * (⌊|S t| * (2 : ℝ) ^ (x t) / (2 : ℝ) ^ q⌋ : ℝ) * (2 : ℝ) ^ q

/-- The first rounding r of output (i, k) of a floating job whose operand o lies from addr o up (R186 steps 1 to 4, R187, R188). -/
def FirstRounding (s : State) (j : Job) (addr : Nat → Nat) (i k : Nat) (r : Lane) : Prop :=
  let a := ctxA j.fctx0
  let b := ctxB j.fctx0
  let nb := (j.k + 31) / 32
  let p (e : Nat) : Fp := (elemAt s j (addr 0) a nb i e).mul (elemAt s j (addr 1) b nb k e)
  let scaled (c : Nat) : Prop := c = 0 ∨ c = 3 ∨ c = 4
  ∀ sa sb : Nat → Nat,
    (∀ t, (scaled a → sa t = (memGet s.mem (addr 2 + (i * nb + t))).toNat) ∧ (¬ scaled a → sa t = 127)) →
    (∀ t, (scaled b → ∀ o, (scaled a → o = 3) → (¬ scaled a → o = 2) → sb t = (memGet s.mem (addr o + (k * nb + t))).toNat) ∧
      (¬ scaled b → sb t = 127)) →
    ((∃ e < j.k, p e = .nan) ∨ (∃ t < nb, sa t = 255 ∨ sb t = 255) ∨
      (∃ e < j.k, ∃ f < j.k, p e = .inf true ∧ p f = .inf false) → r = 0x7FC00000) ∧
    ((∀ t < nb, sa t ≠ 255 ∧ sb t ≠ 255) →
      (∀ n, (∃ e < j.k, p e = .inf n) → (∀ e < j.k, p e ≠ .nan ∧ p e ≠ .inf (!n)) → r = if n then 0xFF800000 else 0x7F800000) ∧
      (∀ v : Nat → ℝ, (∀ e < j.k, IsReal (p e) (v e)) →
        ∃ y, GridSum a b nb (fun t => ∑ e ∈ Finset.range 32, if 32 * t + e < j.k then v (32 * t + e) else 0)
          (fun t => (sa t : ℤ) - 127 + ((sb t : ℤ) - 127)) y ∧ Rounds y r))

end Sys2Proof.Says

/-- R385, R179, R183, R386, R191, R387, R185, R389: MMCTX replaces the format context or raises ILLEGAL; MMJOB answers -1 for a bad
shape, and for a good one puts the job into the queue of the cluster with the core's next id, which it answers, or parks where the
queue is full; MMWAIT answers the status of an ended job, -1 without a record, and parks for one that runs; MMZERO clears the tile once
no job on it is unfinished, and waits in place until then. -/
def Obligations.MatrixInstructions : Prop :=
  ∀ s : State, s.frame < 11 → ∀ (m d : BitVec 5) (a b : BitVec 4),
    (GoodContext (s.cur.gpr m) → ∃ t, exec (.mmctx m) s = .next t ∧ Elsewhere s t ∧ PcPast 4 s t ∧
      t.cur.fctx0 = s.cur.gpr m ∧ t.cur.fctx1 = s.cur.gpr (m + 1) ∧
      { t.cur with fctx0 := s.cur.fctx0, fctx1 := s.cur.fctx1, pc := s.cur.pc } = s.cur) ∧
    (TrapsFree s.core s.frame s → ¬ GoodContext (s.cur.gpr m) → Traps (.mmctx m) s ILLEGAL (s.cur.gpr m)) ∧
    (¬ GoodShape (s.cur.gpr m) (s.cur.gpr (m + 1)) (s.cur.gpr (m + 2)) (s.cur.gpr (m + 3)) →
      WritesG (.mmjob m b a d) s d (-1) 4) ∧
    (∀ j, GoodShape (s.cur.gpr m) (s.cur.gpr (m + 1)) (s.cur.gpr (m + 2)) (s.cur.gpr (m + 3)) → IsJob s m b a j →
      (∀ q ∈ j.operands, ∃ r, s.access s.core q.1 0 q.2 1 1 [1] .engine false = .ok r) →
      (ctxA s.cur.fctx0 = 9 → s.bankLoading s.core (ctxLut s.cur.fctx0) = false) →
      (s.jobsFull = true → MayPark s → ∃ t, exec (.mmjob m b a d) s = .next t ∧ Parks (.engine true s.steps) s t) ∧
      (s.jobsFull = false → s.cur.posted = [] → s.cur.park = none → s.buffered s.core s.frame = false →
        ∃ t, exec (.mmjob m b a d) s = .next t ∧
          (t.clusterAt (clusterOf s.core)).jobs = (s.clusterAt (clusterOf s.core)).jobs ++ [j] ∧
          (t.coreAt s.core).nextJob = (s.coreAt s.core).nextJob + 1 ∧ look (t.coreAt s.core).records j.id = some none ∧
          { t.cur with g := s.cur.g, pc := s.cur.pc } = s.cur ∧ PcPast 4 s t ∧ t.cur.gpr d = (if d = 0 then 0 else
            BitVec.ofNat 64 j.id) ∧ (∀ r, r ≠ d → t.cur.gpr r = s.cur.gpr r) ∧ SameBytes s t)) ∧
    ((∀ i v, (s.cur.gpr d).toNat = i → i ≤ 255 → look (s.coreAt s.core).records i = some (some v) →
        ∃ t, exec (.mmwait d) s = .next t ∧ t.cur.gpr d = (if d = 0 then 0 else BitVec.ofInt 64 v) ∧ PcPast 4 s t ∧
          (∀ r, r ≠ d → t.cur.gpr r = s.cur.gpr r) ∧ look (t.coreAt s.core).records i = none ∧
          ∀ k, k ≠ i → look (t.coreAt s.core).records k = look (s.coreAt s.core).records k) ∧
      ((255 < (s.cur.gpr d).toNat ∨ look (s.coreAt s.core).records (s.cur.gpr d).toNat = none) →
        WritesG (.mmwait d) s d (-1) 4) ∧
      ((s.cur.gpr d).toNat ≤ 255 → look (s.coreAt s.core).records (s.cur.gpr d).toNat = some none → MayPark s →
        ∃ t, exec (.mmwait d) s = .next t ∧ Parks (.job d (s.cur.gpr d).toNat) s t)) ∧
    (∀ x, (s.cur.gpr m).extractLsb' 2 62 = 0 → x = ((s.cur.gpr m).extractLsb' 0 2).toNat → s.cur.wait = none →
      (TileQuiet s x → ∃ t, exec (.mmzero m) s = .next t ∧ PcPast 4 s t ∧ { t.cur with pc := s.cur.pc } = s.cur ∧
        SameBytes s t ∧ ∀ y r c, y < 4 → r < 128 → c < 128 → (t.coreAt s.core).tileWord y r c =
          if y = x then 0 else (s.coreAt s.core).tileWord y r c) ∧
      (¬ TileQuiet s x → (∀ j ∈ s.jobsOf s.core, j.uid < s.nextId) →
        ∃ t, exec (.mmzero m) s = .next t ∧ Elsewhere s t ∧ t.cur.wait = some (.tile x s.nextId) ∧
        { t.cur with wait := s.cur.wait, state := s.cur.state } = s.cur)) ∧
    (TrapsFree s.core s.frame s → (s.cur.gpr m).extractLsb' 2 62 ≠ 0 → Traps (.mmzero m) s ILLEGAL (s.cur.gpr m))

/-- R388, R174, R190, R390: MMLDT of a near table writes the entries of its bank and no others, an entry being the value's upper 19
bits where the value is exact in E8M10; MMDRAIN of a quiet tile enters its words into the store buffer in row-major order, each one
rounding of the exact product with TSA and TSB, or the raw word for s32; registers that break the limits raise ILLEGAL. -/
def Obligations.MatrixTablesAndDrains : Prop :=
  ∀ s : State, s.frame < 11 → ∀ (m : BitVec 5) (a : BitVec 4),
    (∀ o base (addr : Nat → Nat), (s.cur.gpr m).extractLsb' 1 31 = 0 → (s.cur.gpr m).extractLsb' 32 2 = 0 →
      Passed s (s.cur.cap a) ((s.cur.gpr m).extractLsb' 32 32).toNat 1024 4 1 [1] false o base → s.cur.park = none →
      s.stalled s.core o.oid base (base + 1024) = false → o.pageReg = false →
      (s.jobsOf s.core).any (usesBank ((s.cur.gpr m).extractLsb' 0 1).toNat) = false →
      (∀ i, i < 256 → Near s o (base + 4 * i) (addr i) 4) →
      ∃ t, exec (.mmldt m a) s = .next t ∧ PcPast 4 s t ∧ { t.cur with pc := s.cur.pc } = s.cur ∧ SameBytes s t ∧
        (∀ i w, i < 256 → w = BitVec.ofNat 32 (leNat (s.readOwn s.core s.frame (addr i) 4)) →
          ∃ e, look (t.coreAt s.core).lut (256 * ((s.cur.gpr m).extractLsb' 0 1).toNat + i) = some e ∧
            (w.extractLsb' 0 13 = 0 → w.extractLsb' 23 8 ≠ 255 → e = w.extractLsb' 13 19)) ∧
        (∀ i, i < 256 → look (t.coreAt s.core).lut (256 * (1 - ((s.cur.gpr m).extractLsb' 0 1).toNat) + i) =
          look (s.coreAt s.core).lut (256 * (1 - ((s.cur.gpr m).extractLsb' 0 1).toNat) + i))) ∧
    (∀ w f rows cols n x (o : Desc) base (addr : Nat → Nat), w = s.cur.gpr m → drainBad w.toNat = false → x = (w.extractLsb' 0 2).toNat →
      f = (if w.extractLsb' 40 4 = 0 then ctxOut s.cur.fctx0 else (w.extractLsb' 40 4).toNat) →
      rows = (w.extractLsb' 16 7).toNat + 1 → cols = (w.extractLsb' 32 7).toNat + 1 → n = outBytes f →
      Passed s (s.cur.cap a) 0 (rows * cols * n) n 2 [1] false o base → TileQuiet s x → s.cur.wait = none → o.pageReg = false →
      (s.coreAt s.core).buffer.length + rows * cols ≤ 16 →
      (∀ k, k < rows * cols → (∃ q, s.placeOf (s.ctxAt (s.ctxOf s.core)) o (base + k * n) (dieOf s.core) = .here (addr k) q) ∧
        addrExists (addr k) = true ∧ s.badAt (addr k) n = none ∧
        ∀ bs, bs.length = n → s.tableCheck s.core s.frame (s.cur.cap a) (addr k) bs = .ok ()) →
      ∃ t ps, exec (.mmdrain m a) s = .next t ∧ Enters ps 4 s t ∧ ps.length = rows * cols ∧
        ∀ i j, i < rows → j < cols → ∃ p, ps[i * cols + j]? = some p ∧ p.addr = addr (i * cols + j) ∧ p.frame = s.frame ∧
          p.cap = none ∧ ∀ word, word = (s.coreAt s.core).tileWord x ((w.extractLsb' 8 7).toNat + i) ((w.extractLsb' 24 7).toNat + j) →
            p.bytes = leBytes n (if f = 6 then word.toNat else (outFmt f).round .rne (s.cur.fctx0.getLsbD 12)
              (((if ctxA s.cur.fctx0 = 7 ∨ ctxA s.cur.fctx0 = 8 then fpInt word.toInt else fpOf word).mul
                (fpOf (s.cur.fctx1.extractLsb' 0 32))).mul (fpOf (s.cur.fctx1.extractLsb' 32 32))))) ∧
    (TrapsFree s.core s.frame s → ∀ w, w = s.cur.gpr m →
      ((w.extractLsb' 1 31 ≠ 0 ∨ w.extractLsb' 32 2 ≠ 0) → Traps (.mmldt m a) s ILLEGAL w) ∧
      ((w.extractLsb' 44 20 ≠ 0 ∨ 7 ≤ (w.extractLsb' 40 4).toNat ∨ w.getLsbD 39 = true ∨ w.getLsbD 31 = true ∨ w.getLsbD 23 = true ∨
          w.getLsbD 15 = true ∨ w.extractLsb' 2 6 ≠ 0 ∨ 128 < (w.extractLsb' 8 7).toNat + (w.extractLsb' 16 7).toNat + 1 ∨
          128 < (w.extractLsb' 24 7).toNat + (w.extractLsb' 32 7).toNat + 1) → Traps (.mmdrain m a) s ILLEGAL w))

/-- R177, R186 to R189, R191, R184: an idle engine takes the oldest job of the core next in rotation; an int8 job adds the exact sum of
its products to each tile word of its range modulo 2^32, and a job of a floating pair the first rounding of its products' sum on the
grid, in a second rounding, with NaNs and infinities as R188 gives; the other words stand. The end is recorded, or given to the frame that
waits for it; a job with a lost operand ends with -2. -/
def Obligations.MatrixEngineWorks : Prop :=
  ∀ (s : State) (cl : Nat),
    (∀ pre post j c, c = s.clusterAt cl → c.running = none → c.jobs = pre ++ [j] ++ post → (∀ i ∈ pre, i.core % 8 ≠ j.core % 8) →
      (∀ i ∈ c.jobs, (j.core % 8 + 8 - (c.lastCore + 1) % 8) % 8 ≤ (i.core % 8 + 8 - (c.lastCore + 1) % 8) % 8) →
      (∀ i ∈ pre ++ post, i.uid ≠ j.uid) →
      ∃ t, exec (.matrixJobStart cl) s = .next t ∧ (t.clusterAt cl).running = some j ∧ (t.clusterAt cl).jobs = pre ++ post ∧
        (t.clusterAt cl).lastCore = j.core % 8 ∧ SameBytes s t) ∧
    (∀ bank, ∃ t, exec (.matrixBankSelect cl bank) s = .next t ∧ (t.clusterAt cl).matBank = bank ∧
      (t.clusterAt cl).jobs = (s.clusterAt cl).jobs ∧ (t.clusterAt cl).running = (s.clusterAt cl).running ∧
      ∀ m, m ≠ cl → t.clusterAt m = s.clusterAt m) ∧
    (∀ j, (s.clusterAt cl).running = some j →
      (j.failed = true → (∀ f, f < 11 → ∀ d, (s.frameAt j.core f).park ≠ some (.job d j.id)) →
        ∃ t, exec (.matrixJobEnd cl) s = .next t ∧ (t.clusterAt cl).running = none ∧
          look (t.coreAt j.core).records j.id = some (some (-2)) ∧ (t.coreAt j.core).tiles = (s.coreAt j.core).tiles) ∧
      (∀ (addr : Nat → Nat) tile r0 c0, j.failed = false → s.tileClaimed j = false → j.intake = Intake.empty → j.blocks = [] →
        (∀ o ∈ j.reads cl, WindowAt s j.ctx (cl / 128) o.cap o.len (addr o.part)) → tile = (j.w.extractLsb' 0 2).toNat →
        r0 = (j.w.extractLsb' 16 7).toNat → c0 = (j.w.extractLsb' 24 7).toNat → r0 + j.m ≤ 128 → c0 + j.n ≤ 128 →
        ∃ t, exec (.matrixJobEnd cl) s = .next t ∧ (t.clusterAt cl).running = none ∧ SameBytes s t ∧
          (∀ y r c, y < 4 → r < 128 → c < 128 → (y ≠ tile ∨ r < r0 ∨ r0 + j.m ≤ r ∨ c < c0 ∨ c0 + j.n ≤ c) →
            (t.coreAt j.core).tileWord y r c = (s.coreAt j.core).tileWord y r c) ∧
          ((∀ f, f < 11 → ∀ d, (s.frameAt j.core f).park ≠ some (.job d j.id)) →
            look (t.coreAt j.core).records j.id = some (some 0)) ∧
          (∀ f d, f < 11 → (s.frameAt j.core f).park = some (.job d j.id) → (s.frameAt j.core f).saved = none →
            (t.frameAt j.core f).state = .ready ∧ (t.frameAt j.core f).gpr d = 0 ∧
              (t.frameAt j.core f).pc = (s.frameAt j.core f).pc + 4) ∧
          (∀ i k, ctxA j.fctx0 = 7 ∨ ctxA j.fctx0 = 8 → ctxB j.fctx0 = 7 ∨ ctxB j.fctx0 = 8 → i < j.m → k < j.n →
            (t.coreAt j.core).tileWord tile (r0 + i) (c0 + k) =
              (if j.w.getLsbD 8 then 0 else (s.coreAt j.core).tileWord tile (r0 + i) (c0 + k)) +
                BitVec.ofInt 32 ((List.range j.k).map (fun e =>
                  intElem (ctxA j.fctx0) (memGet s.mem (addr 0 + (i * ((j.k + 31) / 32) * 32 + e))) *
                    intElem (ctxB j.fctx0) (memGet s.mem (addr 1 + (k * ((j.k + 31) / 32) * 32 + e))))).sum) ∧
          (∀ i k, FloatPair (ctxA j.fctx0) (ctxB j.fctx0) → i < j.m → k < j.n → ∃ r : Lane, FirstRounding s j addr i k r ∧
            (t.coreAt j.core).tileWord tile (r0 + i) (c0 + k) = BitVec.ofNat 32 (f32.round .rne false
              ((fpOf (if j.w.getLsbD 8 then 0 else (s.coreAt j.core).tileWord tile (r0 + i) (c0 + k))).add (fpOf r))))))

namespace Sys2Proof.Says

/-- The claim instructions leave everything of the current frame but one register, the pc and, for CLREAD, CLSTAT. -/
def FrameAnswers (d : BitVec 5) (v : Word) (s t : State) : Prop :=
  { t.cur with g := s.cur.g, pc := s.cur.pc } = s.cur ∧ PcPast 4 s t ∧ t.cur.gpr d = (if d = 0 then 0 else v) ∧
    (∀ r, r ≠ d → t.cur.gpr r = s.cur.gpr r) ∧ SameBytes s t

/-- The partition may propose and object in the group g (R248, R249): it has the grant K and the group is not stale. -/
def GroupOpen (s : State) (g : Nat) : Prop := (s.groupAt g).grant = true ∧ (s.groupAt g).stale = false

/-- A key and value that CLPROP takes (R244). -/
def GoodKey (k v : Word) : Prop :=
  k.extractLsb' 60 4 = 0 ∨ (k.extractLsb' 60 4 = 8 ∧ k.extractLsb' 24 36 = 0 ∧ v.extractLsb' 8 56 = 0)

/-- The claim of slot i, current under the handle h of the partition of core n (R247). -/
def Current (s : State) (n : Nat) (h : Word) (i : Nat) : Prop :=
  h.extractLsb' 32 32 = 0 ∧ i = (h.extractLsb' 0 12).toNat ∧ (s.claimAt i).state ≠ .free ∧ (s.claimAt i).gen = h.extractLsb' 12 20 ∧
    (s.claimAt i).ann.group < 64 ∧ s.ownsGroup n (s.claimAt i).ann.group = true

/-- The outcome that R255 gives a slot's claim. -/
def Decided (q : ClaimSlot) (o : Nat) : Prop :=
  (q.rivals ≠ [] → o = 3) ∧
  (q.rivals = [] → (∃ x ∈ q.objections, x.2 = 0xFF02) → o = 4) ∧
  (q.rivals = [] → (∀ x ∈ q.objections, x.2 ≠ 0xFF02) → q.objections ≠ [] → o = 2) ∧
  (q.rivals = [] → q.objections = [] → o = 1)

/-- The member p answers for the table of a group: it is another one, the halyard plane reaches it, and it is not stale (R258). -/
def MayAnswer (s : State) (p : Nat) : Prop := p ≠ s.pos ∧ look s.declared p = none ∧ Config.peerStale s.steps p = false

end Sys2Proof.Says

/-- R248 to R252, R247, R258: the five claim instructions and what they answer: CLPROP announces a claim in the lowest-numbered free slot
and answers its handle; CLOBJ sends an objection until T_e - B and traps LATEOBJ after it; CLWAIT answers the outcome or parks;
CLREAD answers the committed value with CLSTAT; CLGRP sets the window and the descriptor of a group, and in the supervisor frame asks the
lowest member that may answer for the table of a stale one, which it waits for in place (whether another member is stale is a free
value: log 31). That it writes 0 for a group that is not stale, and that a handle has no bit above 31, is the model's choice (log 107). -/
def Obligations.ClaimInstructions : Prop :=
  ∀ s : State, s.frame < 11 → ∀ (p : BitVec 6) (a b d : BitVec 5) (g : Nat), g = p.toNat →
    (s.ownsGroup s.core g = false → WritesG (.clprop p b a d) s d (-2) 4 ∧ WritesG (.clgrp p b a d) s d (-2) 4) ∧
    (s.ownsGroup s.core g = true → GroupOpen s g →
      (s.pos ∉ (s.groupAt g).members → WritesG (.clprop p b a d) s d (-3) 4) ∧
      (s.pos ∈ (s.groupAt g).members → ¬ GoodKey (s.cur.gpr a) (s.cur.gpr b) → WritesG (.clprop p b a d) s d (-4) 4) ∧
      (s.pos ∈ (s.groupAt g).members → GoodKey (s.cur.gpr a) (s.cur.gpr b) →
        ((∀ i, i < 4096 → (s.claimAt i).state ≠ .free) → WritesG (.clprop p b a d) s d (-1) 4) ∧
        (∀ i, i < 4096 → (s.claimAt i).state = .free → (∀ j, j < i → (s.claimAt j).state ≠ .free) →
          ∃ t n, exec (.clprop p b a d) s = .next t ∧
            FrameAnswers d (BitVec.ofNat 64 ((s.claimAt i).gen.toNat * 4096 + i)) s t ∧ (t.claimAt i).state = .announced ∧
            (t.claimAt i).gen = (s.claimAt i).gen ∧ (t.claimAt i).ann = n ∧ n.group = g ∧ n.key = s.cur.gpr a ∧
            n.value = s.cur.gpr b ∧ n.prio = s.cur.clprio.extractLsb' 0 8 ∧ n.proposer = s.pos ∧ n.ta = s.ftime ∧
            n.te = s.ftime + (s.groupAt g).window ∧ Packet.announcement n ∈ t.outbox)) ∧
      (¬ (s.frame = 10 ∧ a = 0 ∧ b = 0) →
        ((s.cur.gpr a).toNat < 5000 ∨ 10000000 < (s.cur.gpr a).toNat → WritesG (.clgrp p b a d) s d (-4) 4) ∧
        (5000 ≤ (s.cur.gpr a).toNat → (s.cur.gpr a).toNat ≤ 10000000 → ∀ h n, h = s.cur.gpr b → n = (h.extractLsb' 42 22).toNat →
          ((n / 4096 ≠ s.pos ∨ n % 4096 ∉ (s.ctxAt (s.ctxOf s.core)).cores) → WritesG (.clgrp p b a d) s d (-5) 4) ∧
          (n / 4096 = s.pos → n % 4096 ∈ (s.ctxAt (s.ctxOf s.core)).cores → h.extractLsb' 40 2 = 0 →
            ∃ t, exec (.clgrp p b a d) s = .next t ∧ FrameAnswers d 0 s t ∧ (t.groupAt g).window = (s.cur.gpr a).toNat ∧
              (t.groupAt g).desc = h ∧ (t.groupAt g).values = (s.groupAt g).values)))) ∧
    (s.frame = 10 → s.ownsGroup s.core g = true →
      ((s.groupAt g).stale = false → WritesG (.clgrp p 0 0 d) s d 0 4) ∧
      ((s.groupAt g).stale = true → (s.halyardLost = true ∨ ∀ q ∈ (s.groupAt g).members, ¬ MayAnswer s q) →
        WritesG (.clgrp p 0 0 d) s d (-6) 4) ∧
      (∀ pre q post, (s.groupAt g).stale = true → s.halyardLost = false → (s.groupAt g).members = pre ++ q :: post →
        (∀ r ∈ pre, ¬ MayAnswer s r) → MayAnswer s q → ∃ t, exec (.clgrp p 0 0 d) s = .next t ∧
          t.cur.wait = some (.resync g d q) ∧ t.cur.pc = s.cur.pc ∧ t.outbox = s.outbox ++ [.tableRequest g q] ∧ SameBytes s t)) ∧
    (s.ownsGroup s.core g = true → ∃ t, exec (.clread p a d) s = .next t ∧ Elsewhere s t ∧ PcPast 4 s t ∧
      { t.cur with g := s.cur.g, clstat := s.cur.clstat, pc := s.cur.pc } = s.cur ∧ (∀ r, r ≠ d → t.cur.gpr r = s.cur.gpr r) ∧
      (t.cur.clstat.getLsbD 1 = (s.groupAt g).stale) ∧ t.cur.clstat.extractLsb' 2 62 = 0 ∧
      ((∀ e ∈ (s.groupAt g).values, e.1 ≠ s.cur.gpr a) → t.cur.gpr d = 0 ∧ t.cur.clstat.getLsbD 0 = false) ∧
      (∀ pre v te post, (s.groupAt g).values = pre ++ (s.cur.gpr a, v, te) :: post → (∀ e ∈ pre, e.1 ≠ s.cur.gpr a) →
        t.cur.gpr d = (if d = 0 then 0 else v) ∧ t.cur.clstat.getLsbD 0 = true)) ∧
    ((∀ i, ¬ Current s s.core (s.cur.gpr a) i) → WritesG (.clwait a d) s d (-1) 4 ∧
      ((s.cur.gpr b).toNat < 0xFF00 → WritesG (.clobj b a d) s d (-1) 4)) ∧
    (∀ i q, q = s.claimAt i → Current s s.core (s.cur.gpr a) i →
      (q.state = .resolved → WritesG (.clwait a d) s d (BitVec.ofNat 64 q.outcome) 4 ∧
        ((s.cur.gpr b).toNat < 0xFF00 → WritesG (.clobj b a d) s d (-1) 4)) ∧
      (q.state = .announced →
        (MayPark s → ∃ t, exec (.clwait a d) s = .next t ∧ Parks (.claim d i q.gen) s t) ∧
        (GroupOpen s q.ann.group → (s.cur.gpr b).toNat < 0xFF00 →
          (s.ftime + 2000 ≤ q.ann.te → (∀ x ∈ q.objections, x.1 ≠ s.pos) →
            ∃ t o, exec (.clobj b a d) s = .next t ∧ FrameAnswers d 0 s t ∧ t.outbox = s.outbox ++ [.objection o] ∧
              o.reason = (s.cur.gpr b).toNat ∧ o.position = s.pos ∧ sameClaim q.ann o = true ∧
              (t.claimAt i).objections = q.objections ++ [(s.pos, (s.cur.gpr b).toNat)]) ∧
          (s.ftime + 2000 ≤ q.ann.te → (∃ x ∈ q.objections, x.1 = s.pos) → WritesG (.clobj b a d) s d 1 4) ∧
          (TrapsFree s.core s.frame s → q.ann.te < s.ftime + 2000 →
            Traps (.clobj b a d) s LATEOBJ (BitVec.ofNat 64 q.ann.te))))) ∧
    (TrapsFree s.core s.frame s →
      (0xFF00 ≤ (s.cur.gpr b).toNat → Traps (.clobj b a d) s ILLEGAL (s.cur.gpr b)) ∧
      (s.ownsGroup s.core g = false → Traps (.clread p a d) s PRIV 0) ∧
      (s.ownsGroup s.core g = true → (s.groupAt g).grant = false → Traps (.clprop p b a d) s PRIV 0) ∧
      (s.ownsGroup s.core g = true → (s.groupAt g).grant = true → (s.groupAt g).stale = true →
        Traps (.clprop p b a d) s RESYNC (BitVec.ofNat 64 g)))

/-- R253 to R258, R243: a member takes a free slot for an announced claim, or objects with FULL or STALE (that the slot is the lowest
free one, and that a claim known already changes nothing and is not forwarded, is the model's choice: log 72); objections are recorded;
at T_e the outcome is R255's, a committed value enters the value table and the waiting frames resume; a resolved slot is free 100,000 ns
after T_e with the next generation; the loss of the halyard plane makes every group stale and ends every announced claim
unreachable; a value table that arrives ends the staleness and completes the CLGRP that waits. -/
def Obligations.ClaimsDecided : Prop :=
  ∀ s : State,
    (∀ a, s.isMember a = true → s.knowsClaim a = false →
      ((s.groupAt a.group).stale = false → ∀ i, i < 4096 → (s.claimAt i).state = .free → (∀ j, j < i → (s.claimAt j).state ≠ .free) →
        ∃ t, exec (.announcementReceive a) s = .next t ∧ (t.claimAt i).state = .announced ∧ (t.claimAt i).ann = a ∧
          (t.claimAt i).gen = (s.claimAt i).gen ∧ Packet.announcement a ∈ t.outbox ∧ SameBytes s t) ∧
      (∀ r, ((s.groupAt a.group).stale = true ∧ r = 0xFF05) ∨ ((s.groupAt a.group).stale = false ∧ r = 0xFF01 ∧
          ∀ j, j < 4096 → (s.claimAt j).state ≠ .free) →
        ∃ t o, exec (.announcementReceive a) s = .next t ∧ t.outbox = s.outbox ++ [.objection o, .announcement a] ∧ o.reason = r ∧
          o.position = s.pos ∧ sameClaim a o = true ∧ ∀ i, (t.claimAt i).state = (s.claimAt i).state)) ∧
    (∀ a, s.isMember a = false ∨ s.knowsClaim a = true → exec (.announcementReceive a) s = .next s) ∧
    (∀ o i q, q = s.claimAt i → s.knowsObjection o = false → q.state = .announced → sameClaim q.ann o = true →
      ∃ t, exec (.objectionReceive o) s = .next t ∧ (t.claimAt i).objections = q.objections ++ [(o.position, o.reason)] ∧
        (t.claimAt i).state = .announced ∧ t.outbox = s.outbox ++ [.objection o]) ∧
    (∀ i q, q = s.claimAt i → q.state = .announced →
      (s.ftime < q.ann.te → exec (.claimResolve i) s = .next s) ∧
      (q.ann.te ≤ s.ftime → ∃ t o, exec (.claimResolve i) s = .next t ∧ Decided q o ∧ (t.claimAt i).state = .resolved ∧
        (t.claimAt i).outcome = o ∧ (t.claimAt i).gen = q.gen ∧
        (o = 1 → (t.groupAt q.ann.group).values.find? (fun e => decide (e.1 = q.ann.key)) = some (q.ann.key, q.ann.value, q.ann.te)) ∧
        (o ≠ 1 → (t.groupAt q.ann.group).values = (s.groupAt q.ann.group).values) ∧
        (q.ann.group < 64 → q.ann.key.extractLsb' 60 4 ≠ 8 → ∀ n f d, f < 11 → (n, f) ∈ s.allFrames → s.keeper n = none →
          (s.frameAt n f).park = some (.claim d i q.gen) → (s.frameAt n f).saved = none →
          (t.frameAt n f).state = .ready ∧ (t.frameAt n f).park = none ∧ (t.frameAt n f).pc = (s.frameAt n f).pc + 4 ∧
            (t.frameAt n f).gpr d = (if d = 0 then 0 else BitVec.ofNat 64 o)))) ∧
    (∀ i q, q = s.claimAt i →
      (q.state = .resolved → q.ann.te + 100000 ≤ s.ftime → ∃ t, exec (.claimSlotFree i) s = .next t ∧
        (t.claimAt i).state = .free ∧ (t.claimAt i).gen = q.gen + 1 ∧ ∀ j, j ≠ i → t.claimAt j = s.claimAt j) ∧
      (q.state ≠ .resolved ∨ s.ftime < q.ann.te + 100000 → exec (.claimSlotFree i) s = .next s)) ∧
    (∃ t, exec .halyardLoss s = .next t ∧ (∀ g, g ≤ 64 → (t.groupAt g).stale = true) ∧
      ∀ i, (s.claimAt i).state = .announced → (t.claimAt i).state = .resolved ∧ (t.claimAt i).outcome = 4) ∧
    (∀ g rows n f d p, g < 64 → f < 11 → (n, f) ∈ s.allFrames → (s.cores.map (·.1)).Nodup → (s.groupAt g).stale = true →
      s.halyardLost = false → (s.frameAt n f).wait = some (.resync g d p) →
      ∃ t, exec (.valueTableCopy g rows) s = .next t ∧ (t.groupAt g).stale = false ∧
        (t.groupAt g).values = rows.map (fun r => (r.2.1, r.2.2, r.1)) ∧ (t.frameAt n f).wait = none ∧
        (t.frameAt n f).gpr d = 0 ∧ (t.frameAt n f).pc = (s.frameAt n f).pc + 4)

namespace Sys2Proof.Says

/-- The address group of a collective of the current frame, with its members x (R225, R226). -/
def GroupOf (s : State) (g : BitVec 6) (x : AGroup) : Prop :=
  s.assigned s.core g.toNat = true ∧ look s.agroups g.toNat = some x ∧ x.ctx = s.ctxOf s.core

/-- What R377 asks of the windows of a collective before it is issued: source os at base, destination od at off. -/
structure Issuable (s : State) (cs cd : Cap) (n m sz dz : Nat) (os od : Desc) (base off : Nat) (x : AGroup) : Prop where
  again  : s.collAgain = none
  src    : s.access s.core cs 0 n sz 1 [1] .engine false = .ok (os, base)
  dst    : s.access s.core cd 0 m dz 2 [1] .engine false = .ok (od, off)
  layout : s.layoutCheck s.core s.frame cs os = .ok () ∧ s.layoutCheck s.core s.frame cd od = .ok ()
  posted : s.cur.posted = []
  quiet  : s.buffered s.core s.frame = false
  record : s.recordReady s.core x.record = .ok ()
  park   : MayPark s

/-- The collective is issued: the frame has parked, and one member access is under way for every reachable member. -/
def Issued (s t : State) (op ty : Nat) (d : BitVec 5) (g : BitVec 6) (x : AGroup) (req : Nat → Instr) (pk : Nat → Packet) : Prop :=
  t.cur.state = .parked ∧ t.cur.park = some (.coll s.nextId) ∧ t.cur.pc = s.cur.pc ∧ t.cur.g = s.cur.g ∧ SameBytes s t ∧
  (∃ c, look t.colls s.nextId = some c ∧ c.core = s.core ∧ c.frame = s.frame ∧ c.op = op ∧ c.ty = ty ∧ c.d = d ∧
    c.group = g.toNat ∧ c.members = x.members ∧ c.record = x.record ∧ c.t0 = s.ftime ∧ c.got = []) ∧
  ∀ p ∈ x.members, (look s.declared p).isNone → p ∉ s.unreachable →
    (p = s.pos → req p ∈ t.inflight) ∧ (p ≠ s.pos → pk p ∈ t.outbox)

end Sys2Proof.Says

/-- R226, R324, R225: AGSET of an assigned group reads the bitmap of members and answers their number, -1 for none and -2 for one that is no
peer; a group that is not assigned raises PRIV. R227, R228, R377: MCRED and MCST of a set group park the frame with an access under way
to every reachable member; a group that is not set answers -2048, a length of 0 or over 65,536 raises ILLEGAL. -/
def Obligations.CollectivesIssue : Prop :=
  ∀ s : State, s.frame < 11 → ∀ (g : BitVec 6) (c e : BitVec 4) (d : BitVec 5) (t : BitVec 2),
    (∀ o base (addr : Nat → Nat) ms, s.assigned s.core g.toNat = true → s.cur.park = none → s.groupBusy g.toNat = false →
      Passed s (s.cur.cap c) 0 272 8 3 [1] false o base → s.stalled s.core o.oid base (base + 128) = false → o.pageReg = false →
      (∀ i, i < 16 → Near s o (base + 8 * i) (addr i) 8) →
      ms = (List.range 1024).filter (fun p => (BitVec.ofNat 64 (leNat (s.readOwn s.core s.frame (addr (p / 64)) 8))).getLsbD (p % 64)) →
      (ms = [] → ∃ t, exec (.agset g c d) s = .next t ∧ FrameAnswers d (-1) s t ∧ t.agroups = s.agroups) ∧
      (ms ≠ [] → (∃ p ∈ ms, p ≠ s.pos ∧ p ∉ (s.ctxAt (s.ctxOf s.core)).policy.peers) →
        ∃ t, exec (.agset g c d) s = .next t ∧ FrameAnswers d (-2) s t ∧ t.agroups = s.agroups) ∧
      (ms ≠ [] → (∀ p ∈ ms, p ≠ s.pos → p ∈ (s.ctxAt (s.ctxOf s.core)).policy.peers) →
        ∃ t, exec (.agset g c d) s = .next t ∧ FrameAnswers d (BitVec.ofNat 64 ms.length) s t ∧
          look t.agroups g.toNat = some ⟨ms, s.cur.cap c, s.ctxOf s.core⟩ ∧
          ∀ q, q ≠ g.toNat → look t.agroups q = look s.agroups q)) ∧
    (TrapsFree s.core s.frame s → s.assigned s.core g.toNat = false → Traps (.agset g c d) s PRIV 0 ∧
      (s.collAgain = none → Traps (.mcredAdd t g c e d) s PRIV 0 ∧ Traps (.mcst g c e d) s PRIV 0)) ∧
    (s.assigned s.core g.toNat = true → look s.agroups g.toNat = none → s.collAgain = none →
      WritesG (.mcredAdd t g c e d) s d (-2048) 4 ∧ WritesG (.mcredMax t g c e d) s d (-2048) 4 ∧
      WritesG (.mcredMin t g c e d) s d (-2048) 4 ∧ WritesG (.mcst g c e d) s d (-2048) 4) ∧
    (∀ x os od base off n, GroupOf s g x → n = (s.cur.cap c).len.toNat → 0 < n → n ≤ 65536 →
      (∀ sz dz, sz = (if t = 1 ∨ t = 2 then 2 else 4) → dz = (if t = 2 then 2 else 4) → n % sz = 0 →
        Issuable s (s.cur.cap c) (s.cur.cap e) n (n / sz * dz) sz dz os od base off x →
        s.pagesReady s.core od off (n / sz * dz) .store true = .ok () →
        ∀ p ∈ [(Instr.mcredAdd t g c e d, 0), (.mcredMax t g c e d, 1), (.mcredMin t g c e d, 2)],
          ∃ r, exec p.1 s = .next r ∧ Issued s r p.2 t.toNat d g x
            (fun _ => .memberRead (s.coreid s.core) s.nextId (s.ctxOf s.core) (s.cur.cap c).oid base n)
            (fun q => .memberRead (s.via s.core (s.ctxOf s.core)).gen q (s.coreid s.core) s.nextId (s.cur.cap c).oid base n)) ∧
      (∀ bs s2, n % 4 = 0 → Issuable s (s.cur.cap c) (s.cur.cap e) n n 4 4 os od base off x →
        s.pagesReady s.core os base n .load false = .ok () → s.readImage s.core s.frame os base n = .ok (some bs, s2) →
        { s2 with dies := s.dies } = s →
        ∃ r, exec (.mcst g c e d) s = .next r ∧ Issued s r 3 0 d g x
            (fun _ => .memberWrite (s.coreid s.core) s.nextId (s.ctxOf s.core) (s.cur.cap e).oid off bs)
            (fun q => .memberWrite (s.via s.core (s.ctxOf s.core)).gen q (s.coreid s.core) s.nextId (s.cur.cap e).oid off bs))) ∧
    (∀ x, TrapsFree s.core s.frame s → GroupOf s g x → s.collAgain = none → ((s.cur.cap c).len = 0 ∨ 65536 < (s.cur.cap c).len.toNat) →
      Traps (.mcredAdd t g c e d) s ILLEGAL ((s.cur.cap c).len.setWidth 64) ∧
      Traps (.mcredMax t g c e d) s ILLEGAL ((s.cur.cap c).len.setWidth 64) ∧
      Traps (.mcredMin t g c e d) s ILLEGAL ((s.cur.cap c).len.setWidth 64) ∧
      Traps (.mcst g c e d) s ILLEGAL ((s.cur.cap c).len.setWidth 64))

/-- R227, R228, R229, R238, R222: a member's access joins the line behind one that its home holds; otherwise the member's memory is read
or written as one operation (the model's choice, log 32: R229 lets elements of one member come from before and after a store) and
answered; an object that is gone, or a member that has been struck, answers absent; what arrives by then is kept once; after 5,000 ns every
member without an answer is absent; a
complete MCST without absent members ends with status 0, one with n absent members with status -n, and an s32 sum with the sums of all
members' elements, which enter the store buffer. -/
def Obligations.CollectivesComplete : Prop :=
  ∀ s : State, s.tainted = [] →
    (∀ req coll k oid base len data, ∀ i ∈ [Instr.memberRead req coll k oid base len, .memberWrite req coll k oid base data],
      s.behind i = true → ∃ t, exec i s = .next t ∧ t.inflight = s.inflight ++ [i] ∧ t.hasCome i = true ∧
        { t with inflight := s.inflight, arrived := s.arrived } = s) ∧
    (∀ req coll k oid base len data pos, pos = req / 4096 →
      (s.liveAt (s.ctxAt k) oid = none ∨ ((s.ctxAt k).struck = true)) →
      ∀ i ∈ [Instr.memberRead req coll k oid base len, .memberWrite req coll k oid base data], s.behind i = false →
        ∃ t, exec i s = .next t ∧ SameBytes s t ∧ (pos = s.pos → t.inflight = s.inflight ++ [.memberValues coll pos true []]) ∧
          (pos ≠ s.pos → ∃ h, t.outbox = s.outbox ++ [.memberAnswer (s.via h k) req coll true []])) ∧
    (∀ req coll k oid base len (d : Desc) a g w pos, pos = req / 4096 → s.liveAt (s.ctxAt k) oid = some d →
      (s.ctxAt k).struck = false → s.far d = false → s.exterior d = false → d.pw = false → base + len ≤ d.size →
      s.homePieces (s.ctxAt k) d base len w = .ok [⟨base, len, .here a g⟩] → Keyed s k a len →
      (w = false → s.behind (.memberRead req coll k oid base len) = false →
        ∃ t, exec (.memberRead req coll k oid base len) s = .next t ∧ SameBytes s t ∧
        (pos = s.pos → t.inflight = s.inflight ++ [.memberValues coll pos false (memBytes s.mem a len)]) ∧
        (pos ≠ s.pos → ∃ h, t.outbox = s.outbox ++ [.memberAnswer (s.via h k) req coll false (memBytes s.mem a len)])) ∧
      (∀ data, w = true → data.length = len → memWf s.mem = true → ClearOfTables s a len →
        s.behind (.memberWrite req coll k oid base data) = false →
        ∃ t, exec (.memberWrite req coll k oid base data) s = .next t ∧
          (∀ x, ¬ (a ≤ x ∧ x < a + len) → memGet t.mem x = memGet s.mem x) ∧ memBytes t.mem a len = data ∧
          (pos = s.pos → t.inflight = s.inflight ++ [.memberValues coll pos false []]))) ∧
    (∀ id c, look s.colls id = some c →
      (∀ pos data, pos ∈ c.members → pos ∉ c.absent → (∀ q ∈ c.got, q.1 ≠ pos) → s.ftime ≤ c.t0 + 5000 →
        (∃ t, exec (.memberValues id pos false data) s = .next t ∧ { t with colls := s.colls, met := s.met } = s ∧
          ∃ x, look t.colls id = some x ∧ (pos, data) ∈ x.got ∧ x.absent = c.absent) ∧
        (∃ t, exec (.memberValues id pos true data) s = .next t ∧ { t with colls := s.colls, met := s.met } = s ∧
          ∃ x, look t.colls id = some x ∧ x.got = c.got ∧ pos ∈ x.absent)) ∧
      (∀ pos ab data, (pos ∉ c.members ∨ pos ∈ c.absent ∨ (∃ q ∈ c.got, q.1 = pos) ∨ c.t0 + 5000 < s.ftime) →
        exec (.memberValues id pos ab data) s = .next s) ∧
      (s.ftime < c.t0 + 5000 → exec (.collectiveTimeout id) s = .next s) ∧
      (c.t0 + 5000 ≤ s.ftime → ∃ t x, exec (.collectiveTimeout id) s = .next t ∧ { t with colls := s.colls } = s ∧
        look t.colls id = some x ∧ x.got = c.got ∧
        ∀ p, p ∈ x.absent ↔ p ∈ c.absent ∨ (p ∈ c.members ∧ ∀ q ∈ c.got, q.1 ≠ p)) ∧
      ((∃ p ∈ c.members, p ∉ c.absent ∧ ∀ q ∈ c.got, q.1 ≠ p) → exec (.collectiveEnd id) s = .next s) ∧
      ((∀ p ∈ c.members, p ∈ c.absent ∨ ∃ q ∈ c.got, q.1 = p) → c.frame < 11 → (s.frameAt c.core c.frame).park = some (.coll id) →
        (s.frameAt c.core c.frame).saved = none →
        (c.op = 3 → c.absent = [] → ∃ t, exec (.collectiveEnd id) s = .next t ∧ look t.colls id = none ∧
          (t.frameAt c.core c.frame).state = .ready ∧ (t.frameAt c.core c.frame).park = none ∧
          (t.frameAt c.core c.frame).gpr c.d = 0 ∧ (t.frameAt c.core c.frame).pc = (s.frameAt c.core c.frame).pc + 4 ∧ SameBytes s t) ∧
        (∀ m (dd : Desc) (addr : Nat → Nat), c.op = 0 → c.ty = 3 → c.absent = [] → c.got ≠ [] →
          (∀ q ∈ c.got, q.1 < 1024 ∧ q.2.length = 4 * m) → (s.coreAt c.core).buffer.length + m ≤ 16 → s.ctxOf c.core = c.ctx →
          s.liveAt (s.ctxAt c.ctx) c.cd.oid = some dd →
          (∀ e, e < m → (∃ g, s.placeOf (s.ctxAt c.ctx) dd (c.cd.base.toNat + e * 4) (dieOf c.core) = .here (addr e) g) ∧
            addrExists (addr e) = true ∧ s.badAt (addr e) 4 = none ∧ 2 ^ 40 ≤ addr e) →
          ∃ t ps, exec (.collectiveEnd id) s = .next t ∧ (t.coreAt c.core).buffer = (s.coreAt c.core).buffer ++ ps ∧
            ps.length = m ∧ (t.frameAt c.core c.frame).gpr c.d = 0 ∧ (t.frameAt c.core c.frame).state = .ready ∧
            ∀ e, e < m → ∃ p, ps[e]? = some p ∧ p.addr = addr e ∧ p.frame = c.frame ∧
              p.bytes = leBytes 4 (c.got.foldl (fun (x : Lane) q => x + BitVec.ofNat 32 (leNat ((q.2.drop (e * 4)).take 4))) 0).toNat) ∧
        (∀ (rd : Desc) (addr : Nat → Nat), c.absent ≠ [] → (s.coreAt c.core).buffer = [] → s.ctxOf c.core = c.ctx →
          s.liveAt (s.ctxAt c.ctx) c.record.oid = some rd →
          (∀ i, i < 18 → (∃ g, s.placeOf (s.ctxAt c.ctx) rd (c.record.base.toNat + 128 + 8 * i) (dieOf c.core) = .here (addr i) g) ∧
            addrExists (addr i) = true ∧ s.badAt (addr i) 8 = none ∧ 2 ^ 40 ≤ addr i) →
          ∃ t, exec (.collectiveEnd id) s = .next t ∧ (t.frameAt c.core c.frame).state = .ready ∧
            (t.coreAt c.core).buffer.length = 16 ∧ (t.frameAt c.core c.frame).entering.length = 2 ∧
            (t.frameAt c.core c.frame).gpr c.d = (if c.d = 0 then 0 else BitVec.ofInt 64 (-(c.absent.length : Int))))))

/-- R277 to R279, R112: the record that replays first is freed and its request is performed once, a load's value then being on its way to
the issuer; another record's turn has to come. A page request of a live host-backed object leaves the device and another is answered
BADREQ; a response queues the page-request upcall at the core that asked, once the records it covers have been replayed, or have failed;
one for an EVICTED context is kept until its restore (the model's choice of log 102).
A translation that the host gives for a range of pages enters the die's cache, and one that it takes back goes from every die. -/
def Sys2Proof.Says.FaultsAreReplayed : Prop :=
  ∀ s : State,
    (∀ die index r q, (s.dieAt die).faultq.find? (fun x => decide (x.index = index ∧ x.state = 2)) = some r → r.held = .request q →
      r.kind = 1 →
      (∀ x ∈ (s.dieAt die).faultq, x.state = 2 → index ≤ x.index) →
      (∀ d a g n, s.liveAt (s.ctxAt q.ctx) q.oid = some d → q.op = .load n → n ≤ 8 → s.farLayout (s.ctxAt q.ctx) q d = none →
        s.placeOf (s.ctxAt q.ctx) d q.off (dieOf (q.home % 4096)) = .here a g → spanExists a n = true → s.badAt a n = none →
        q.core / 4096 = s.pos →
        ∃ t v, exec (.faultReplay die index) s = .next t ∧ SameBytes s t ∧
          (∀ x ∈ (t.dieAt die).faultq, x.index ≠ index) ∧
          t.inflight = s.inflight ++ [.remoteValue (q.core % 4096) q.frame q.rid (.word v)] ∧
          IsLoaded n false (s.plain q.ctx a n) v)) ∧
    (∀ die index, (s.dieAt die).faultq.find? (fun x => decide (x.index = index ∧ x.state = 2)) = none ∨
        (∃ x ∈ (s.dieAt die).faultq, x.state = 2 ∧ x.index < index) → exec (.faultReplay die index) s = .next s) ∧
    (∀ n (v : Word) (d : Desc) page, s.liveAt (s.ctxAt (s.ctxOf n)) (v.extractLsb' 0 40) = some d → d.hb = true →
      page = (v.extractLsb' 40 24).toNat → ∀ p ∈ [(Instr.pageRequestRead n v, false), (.pageRequestWrite n v, true)],
        ∃ t x, exec p.1 s = .next t ∧ t.outbox = s.outbox ++ [.pageRequest d.pasid (d.xbase + 4096 * page) p.2] ∧
          t.pageReqs = s.pageReqs ++ [x] ∧ x.core = n ∧ x.value = v ∧ x.write = p.2 ∧ x.pasid = d.pasid ∧
          { t with outbox := s.outbox, pageReqs := s.pageReqs } = s) ∧
    (∀ n (v : Word), (∀ d, s.liveAt (s.ctxAt (s.ctxOf n)) (v.extractLsb' 0 40) = some d → d.hb = false) →
      ∃ t, exec (.pageRequestRead n v) s = .next t ∧ t.outbox = s.outbox ∧
        (t.coreAt n).starts = (s.coreAt n).starts ++ [.page (s.ctxOf n) v 3 0]) ∧
    (∀ i q code, s.pageReqs[i]? = some q → (s.ctxAt q.ctx).state = .evicted →
      exec (.prgResponse i code) s = .next { s with pageReqs := s.pageReqs.eraseIdx i, pageLate := s.pageLate ++ [(q, code)] }) ∧
    (∀ i q code, s.pageReqs[i]? = some q → (s.ctxAt q.ctx).state ≠ .evicted → (∀ p ∈ s.dies, p.2.faultq = []) →
      ∃ t, exec (.prgResponse i code) s = .next t ∧ t.pageReqs = s.pageReqs.eraseIdx i ∧
        (t.coreAt q.core).starts = (s.coreAt q.core).starts ++
          [.page q.ctx q.value (BitVec.ofNat 64 code) (if q.write then 1 else 0)] ∧ SameBytes s t) ∧
    (∀ i q die r, s.pageReqs[i]? = some q → (s.ctxAt q.ctx).state ≠ .evicted → r ∈ (s.dieAt die).faultq → r.kind = 2 → r.state ≠ 3 →
      r.page = q.page →
      s.pasidOf r = some q.pasid →
      (∃ t, exec (.prgResponse i 0) s = .next t ∧ q ∈ t.pageDone ∧ (t.coreAt q.core).starts = (s.coreAt q.core).starts) ∧
      (∀ d w code, code ≠ 0 → s.dies = [(die, d)] → d.faultq = [r] → r.held = .request w → w.returns = true →
        w.core / 4096 = s.pos → ∃ t, exec (.prgResponse i code) s = .next t ∧ (t.dieAt die).faultq = [] ∧
          t.inflight = s.inflight ++ [.remoteNotice (w.core % 4096) w.frame w.rid w.name .failed] ∧
          (t.coreAt q.core).starts = (s.coreAt q.core).starts ++
            [.page q.ctx q.value (BitVec.ofNat 64 code) (if q.write then 1 else 0)])) ∧
    (∀ die pasid page count n r w, n = max 1 (min 512 count) → (s.dieAt die).ats.length < 4096 →
      (∃ q ∈ (s.dieAt die).asked, q.1 = pasid ∧ page ≤ q.2.1 ∧ q.2.1 < page + n) →
      ∃ t, exec (.translationCompletion die pasid ⟨page, count⟩ r w) s = .next t ∧ { t with dies := s.dies } = s ∧
        (∀ p, page ≤ p → p < page + n → t.translation die pasid p false = some r ∧
          (w = true → t.translation die pasid p true = some true)) ∧
        (∃ q ∈ (s.dieAt die).asked, (q.1 = pasid ∧ page ≤ q.2.1 ∧ q.2.1 < page + n) ∧
          ∀ x ∈ (t.dieAt die).asked, ¬ (x.1 = pasid ∧ x.2.1 = q.2.1)) ∧
        (∀ p q, p ≠ pasid → t.translation die p q false = s.translation die p q false) ∧
        ((∀ e ∈ (s.dieAt die).ats, e.pasid ≠ pasid ∨ e.page + e.count ≤ page ∨ page + n ≤ e.page) →
          ∀ q, (q < page ∨ page + n ≤ q) → t.translation die pasid q false = s.translation die pasid q false)) ∧
    (∀ pasid page, ∃ t, exec (.atsInvalidation pasid page) s = .next t ∧ t.outbox = s.outbox ++ [.invalidated pasid page] ∧
      ∀ die w, t.translation die pasid page w = none)

/-- R116, R285: the end of an interval clears a controller's sketch and writes SEQ of the tenant's section two higher where the
section's bytes are of no die's memory; before it nothing happens. Scrubbing goes on from where it stood and changes no byte; what it
corrects is counted. -/
def Sys2Proof.Says.HotnessAndScrubbing : Prop :=
  ∀ s : State,
    (∀ die ctl k (d : Desc) a g slot, ctl < 3 → memWf s.mem = true → (s.dieAt die).hotrec = [(k, d.oid)] → s.hotObject die k = some d →
      look (s.dieAt die).slotsOf k = some slot → slot < 16 →
      (((look (s.dieAt die).sketches ctl).getD ⟨[], [], [], 0⟩).since + 100000000 ≤ s.ftime →
        (∀ off n w, off + n ≤ 3264 → 0 < n → n ≤ 16 → off % n = 0 →
          s.enginePieces (s.ctxAt k) d off n die w = .ok [⟨off, n, .here (a + off) g⟩]) →
        2 ^ 42 ≤ a → (∀ sl, ((look ((look (s.dieAt die).sketches ctl).getD ⟨[], [], [], 0⟩).cands sl).getD []).length ≤ 64) →
        ∃ t, exec (.hotRecordInterval die ctl) s = .next t ∧
          (look (t.dieAt die).sketches ctl) = some ⟨[], [], [], s.ftime⟩ ∧
          leNat (memBytes t.mem (a + 1088 * ctl) 8) = (leNat (memBytes s.mem (a + 1088 * ctl) 8) + 2) % 2 ^ 64 ∧
          leNat (memBytes t.mem (a + 1088 * ctl + 8) 8) = s.ftime % 2 ^ 64) ∧
      (s.ftime < ((look (s.dieAt die).sketches ctl).getD ⟨[], [], [], 0⟩).since + 100000 →
        exec (.hotRecordInterval die ctl) s = .next s)) ∧
    (∀ lo hi fixed, (lo ≤ s.scrubAt → s.scrubAt ≤ hi → ∃ t, exec (.scrub lo hi fixed) s = .next t ∧ t.scrubAt = hi ∧ SameBytes s t ∧
        (∀ n, t.coreAt n = s.coreAt n) ∧ ∀ a ∈ fixed, ∀ u, memoryAt a = some u → ∃ k, (u, k + 1) ∈ t.corrected) ∧
      (s.scrubAt < lo ∨ hi < s.scrubAt → exec (.scrub lo hi fixed) s = .next s))

/-- R216, R218, R219, R220, R221, R231, R238, R243, R254: what befalls the fabric: lanes and links, the paths of a lost port, which its
traffic
takes once what it had sent has been accepted (log 98), tag groups and keys, poison records, of which a core is told once it has met the
message (log 99), idle flits, declarations of unreachable devices with the objections and absences they
make, and the correction of fabric time.
That a retrained link ends the declaration of its peer is the model's reading of log 65. -/
def Obligations.FabricEvents : Prop :=
  ∀ (s : State) (port : Nat) (x : Link), x = s.linkAt port → port < 62 →
    (∃ t, exec (.laneFailure port) s = .next t ∧ { t with links := s.links, routes := s.routes, moves := s.moves } = s ∧
      (t.linkAt port).lanesLost = x.lanesLost + 1 ∧
      (x.lanesLost = 0 → (t.linkAt port).state = .fenced) ∧ (1 ≤ x.lanesLost → (t.linkAt port).state = .down)) ∧
    (∃ t, exec (.linkDown port) s = .next t ∧ { t with links := s.links, routes := s.routes, moves := s.moves } = s ∧
      (t.linkAt port).state = .down ∧
      ∀ p, p < 62 → p ≠ port → (s.linkAt p).state = .up → (∀ q, q < p → q ≠ port → (s.linkAt q).state ≠ .up) →
        ∀ dst, dst < 1024 → dst ≠ s.pos → s.routeTo dst = port → s.moves = [] →
          (x.owes dst = false → t.routeTo dst = p ∧ look t.moves dst = none) ∧
          (x.owes dst = true → t.routeTo dst = port ∧ look t.moves dst = some p)) ∧
    (x.state ≠ .up → x.lanesLost < 2 → ∃ t, exec (.linkRetrained port) s = .next t ∧ (t.linkAt port).state = .up ∧
      look t.declared (portPeer s.pos port) = none ∧ portPeer s.pos port ∉ t.unreachable) ∧
    (2 ≤ x.lanesLost → exec (.linkRetrained port) s = .next s) ∧
    (x.state = .up → x.partialGroup.length < 4 → ∃ t, exec (.halyardIdleFlit port) s = .next t ∧
      t.outbox = s.outbox ++ [.idle port] ∧ (t.linkAt port).idle = s.ftime ∧
      (t.linkAt port).partialGroup.length = x.partialGroup.length + 1) ∧
    (0 < x.partialGroup.length → x.partialGroup.length < 5 → ∃ t, exec (.tagGroupIdleFill port) s = .next t ∧
      (t.linkAt port).partialGroup = [] ∧ (t.linkAt port).counter = x.counter + 1 ∧ { t with links := s.links } = s ∧
      ∃ g init last, g = x.partialGroup ++ List.replicate (5 - x.partialGroup.length) idleFlit ∧ init = g.take 4 ∧
        (t.linkAt port).replay = x.replay ++ [(x.counter, init ++ [last])] ∧ { last with tag := [] } = idleFlit ∧
        last.tag = groupTag s.pos port x.derived (max x.epoch (x.counter / 2 ^ 40)) true x.counter g) ∧
    (∀ (flits : List Flit) fifth, (flits.length ≠ 4 ∨ ∃ f ∈ flits ++ [fifth], flitSound f = false) →
      exec (.tagGroupReceive port flits fifth) s = .next s) ∧
    (x.state = .up → ∀ (flits : List Flit) fifth, flits.length = 4 → (∀ f ∈ flits ++ [fifth], flitSound f = true) → ∀ tag,
      tag = groupTag s.pos port x.derived (max x.epochIn (x.received / 2 ^ 40)) false x.received (flits ++ [fifth]) →
      (fifth.tag = tag → ∃ t, exec (.tagGroupReceive port flits fifth) s = .next t ∧
        (t.linkAt port).received = x.received + 1 ∧ (t.linkAt port).state = .up ∧ { t with links := s.links } = s) ∧
      (fifth.tag ≠ tag →
        (s.skid port = false → ∃ t, exec (.tagGroupReceive port flits fifth) s = .next t ∧ (t.linkAt port).state = .fenced ∧
          (t.linkAt port).received = x.received ∧ (t.linkAt port).derived = x.derived + 1 ∧ { t with links := s.links } = s) ∧
        (s.skid port = true → ∃ t, exec (.tagGroupReceive port flits fifth) s = .next t ∧ (t.linkAt port).state = .fenced ∧
          (t.linkAt port).derived = x.derived + 1 ∧ (t.linkAt port).received = x.received + 1 ∧
          ∀ f ∈ flits ++ [fifth], f.last = true → f.cls ≠ 0 → f.dst / 4096 = s.pos → ∀ n p, n = f.dst % 4096 →
            p = ⟨x.received, port, f.kind, f.cls, f.src, false, f.oid, if 3 ≤ f.kind ∧ f.kind ≤ 7 then f.off else 0, f.data.length⟩ →
            (s.unmet n p = true → (n, p) ∈ t.tainted) ∧
            (s.unmet n p = false → (∃ q ∈ s.met, q.1 = n ∧ poisonAbout p q.2.1 q.2.2.1 q.2.2.2 = true) →
              Instr.poisonNotice n p ∈ t.inflight)))) ∧
    (x.epoch < x.counter / 2 ^ 40 ∨ x.epochIn < x.received / 2 ^ 40 → ∃ t, exec (.linkKeyRollover port) s = .next t ∧
      (t.linkAt port).epoch = max x.epoch (x.counter / 2 ^ 40) ∧ (t.linkAt port).epochIn = max x.epochIn (x.received / 2 ^ 40) ∧
      exec (.linkKeyRollover port) t = .next t) ∧
    (∀ n p, (s.coreAt n).poison.length < 64 → (s.coreAt n).handling = false → (s.coreAt n).pendingTrap = none →
      (s.coreAt n).events = [] →
      ∃ t, exec (.poisonNotice n p) s = .next t ∧ (t.coreAt n).poison = (s.coreAt n).poison ++ [p] ∧
        (t.coreAt n).ecause = 0x14 ∧ (t.coreAt n).eval = 1 ∧ (t.coreAt n).epc = 0 ∧ (t.frameAt n 10).state = .ready ∧
        (t.frameAt n 10).pc = s.kernelVector) ∧
    (∀ n p, (s.coreAt n).poison.length = 64 → ∃ t, exec (.poisonNotice n p) s = .next t ∧ (t.coreAt n).poison.length = 64 ∧
      ∃ r, (t.coreAt n).poison[63]? = some r ∧ r.ovfl = true) ∧
    (∀ pos, pos ≠ s.pos → look s.declared pos = none →
      ∃ t, exec (.declaredUnreachable pos) s = .next t ∧ look t.declared pos = some s.ftime ∧
        (∀ i, (s.claimAt i).state = .announced → pos ∈ (s.claimAt i).ann.members → s.ftime + 2000 ≤ (s.claimAt i).ann.te →
          (pos, 0xFF02) ∈ (t.claimAt i).objections) ∧
        (∀ i, (s.claimAt i).ann.te < s.ftime + 2000 → (t.claimAt i).objections = (s.claimAt i).objections) ∧
        (∀ id c, look s.colls id = some c → pos ∈ c.members → (∀ q ∈ c.got, q.1 ≠ pos) →
          ∃ y, look t.colls id = some y ∧ pos ∈ y.absent)) ∧
    (∀ pos at_, look s.declared pos = some at_ →
      (at_ + 50000 ≤ s.ftime → pos ∉ s.unreachable → ∃ t, exec (.unreachableClasses pos) s = .next t ∧
        { t with unreachable := s.unreachable } = s ∧ ∀ q, q ∈ t.unreachable ↔ q ∈ s.unreachable ∨ q = pos) ∧
      (s.ftime < at_ + 50000 → exec (.unreachableClasses pos) s = .next s)) ∧
    (∀ e, (s.halyardLost = false → exec (.ftimeCorrection e) s = .next { s with ftimeErr := e }) ∧
      (s.halyardLost = true → exec (.ftimeCorrection e) s = .next s))

/-- R233, R416: waiting messages for one device leave in one datagram of at most 64, with the next sequence number, which is kept; one
not acknowledged for 20 µs is sent again; a datagram whose bytes are not those of its header, entries and tag, or that comes again, changes
no queue;
a message that comes next in order enters its queue, and a full queue leaves the datagram unacknowledged. -/
def Obligations.InterPodDatagrams : Prop :=
  ∀ (s : State) (pod pos : Nat),
    (∀ count, 1 ≤ count → (∃ e ∈ s.txbuf, e.1 = pod ∧ e.2.1 = pos) →
      ∃ t d, exec (.datagramSend pod pos count) s = .next t ∧ t.outbox = s.outbox ++ [.datagram (datagramWire d) d] ∧ 1 ≤ d.entries.length ∧
        d.entries.length ≤ 64 ∧ d.entries.length ≤ count ∧ authentic (datagramWire d) d = true ∧ d.spod = s.pod ∧ d.spos = s.pos ∧
          d.dpod = pod ∧ d.dpos = pos ∧
        d.seq = (s.peerAt pod pos).sent + 1 ∧ d.ack = (s.peerAt pod pos).seen ∧
        (t.peerAt pod pos).unacked = (s.peerAt pod pos).unacked ++ [(d, s.ftime)] ∧
        (s.txbuf.filter (fun e => decide (e.1 = pod ∧ e.2.1 = pos))).map (fun e => e.2.2) =
          d.entries ++ (t.txbuf.filter (fun e => decide (e.1 = pod ∧ e.2.1 = pos))).map (fun e => e.2.2)) ∧
    (∀ seq d sent, (s.peerAt pod pos).unacked = [(d, sent)] → d.seq = seq →
      (sent + 20000 ≤ s.ftime → ∃ t, exec (.datagramResend pod pos seq) s = .next t ∧
        t.outbox = s.outbox ++ [.datagram (datagramWire { d with ack := (s.peerAt pod pos).seen }) { d with ack := (s.peerAt pod pos).seen }]) ∧
      (s.ftime < sent + 20000 → exec (.datagramResend pod pos seq) s = .next s)) ∧
    (∀ wire d, authentic wire d = false → exec (.datagramReceive wire d) s = .next s) ∧
    (∀ wire d, authentic wire d = true → d.dpod = s.pod → d.dpos = s.pos → d.spod = pod → d.spos = pos → (s.peerAt pod pos).unacked = [] →
      (d.seq ≤ (s.peerAt pod pos).seen → ∃ t, exec (.datagramReceive wire d) s = .next t ∧ t.inflight = s.inflight ∧
        ∀ n, t.coreAt n = s.coreAt n) ∧
      (∀ e n m, d.entries = [e] → e.reply = none → n = e.dest % 4096 → m = { e.msg with objid := e.oid } →
        d.seq = (s.peerAt pod pos).seen + 1 → (s.peerAt pod pos).beyond = [] → s.evictedCluster (clusterOf n) = false →
        s.takesMessages n = true →
        (0 < s.roomAt n m.u → (∀ x ∈ (s.coreAt n).queue m.u, x.serial < (s.coreAt n).serial) →
          ∃ t, exec (.datagramReceive wire d) s = .next t ∧ (t.peerAt pod pos).seen = d.seq ∧
            (t.coreAt n).queue m.u = (s.coreAt n).queue m.u ++ [⟨m, s.ftime, (s.coreAt n).serial, .pod pod pos, false⟩]) ∧
        (s.roomAt n m.u = 0 → ∃ t, exec (.datagramReceive wire d) s = .next t ∧ (t.peerAt pod pos).seen = (s.peerAt pod pos).seen ∧
          ∀ k, t.coreAt k = s.coreAt k)))

/-- Fault-queue records, hotness recording and scrubbing. -/
def Obligations.FaultQueuesAndMemoryEvents : Prop :=
  Sys2Proof.Says.FaultsAreReplayed ∧ Sys2Proof.Says.HotnessAndScrubbing

namespace Sys2Proof.Says

/-- The frame (n, f) of the partition k holds work (R280): it is not a supervisor frame. -/
def WorkFrame (s : State) (k n f : Nat) : Prop := (n, f) ∈ s.framesOf k ∧ f < 10

/-- Nothing of the cores has changed but that the supervisor frames of a partition that waited after HALT go on (R270, R367). -/
def KernelsWoken (s t : State) (k : Nat) : Prop :=
  ∀ n, { t.coreAt n with frames := (s.coreAt n).frames } = s.coreAt n ∧ (∀ f, f ≠ 10 → t.frameAt n f = s.frameAt n f) ∧
    ((s.frameAt n 10).wait ≠ some .halted → t.frameAt n 10 = s.frameAt n 10) ∧
    (n ∈ (s.ctxAt k).cores → (s.frameAt n 10).wait = some .halted →
      (t.frameAt n 10).wait = none ∧ (t.frameAt n 10).state = .ready ∧ (t.frameAt n 10).pc = (s.frameAt n 10).pc)

/-- The ladder with which a step starts, for a slice: its three times are those that the kernel of the first core has then (R382; log 36).
-/
def firstStage (s : State) (k : Nat) : Ladder := ⟨.reef, s.ftime, .slice, [], s.timer k (·.t1), s.timer k (·.t2), s.timer k (·.t3)⟩

/-- The ladder of a context is at a stage, with the fields it had. -/
def AtStage (s : State) (k : Nat) (l : Ladder) (g : Stage) : Prop := (s.ctxAt k).ladder = some { l with stage := g }

end Sys2Proof.Says

/-- R280, R281, R307, R270: reef starts the ladder of a running context, as the end of its slice does; T1 later heave-to stops its
parked frames, with full state, and leaves the running ones; T1 + T2 after the start the halt stops every frame that still runs at its
instruction boundary; when every frame is free or stopped and the engines are idle the ladder ends and a slice leaves the context
BOUND, a pause PAUSED, and the ladder of MIGRATE FINAL PAUSED too, until its image is written (R309; log 42). Each step ends the wait of
the supervisor frames after HALT. That the ladder takes the times of the partition's first core is the model's reading of log 36. -/
def Obligations.LadderStages : Prop :=
  ∀ (s : State) (k : Nat),
    ((s.ctxAt k).state = .running → (s.ctxAt k).ladder = none →
      (∃ t, exec (.reef k) s = .next t ∧ { t with contexts := s.contexts, cores := s.cores } = s ∧ KernelsWoken s t k ∧
        (t.ctxAt k).ladder = some (firstStage s k) ∧ ∀ j, j ≠ k → t.ctxAt j = s.ctxAt j) ∧
      ((s.ctxAt k).slice ≠ 0 → (s.ctxAt k).sliceAt + (s.ctxAt k).slice ≤ s.ftime →
        ∃ t, exec (.sliceEnd k) s = .next t ∧ { t with contexts := s.contexts, cores := s.cores } = s ∧ KernelsWoken s t k ∧
          (t.ctxAt k).ladder = some (firstStage s k)) ∧
      (s.ftime < (s.ctxAt k).sliceAt + (s.ctxAt k).slice → exec (.sliceEnd k) s = .next s)) ∧
    (∀ l, (s.ctxAt k).ladder = some l →
      (l.stage = .reef → l.start + l.t1 ≤ s.ftime →
        ∃ t, exec (.heaveTo k) s = .next t ∧ AtStage t k l .heaveTo ∧ SameBytes s t ∧
          ∀ n f, WorkFrame s k n f →
            (∀ p, (s.frameAt n f).state = .parked → (s.frameAt n f).park = some p →
              (t.frameAt n f).state = .stopped ∧ (t.frameAt n f).g = (s.frameAt n f).g ∧ (t.frameAt n f).c = (s.frameAt n f).c ∧
              (t.frameAt n f).v = (s.frameAt n f).v ∧ (t.frameAt n f).pc = (s.frameAt n f).pc ∧ (t.frameAt n f).saved.isSome) ∧
            ((s.frameAt n f).state = .running ∨ (s.frameAt n f).state = .ready → (s.frameAt n f).wait = none →
              t.frameAt n f = s.frameAt n f)) ∧
      (l.stage = .heaveTo → l.start + l.t1 + l.t2 ≤ s.ftime →
        ∃ t, exec (.ladderHalt k) s = .next t ∧ AtStage t k l .halt ∧ SameBytes s t ∧
          ∀ n f, WorkFrame s k n f → (s.frameAt n f).state = .running ∨ (s.frameAt n f).state = .ready →
            (s.frameAt n f).wait = none →
            (t.frameAt n f).state = .stopped ∧ (t.frameAt n f).saved = some ⟨.ready, false⟩ ∧
            (t.frameAt n f).g = (s.frameAt n f).g ∧ (t.frameAt n f).c = (s.frameAt n f).c ∧
            (t.frameAt n f).v = (s.frameAt n f).v ∧ (t.frameAt n f).pc = (s.frameAt n f).pc) ∧
      (l.stage ≠ .reef →
        (∀ n f, WorkFrame s k n f → (s.frameAt n f).state = .free ∨ (s.frameAt n f).state = .stopped) → s.enginesIdle k = true →
        ∃ t, exec (.ladderStopped k) s = .next t ∧ (t.ctxAt k).ladder = none ∧ (t.ctxAt k).stopped = true ∧
          (l.why = .slice → (t.ctxAt k).state = .bound) ∧ (l.why = .pause → (t.ctxAt k).state = .paused) ∧
          (l.why = .migrate → (t.ctxAt k).state = .paused) ∧ KernelsWoken s t k) ∧
      ((∃ n f, WorkFrame s k n f ∧ (s.frameAt n f).state ≠ .free ∧ (s.frameAt n f).state ≠ .stopped) →
        exec (.ladderStopped k) s = .next s))

/-- R280, R283, R282, R69, R304: T3 after the start, with the stop not complete, a strike frees and clears every frame of the partition and
empties its queues, and the context is BOUND; before T3 nothing is struck. Restore returns a parked frame that still waits to PARKED and
every other to READY with a new ready time, with its registers as saved; a context PAUSED for PAUSEMAX runs again. -/
def Obligations.StrikeAndRestore : Prop :=
  ∀ (s : State) (k : Nat),
    (∀ l, (s.ctxAt k).ladder = some l →
      (l.start + l.t3 ≤ s.ftime → s.stopComplete k = false → s.mayStrike k = true →
        ∃ t, exec (.strike k) s = .next t ∧ (t.ctxAt k).state = .bound ∧ (t.ctxAt k).ladder = none ∧ (t.ctxAt k).locks = [] ∧
          ∀ n ∈ (s.ctxAt k).cores, (t.coreAt n).normalQ = [] ∧ (t.coreAt n).urgentQ = [] ∧ (t.coreAt n).fifo = [] ∧
            ∀ f, f < 10 → (t.frameAt n f).state = .free ∧ (∀ r, (t.frameAt n f).gpr r = 0) ∧
              (∀ r, (t.frameAt n f).cap r = Cap.null) ∧ (t.frameAt n f).act = none) ∧
      (s.ftime < l.start + l.t3 → exec (.strike k) s = .next s)) ∧
    ((s.ctxAt k).state = .running → (s.ctxAt k).stopped = true → (s.ctxAt k).cores.Nodup →
      ∃ t, exec (.restoreFrames k) s = .next t ∧ (t.ctxAt k).stopped = false ∧
        ∀ n ∈ (s.ctxAt k).cores, ∀ f v, f < 10 → (s.frameAt n f).state = .stopped → (s.frameAt n f).saved = some v →
          (v.prior = .parked → v.arrived = false → (t.frameAt n f).state = .parked ∧ (t.frameAt n f).park = (s.frameAt n f).park) ∧
          (v.prior ≠ .parked ∨ v.arrived = true → (t.frameAt n f).state = .ready ∧ (t.frameAt n f).ready = s.ftime) ∧
          (t.frameAt n f).g = (s.frameAt n f).g ∧ (t.frameAt n f).c = (s.frameAt n f).c ∧ (t.frameAt n f).pc = (s.frameAt n f).pc) ∧
    ((s.ctxAt k).state ≠ .running ∨ (s.ctxAt k).stopped = false → exec (.restoreFrames k) s = .next s) ∧
    ((s.ctxAt k).state = .paused → (s.ctxAt k).leaving = false → (s.ctxAt k).pausedAt + (s.ctxAt k).policy.pauseMax ≤ s.ftime →
      ∃ t, exec (.pausemaxResume k) s = .next t ∧ (t.ctxAt k).state = .running ∧ (t.ctxAt k).slice = (s.ctxAt k).slice ∧
        (t.ctxAt k).sliceAt = s.ftime) ∧
    ((s.ctxAt k).leaving = true ∨ s.ftime < (s.ctxAt k).pausedAt + (s.ctxAt k).policy.pauseMax →
      exec (.pausemaxResume k) s = .next s)

namespace Sys2Proof.Says

/-- The front end may take a wholly published packet of len units at HEAD of the ring x = ring r of the VF, whose bytes are the number
w (R297); its type is ty and its sequence number seq. -/
structure PacketAt (s : State) (vf r : Nat) (x : Ring) (len ty w : Nat) (seq : BitVec 32) : Prop where
  ring  : x = s.ringAt vf r
  run   : x.rstate.extractLsb' 0 2 = 1
  read  : s.ringsRead vf = true
  tail  : x.head ≠ x.tail ∧ x.tail.toNat < x.rsize.toNat
  word  : w = s.readNat (dmaAddr vf (x.rbase.toNat + 64 * x.head.toNat)) (64 * len)
  units : len = w / 2 ^ 8 % 16 ∧ 1 ≤ len ∧ len ≤ 4
  fits  : x.head.toNat + len ≤ x.rsize.toNat
  whole : len ≤ (x.tail.toNat + x.rsize.toNat - x.head.toNat) % x.rsize.toNat
  room  : x.spare ≠ 0
  sound : s.badAt (dmaAddr vf (x.rbase.toNat + 64 * x.head.toNat)) (64 * len) = none
  small : x.rsize.toNat ≤ 65536
  kind  : ty = w % 256
  number : seq.toNat = w / 2 ^ 32 % 2 ^ 32
  clean : packetClean ty w = true

end Sys2Proof.Says

/-- R294, R297, R298, R296: the registers of a ring take the host's writes; RESET and enabling put it into the states they name; the
front end takes the packet at HEAD: a MSG to its queue, or to another device that has room for it (whether it has is a free value: log
14), with the number of its ticket in SLOTSEQ (the model's choice of log 83), a PAD with no effect, a REPLAYMARK and a fencing NOP into
their lists; TAIL at or above RSIZE leaves QERR with cause 4, a DMA
error at HEAD cause 5. -/
def Sys2Proof.Says.RingsServe : Prop :=
  ∀ (s : State) (vf r : Nat) (x : Ring), x = s.ringAt vf r → vfExists vf = true → r < 16 →
    (∀ b, ∃ t, exec (.ringInterruptEnable vf r b) s = .next t ∧ (t.ringAt vf r).rctl.getLsbD 2 = b ∧
      (∀ i, i < 32 → i ≠ 2 → (t.ringAt vf r).rctl.getLsbD i = x.rctl.getLsbD i)) ∧
    (∀ en, ∃ t, exec (.ringReset vf r en) s = .next t ∧ (t.ringAt vf r).head = 0 ∧ (t.ringAt vf r).tail = 0 ∧
      (t.ringAt vf r).ctail = 0 ∧ (t.ringAt vf r).phase = true ∧ (t.ringAt vf r).mark = 0 ∧
      (en = false → (t.ringAt vf r).rstate = 0) ∧
      (en = true → x.limits = true → (t.ringAt vf r).rstate = 1) ∧ (en = true → x.limits = false → (t.ringAt vf r).rstate = 0x60)) ∧
    (x.head = x.tail → x.rstate.extractLsb' 0 2 = 0 →
      (x.limits = true → ∃ t, exec (.ringEnable vf r true) s = .next t ∧ (t.ringAt vf r).rstate = 1 ∧
        (t.ringAt vf r).rctl.getLsbD 0 = true ∧ (t.ringAt vf r).mark = x.head.toNat) ∧
      (x.limits = false → ∃ t, exec (.ringEnable vf r true) s = .next t ∧ (t.ringAt vf r).rstate = 0x60)) ∧
    (x.head = x.tail → ∀ h, ∃ t, exec (.completionHead vf r h) s = .next t ∧ (t.ringAt vf r).chead = BitVec.ofNat 32 h ∧
      { t.ringAt vf r with chead := x.chead } = x) ∧
    (∀ v : Word,
      (∃ t, exec (.registerWrite vf (256 * r + 0x30) v) s = .next t ∧ t.ringAt vf r = { x with maddr := v }) ∧
      (x.rstate.extractLsb' 0 2 = 0 →
        (∃ t, exec (.registerWrite vf (256 * r) v) s = .next t ∧ t.ringAt vf r = { x with rbase := v }) ∧
        (∃ t, exec (.registerWrite vf (256 * r + 0x08) v) s = .next t ∧ t.ringAt vf r = { x with rsize := v.setWidth 32 }) ∧
        (∃ t, exec (.registerWrite vf (256 * r + 0x18) v) s = .next t ∧ t.ringAt vf r = { x with cbase := v }) ∧
        (∃ t, exec (.registerWrite vf (256 * r + 0x20) v) s = .next t ∧ t.ringAt vf r = { x with csize := v.setWidth 32 })) ∧
      (x.rstate.extractLsb' 0 2 ≠ 0 → ∀ o ∈ [0, 0x08, 0x18, 0x20], exec (.registerWrite vf (256 * r + o) v) s = .next s)) ∧
    (∀ tail, tail < 2 ^ 32 →
      (x.rstate.extractLsb' 0 2 ≠ 1 ∨ x.head.toNat = tail → ∃ t, exec (.ringDoorbell vf r tail) s = .next t ∧
        t.ringAt vf r = { x with tail := BitVec.ofNat 32 tail } ∧ SameBytes s t) ∧
      (x.rstate.extractLsb' 0 2 = 1 → x.head.toNat ≠ tail → s.ringsRead vf = true → x.rsize.toNat ≤ tail →
        ∃ t, exec (.ringDoorbell vf r tail) s = .next t ∧ (t.ringAt vf r).rstate = 0x42 ∧ (t.ringAt vf r).head = x.head ∧
          t.outbox = s.outbox ++ [.interrupt vf 16]) ∧
      (x.rstate.extractLsb' 0 2 = 1 → x.head.toNat ≠ tail → s.ringsRead vf = true → tail < x.rsize.toNat →
        s.badAt (dmaAddr vf (x.rbase.toNat + 64 * x.head.toNat)) 8 ≠ none →
        ∃ t, exec (.ringDoorbell vf r tail) s = .next t ∧ (t.ringAt vf r).rstate = 0x52 ∧ (t.ringAt vf r).head = x.head ∧
          t.outbox = s.outbox ++ [.interrupt vf 16])) ∧
    (∀ len ty w seq head, PacketAt s vf r x len ty w seq → head = (x.head.toNat + len) % x.rsize.toNat →
      (ty = 2 → (∃ t, exec (.pad vf r) s = .next t ∧ t.ringAt vf r = { x with head := BitVec.ofNat 32 head }) ∧
        (head = x.tail.toNat → ∃ t, exec (.ringPacketRetry vf r) s = .next t ∧
          t.ringAt vf r = { x with head := BitVec.ofNat 32 head })) ∧
      (ty = 3 → len = 1 → ∃ t, exec (.replaymark vf r) s = .next t ∧
        t.ringAt vf r = { x with head := BitVec.ofNat 32 head, marks := x.marks ++ [(x.next, head, seq)] }) ∧
      (ty = 4 → (w / 2 ^ 24 % 2 = 0 → ∃ t, exec (.nopPacket vf r) s = .next t ∧
          t.ringAt vf r = { x with head := BitVec.ofNat 32 head }) ∧
        (w / 2 ^ 24 % 2 = 1 → ∃ t, exec (.nopPacket vf r) s = .next t ∧ t.ringAt vf r =
          { x with head := BitVec.ofNat 32 head, fences := x.fences ++ [(x.next, seq, 0)], reserved := x.reserved + 1 })) ∧
      (∀ k m (d : Desc) n, ty = 1 → len = 2 → s.ctxOfVf vf = some k → m = s.packetMsg vf r w → m.sl = false →
        s.liveAt (s.ctxAt k) m.objid = some d → s.far d = false → n = s.homeOf (s.ctxAt k) d 0 % 4096 → s.takesMessages n = true →
        (0 < s.roomAt n m.u → (∀ q ∈ (s.coreAt n).queue m.u, q.serial < (s.coreAt n).serial) →
          ∃ t, exec (.msg vf r) s = .next t ∧ (t.ringAt vf r).head = BitVec.ofNat 32 head ∧
            (t.ringAt vf r).reserved = x.reserved + 1 ∧
            (t.coreAt n).queue m.u = (s.coreAt n).queue m.u ++ [⟨m, s.ftime, (s.coreAt n).serial, .ring vf r x.next, false⟩] ∧
            m.host = true ∧ m.sender.toNat = (vf * 16 + r) % 2 ^ 22 ∧ m.nw = 7 ∧ m.stripe = 0) ∧
        (s.roomAt n m.u = 0 → exec (.msg vf r) s = .next s)) ∧
      (∀ k m (d : Desc), ty = 1 → len = 2 → s.ctxOfVf vf = some k → m = s.packetMsg vf r w → m.sl = false →
        s.liveAt (s.ctxAt k) m.objid = some d → s.far d = true → d.home / 4096 ∉ s.unreachable →
        (Config.farReserve s.steps = true → ∃ t, exec (.msg vf r) s = .next t ∧ (t.ringAt vf r).head = BitVec.ofNat 32 head ∧
          (t.ringAt vf r).reserved = x.reserved + 1 ∧ t.outbox = s.outbox ++
            [.message d.home { m with objid := BitVec.ofNat 40 d.xbase, slotseq := BitVec.ofNat 16 x.next }]) ∧
        (Config.farReserve s.steps = false → exec (.msg vf r) s = .next s)))

/-- R298, R299, R283: a mark takes effect once every message before it has ended, and is written to the mark word where MADDR names one; a
fence completes once every message before it has been dispatched, with an entry of KIND 2 at CTAIL, which moves on; both
wait until then; a DMA error on the entry leaves QERR with cause 5, and no byte of the entry (log 78). -/
def Sys2Proof.Says.MarksAndFences : Prop :=
  ∀ (s : State) (vf r : Nat) (x : Ring), x = s.ringAt vf r → memWf s.mem = true →
    (∀ bound i seq ms, x.marks = (bound, i, seq) :: ms →
      ((∀ q ∈ x.tickets, q.n < bound → 2 ≤ q.stage) →
        ∃ t, exec (.replaymarkEffect vf r) s = .next t ∧ t.ringAt vf r = { x with mark := i, marks := ms } ∧
          (x.maddr = 0 → SameBytes s t) ∧
          (x.maddr ≠ 0 → i < 2 ^ 32 → leNat (memBytes t.mem (dmaAddr vf x.maddr.toNat) 8) = seq.toNat * 2 ^ 32 + i)) ∧
      ((∃ q ∈ x.tickets, q.n < bound ∧ q.stage < 2) → exec (.replaymarkEffect vf r) s = .next s)) ∧
    (x.marks = [] → exec (.replaymarkEffect vf r) s = .next s) ∧
    (∀ bound seq oid a, x.fences = [(bound, seq, oid)] → a = dmaAddr vf (x.cbase.toNat + 128 * x.ctail.toNat) →
      ((∀ q ∈ x.tickets, q.n < bound → 1 ≤ q.stage) → s.badAt a 128 ≠ none →
        ∃ t, exec (.nopFenceComplete vf r) s = .next t ∧ (t.ringAt vf r).rstate = 0x52 ∧ (t.ringAt vf r).ctail = x.ctail ∧
          t.outbox = s.outbox ++ [.interrupt vf 16] ∧ SameBytes s t) ∧
      ((∀ q ∈ x.tickets, q.n < bound → 1 ≤ q.stage) → s.badAt a 128 = none →
        ∃ t, exec (.nopFenceComplete vf r) s = .next t ∧ (t.ringAt vf r).fences = [] ∧
          leNat (memBytes t.mem a 4) = seq.toNat ∧ memGet t.mem (a + 4) = BitVec.ofNat 8 r ∧ memGet t.mem (a + 5) = 2 ∧
          leNat (memBytes t.mem (a + 6) 2) = 0 ∧ leNat (memBytes t.mem (a + 8) 8) = oid.toNat ∧
          leNat (memBytes t.mem (a + 16) 8) = s.ftime % 2 ^ 64 ∧ memGet t.mem (a + 127) = (if x.phase then 1 else 0) ∧
          (x.ctail.toNat + 1 < x.csize.toNat → (t.ringAt vf r).ctail.toNat = x.ctail.toNat + 1 ∧ (t.ringAt vf r).phase = x.phase) ∧
          (x.csize.toNat ≤ x.ctail.toNat + 1 → (t.ringAt vf r).ctail = 0 ∧ (t.ringAt vf r).phase = !x.phase) ∧
          ((t.outbox = s.outbox ++ [.interrupt vf r]) ↔ x.rctl.getLsbD 2 = true)) ∧
      ((∃ q ∈ x.tickets, q.n < bound ∧ q.stage = 0) → exec (.nopFenceComplete vf r) s = .next s))

/-- Submission rings, their completions, marks and fences. -/
def Obligations.Rings : Prop :=
  Sys2Proof.Says.RingsServe ∧ Sys2Proof.Says.MarksAndFences

namespace Sys2Proof.Says

/-- A mailbox command has been answered (R303): the response block, and PF vector 0. -/
def Answered (s t : State) (tag : Word) (st : Int) (r0 r1 r2 : Word) : Prop :=
  t.response = some (tag, st, r0, r1, r2) ∧ t.outbox = s.outbox ++ [.response tag st r0 r1 r2, .interrupt 0 0]

/-- The command is refused with a status and changes nothing else (R304). -/
def Declined (i : Instr) (s : State) (tag : Word) (st : Int) : Prop :=
  ∃ t, exec i s = .next t ∧ Answered s t tag st 0 0 0 ∧ { t with response := s.response, outbox := s.outbox } = s

/-- A context has been written to its buffer in n bytes and has left the device (R308): EVICTED, its clusters free, its image handle
answered. -/
def Leaves (s t : State) (k : Nat) (x : Context) (tag : Word) (n : Nat) : Prop :=
  ∃ y, t.ctxAt k = y ∧ y.state = .evicted ∧ y.clusters = x.clusters ∧ y.saved.isSome ∧ y.migration = none ∧
    Answered s t tag 0 y.image (BitVec.ofNat 64 n) 0 ∧ ∀ c ∈ x.clusters, (t.clusterAt c).owner = none

/-- The retirement claim of a context (R259, R310): kind 9 and the VF in its key, W = 8 µs, this device and the policy's peers its
members. -/
def Retires (s : State) (x : Context) (a : Announcement) : Prop :=
  a.group = 64 ∧ a.key = BitVec.ofNat 64 (9 * 2 ^ 60 + x.vf) ∧ a.te = s.ftime + 8000 ∧ a.proposer = s.pos ∧ s.pos ∈ a.members ∧
    ∀ p ∈ x.policy.peers, p ∈ a.members

end Sys2Proof.Says

/-- R304, R301, R302, R107, R120, R280, R319: CONTEXT makes a context of a valid policy and answers its handle; BIND gives it a VF and
cleared clusters with the policy's timers; SCHEDULE and RESUME run it for a slice within the policy; PAUSE starts the ladder. Each
answers the status of the first check that fails, and changes nothing then.
The model's own: that -4 answers a group which another context owns (log 40), which status stands where two checks fail (58), which
clusters BIND takes (41), that PAUSE of a PAUSED context answers 0 (53), and whose T1 to T3 the ladder takes (36). -/
def Obligations.ContextCommands : Prop :=
  ∀ (s : State) (tag h : Word),
    (∀ addr len,
      (parsePolicy (s.hostBytes addr len) = none → Declined (.context tag addr len) s tag (-5)) ∧
      (∀ p, parsePolicy (s.hostBytes addr len) = some p → p.namesDevice = false → Declined (.context tag addr len) s tag (-1)) ∧
      (∀ p, parsePolicy (s.hostBytes addr len) = some p → p.namesDevice = true → (∀ q ∈ s.contexts, q.2.state ≠ .gone) →
        (s.groupsTaken p = true → Declined (.context tag addr len) s tag (-4)) ∧
        (s.groupsTaken p = false → ∃ t x, exec (.context tag addr len) s = .next t ∧ t.ctxAt s.nextCtx = x ∧ x.state = .created ∧
          x.policy = p ∧ x.clusters = [] ∧ Answered s t tag 0 x.handle 0 0 ∧ (∀ k, k ≠ s.nextCtx → t.ctxAt k = s.ctxAt k) ∧
          ∀ g b ms, p.groups = [(g, b, ms)] → (t.groupAt g).owner = some s.nextCtx ∧ (t.groupAt g).grant = b ∧
            (t.groupAt g).members = ms ∧ (t.groupAt g).window = 8000))) ∧
    (s.byHandle h = none → ∀ a b c, Declined (.bind tag h a b c) s tag (-2) ∧ Declined (.schedule tag h a) s tag (-2) ∧
      Declined (.pauseContext tag h) s tag (-2) ∧ Declined (.resume tag h a) s tag (-2)) ∧
    (∀ k x, s.byHandle h = some (k, x) →
      (∀ vf count pasid : Word,
        (x.state ≠ .created → Declined (.bind tag h vf count pasid) s tag (-3)) ∧
        (x.state = .created → (count.toNat < x.policy.clMin ∨ x.policy.clMax < count.toNat) →
          Declined (.bind tag h vf count pasid) s tag (-1)) ∧
        (x.state = .created → x.policy.clMin ≤ count.toNat → count.toNat ≤ x.policy.clMax →
          ((vf.toNat < 1 ∨ 384 < vf.toNat ∨ 2 ^ 20 ≤ pasid.toNat) → Declined (.bind tag h vf count pasid) s tag (-6)) ∧
          (1 ≤ vf.toNat → vf.toNat ≤ 384 → pasid.toNat < 2 ^ 20 →
            ((∃ q ∈ s.contexts, q.2.vf = vf.toNat ∧ q.2.state ≠ .gone) → Declined (.bind tag h vf count pasid) s tag (-4)) ∧
            (∀ cs key, (∀ q ∈ s.contexts, q.2.vf = vf.toNat → q.2.state = .gone) → s.pickClusters count.toNat = some cs →
              s.freeKey = some key →
              ∃ t y, exec (.bind tag h vf count pasid) s = .next t ∧ t.ctxAt k = y ∧ y.state = .bound ∧ y.vf = vf.toNat ∧
                y.pasid.toNat = pasid.toNat ∧ y.clusters = cs ∧ cs.length = count.toNat ∧ t.response = some (tag, 0, y.queue, 0, 0) ∧
                ∀ c ∈ cs, s.bindable c = true ∧ (t.clusterAt c).owner = some k ∧ (t.clusterAt c).jobs = [] ∧
                  ∀ i, i < 8 → (t.coreAt (8 * c + i)).frames = Core.reset.frames ∧ (t.coreAt (8 * c + i)).normalQ = [] ∧
                    (t.coreAt (8 * c + i)).t1.toNat = x.policy.t1.toNat ∧ (t.coreAt (8 * c + i)).t3.toNat = x.policy.t3.toNat)))) ∧
      (∀ sl : Word,
        ((x.state ≠ .bound ∧ x.state ≠ .paused) ∨ x.leaving = true → Declined (.schedule tag h sl) s tag (-3)) ∧
        (x.state ≠ .paused ∨ x.leaving = true → Declined (.resume tag h sl) s tag (-3)) ∧
        (x.leaving = false → (sl.toNat = 0 ∧ x.policy.sliceMax ≠ 0) ∨ (sl.toNat ≠ 0 ∧
          (sl.toNat < x.policy.sliceMin ∨ x.policy.sliceMax < sl.toNat)) →
          (x.state = .bound ∨ x.state = .paused → Declined (.schedule tag h sl) s tag (-1)) ∧
          (x.state = .paused → Declined (.resume tag h sl) s tag (-1))) ∧
        ((sl.toNat = 0 ∧ x.policy.sliceMax = 0) ∨ (sl.toNat ≠ 0 ∧ x.policy.sliceMin ≤ sl.toNat ∧ sl.toNat ≤ x.policy.sliceMax) →
          x.leaving = false → ∀ i, (i = .schedule tag h sl ∧ (x.state = .bound ∨ x.state = .paused)) ∨ (i = .resume tag h sl ∧
            x.state = .paused) →
            ∃ t, exec i s = .next t ∧ Answered s t tag 0 0 0 0 ∧ (t.ctxAt k).state = .running ∧ (t.ctxAt k).slice = sl.toNat ∧
              (t.ctxAt k).sliceAt = s.ftime ∧ ∀ n, t.coreAt n = s.coreAt n)) ∧
      (x.state = .running → s.ctxAt k = x → (x.ladder = none → ∃ t, exec (.pauseContext tag h) s = .next t ∧ t.outbox = s.outbox ∧
          (t.ctxAt k).ladder = some { firstStage s k with why := .pause, tags := [tag] }) ∧
        (∀ l, x.ladder = some l → ∃ t, exec (.pauseContext tag h) s = .next t ∧ t.outbox = s.outbox ∧
          (t.ctxAt k).ladder = some { l with why := if l.why = .migrate then .migrate else .pause, tags := l.tags ++ [tag] })) ∧
      (x.state = .paused → Declined (.pauseContext tag h) s tag 0) ∧
      (x.state = .created ∨ x.state = .bound ∨ x.state = .evicted → Declined (.pauseContext tag h) s tag (-3)))

/-- R304, R308, R309: EVICT of a paused context writes its image, frees its clusters and answers the image handle; RESTORE of a right
image brings its cores back and leaves it PAUSED, of a wrong one answers -6; MIGRATE START, its snapshots, CANCEL, KEYX, and FINAL with
its delta once the last loads have come. What the bytes of an image are is the root's own (the model's choice of log 37).
FINAL without START takes every page, and its answer carries the image handle: the model's reading of log 60; which status stands where
state, policy and argument checks fail together is that of log 58. -/
def Obligations.EvictionAndMigration : Prop :=
  ∀ (s : State) (tag h addr len : Word),
    (s.byHandle h = none → ∀ i ∈ [Instr.evict tag h addr len, .migrateStart tag h addr addr len, .migrateFinal tag h addr len,
      .migrateCancel tag h, .migrateKeyx tag h addr len], Declined i s tag (-2)) ∧
    (∀ k x, s.byHandle h = some (k, x) →
      (x.state ≠ .paused ∨ x.leaving = true → Declined (.evict tag h addr len) s tag (-3)) ∧
      (x.state = .paused → x.leaving = false → x.policy.flags.getLsbD 0 = false → Declined (.evict tag h addr len) s tag (-1)) ∧
      (x.state = .paused → x.leaving = false → x.policy.flags.getLsbD 0 = true → s.ctxAt k = x →
        (len.toNat < s.imageLen k → ∃ t, exec (.evict tag h addr len) s = .next t ∧
          Answered s t tag (-7) 0 (BitVec.ofNat 64 (s.imageLen k)) 0 ∧ t.ctxAt k = x) ∧
        (s.imageLen k ≤ len.toNat → ∃ t, exec (.evict tag h addr len) s = .next t ∧ Leaves s t k x tag (s.imageLen k))) ∧
      (x.state = .created ∨ x.state = .evicted → ∀ i ∈ [Instr.migrateStart tag h addr addr len, .migrateFinal tag h addr len,
        .migrateCancel tag h, .migrateKeyx tag h addr len], Declined i s tag (-3)) ∧
      (x.holds = true → x.policy.flags.getLsbD 1 = false → ∀ i ∈ [Instr.migrateStart tag h addr addr len, .migrateFinal tag h addr len,
        .migrateCancel tag h, .migrateKeyx tag h addr len], Declined i s tag (-1)) ∧
      (x.holds = true → x.policy.flags.getLsbD 1 = true → s.ctxAt k = x →
        (∀ iv : Word,
          (x.migration.isSome = true → Declined (.migrateStart tag h iv addr len) s tag (-3)) ∧
          (x.migration = none → 100 ≤ iv.toNat → iv.toNat ≤ 1000000 → ∃ t m, exec (.migrateStart tag h iv addr len) s = .next t ∧
            Answered s t tag 0 0 0 0 ∧ (t.ctxAt k).migration = some m ∧ m.interval = iv.toNat ∧ m.addr = addr.toNat ∧
            m.len = len.toNat ∧ m.last = s.ftime ∧ m.image = none ∧ m.final = none) ∧
          (x.migration = none → (iv.toNat < 100 ∨ 1000000 < iv.toNat) → Declined (.migrateStart tag h iv addr len) s tag (-6))) ∧
        ((∀ m, x.migration = some m → m.final = none) → ∃ t, exec (.migrateCancel tag h) s = .next t ∧ Answered s t tag 0 0 0 0 ∧
          (t.ctxAt k).migration = none ∧ (t.ctxAt k).state = x.state) ∧
        ((∃ m, x.migration = some m ∧ m.final.isSome = true) → Declined (.migrateCancel tag h) s tag (-3)) ∧
        (Config.keyxPeer (s.hostBytes addr len) ∉ x.policy.dests → Declined (.migrateKeyx tag h addr len) s tag (-1)) ∧
        (Config.keyxPeer (s.hostBytes addr len) ∈ x.policy.dests → ∃ t, exec (.migrateKeyx tag h addr len) s = .next t ∧
          t.response = some (tag, 0, 0, 0, 0) ∧ Packet.spdm (Config.keyxReply (s.hostBytes addr len)) ∈ t.outbox) ∧
        (x.leaving = true → Declined (.migrateFinal tag h addr len) s tag (-3)) ∧
        (x.leaving = false → len.toNat < s.deltaLen k → ∃ t, exec (.migrateFinal tag h addr len) s = .next t ∧
          Answered s t tag (-7) 0 (BitVec.ofNat 64 (s.deltaLen k)) 0 ∧ t.ctxAt k = x) ∧
        (x.leaving = false → s.deltaLen k ≤ len.toNat →
          (x.state = .running → ∃ t l m, exec (.migrateFinal tag h addr len) s = .next t ∧ (t.ctxAt k).ladder = some l ∧
            l.why = .migrate ∧ l.tags = (match x.ladder with | some o => o.tags | none => []) ∧ t.outbox = s.outbox ∧
            (t.ctxAt k).migration = some m ∧ m.final = some (addr.toNat, len.toNat, tag)) ∧
          (x.state ≠ .running → x.ladder = none → s.answered k = true →
            ∃ t, exec (.migrateFinal tag h addr len) s = .next t ∧ Leaves s t k x tag (s.deltaLen k))))) ∧
    (∀ k x m, s.ctxAt k = x → x.migration = some m →
      (m.final = none → x.holds = true → memWf s.mem = true →
        (m.last + 1000 * m.interval ≤ s.ftime → ∃ t bs, exec (.migrateSnapshot k) s = .next t ∧ (t.ctxAt k).dirty = [] ∧
          (t.ctxAt k).migration = some { m with last := s.ftime, image := some bs } ∧
          memBytes t.mem (dmaAddr 0 m.addr) bs.length = bs ∧
          (∀ a, a < dmaAddr 0 m.addr ∨ dmaAddr 0 m.addr + bs.length ≤ a → memGet t.mem a = memGet s.mem a) ∧
          ∀ n, t.coreAt n = s.coreAt n) ∧
        (s.ftime < m.last + 1000 * m.interval → exec (.migrateSnapshot k) s = .next s)) ∧
      (∀ f, m.final = some f →
        (x.state = .bound ∨ x.state = .paused → x.ladder = none → s.answered k = true →
          (s.deltaLen k ≤ f.2.1 → ∃ t, execMigrateDelta k s = .next t ∧ Leaves s t k x f.2.2 (s.deltaLen k)) ∧
          (f.2.1 < s.deltaLen k → ∃ t, execMigrateDelta k s = .next t ∧
            Answered s t f.2.2 (-7) 0 (BitVec.ofNat 64 (s.deltaLen k)) 0 ∧ SameBytes s t ∧
            t.ctxAt k = { x with migration := some { m with final := none } })) ∧
        (x.ladder.isSome = true ∨ s.answered k = false → execMigrateDelta k s = .next s))) ∧
    (∀ k x img, s.byImage h = some (k, x) → x.saved = some img →
      (x.policy.namesDevice = false → Declined (.restore tag h addr len) s tag (-1)) ∧
      (x.policy.namesDevice = true → (s.hostBytes addr len).take img.bytes.length ≠ img.bytes →
        Declined (.restore tag h addr len) s tag (-6)) ∧
      (x.policy.namesDevice = true → (s.hostBytes addr len).take img.bytes.length = img.bytes →
        (s.canRestore k x img = false → Declined (.restore tag h addr len) s tag (-4)) ∧
        (s.canRestore k x img = true → ∃ t, exec (.restore tag h addr len) s = .next t ∧ Answered s t tag 0 x.handle 0 0 ∧
          (t.ctxAt k).state = .paused ∧ (t.ctxAt k).image = 0 ∧ (t.ctxAt k).saved = none ∧
          ∀ n c, img.cores = [(n, c)] → t.coreAt n = c))) ∧
    (s.byImage h = none →
      (Config.incomingHandle h = false ∨ s.usedImages.contains h = true → Declined (.restore tag h addr len) s tag (-2)) ∧
      (Config.incomingHandle h = true → s.usedImages.contains h = false →
        ∀ buf n, buf = s.hostBytes addr len → n = Config.snapshotLen h →
        (incomingImage h (buf.take n) (buf.drop n) = none → Declined (.restore tag h addr len) s tag (-6)) ∧
        (∀ x img key, incomingImage h (buf.take n) (buf.drop n) = some (x, img) → s.freeKey = some key → x.policy.namesDevice = true →
          s.groupsTaken x.policy = false → s.canRestore s.nextCtx x img = true →
          ∃ t, exec (.restore tag h addr len) s = .next t ∧ (t.ctxAt s.nextCtx).state = .paused ∧
            Answered s t tag 0 (t.ctxAt s.nextCtx).handle 0 0 ∧ h ∈ t.usedImages)))

/-- R304, R310, R319, R300, R283: TEARDOWN of a created context ends at once; of one that holds clusters it answers -3 to the commands
that wait, strikes the partition once no instruction has to end first, and announces a claim of kind 9 in the retirement group with W =
8 µs, proposed again when its retry is due; of an EVICTED one it proposes at once; 100 µs after T_e the clusters can be bound again;
QUERY answers the state of a context.
How often it is proposed, and when it strikes, are the model's readings of logs 62 and 61. -/
def Obligations.TeardownAndQuery : Prop :=
  ∀ (s : State) (tag h : Word),
    (s.byHandle h = none → Declined (.teardown tag h) s tag (-2) ∧
      (s.byQueue h = none → s.byImage h = none → ∀ a, Declined (.query tag h a) s tag (-2))) ∧
    (∀ k x, s.byHandle h = some (k, x) → s.ctxAt k = x →
      (x.state = .created → x.waiting = [] → ∃ t, exec (.teardown tag h) s = .next t ∧ (t.ctxAt k).state = .gone ∧
        t.response = some (tag, 0, 0, 0, 0)) ∧
      (x.holds = true → s.mayStrike k = false → ∃ t d, exec (.teardown tag h) s = .next t ∧ (t.ctxAt k).teardown = some d ∧
        d.struck = false ∧ ∀ w ∈ x.waiting, Packet.response w (-3) 0 0 0 ∈ t.outbox) ∧
      (x.state = .evicted → s.retire.stale = false → (∃ i, i < 4096 ∧ (s.claimAt i).state = .free) →
        ∃ t a, exec (.teardown tag h) s = .next t ∧ Packet.announcement a ∈ t.outbox ∧ Retires s x a ∧ (t.ctxAt k).teardown.isSome) ∧
      (x.holds = true → s.mayStrike k = true → s.retire.stale = false → (∃ i, i < 4096 ∧ (s.claimAt i).state = .free) →
        ∃ t a, exec (.teardown tag h) s = .next t ∧ Packet.announcement a ∈ t.outbox ∧ Retires s x a ∧
          (t.ctxAt k).teardown.isSome ∧ (∀ w ∈ x.waiting, Packet.response w (-3) 0 0 0 ∈ t.outbox) ∧
          ∀ n ∈ x.cores, (t.coreAt n).normalQ = [] ∧ ∀ f, f < 10 → (t.frameAt n f).state = .free) ∧
      (∀ a : Word, a.getLsbD 0 = false → ∃ t, exec (.query tag h a) s = .next t ∧
        { t with response := s.response, outbox := s.outbox } = s ∧
        Answered s t tag 0 (match x.state with | .created => 0 | .bound => 1 | .running => 2 | .paused => 3 | .evicted => 4 | .gone => 5)
          (BitVec.ofNat 64 (if x.state = .bound ∨ x.state = .running ∨ x.state = .paused then x.clusters.length else 0))
          (BitVec.ofNat 64 (s.imageLen k)))) ∧
    (∀ k td, (s.ctxAt k).teardown = some td → td.struck = false →
      (s.mayStrike k = false → exec (.teardownRepropose k) s = .next s) ∧
      (s.mayStrike k = true → s.retire.stale = false → (∃ i, i < 4096 ∧ (s.claimAt i).state = .free) →
        ∃ t a, exec (.teardownRepropose k) s = .next t ∧ Packet.announcement a ∈ t.outbox ∧ Retires s (s.ctxAt k) a)) ∧
    (∀ k td at_, (s.ctxAt k).teardown = some td → td.struck = true → td.retry = some at_ →
      (at_ ≤ s.ftime → s.retire.stale = false → (∃ i, i < 4096 ∧ (s.claimAt i).state = .free) →
        ∃ t a, exec (.teardownRepropose k) s = .next t ∧ Packet.announcement a ∈ t.outbox ∧ a.group = 64 ∧ a.te = s.ftime + 8000 ∧
          ∃ d, (t.ctxAt k).teardown = some d ∧ d.tries = td.tries + 1) ∧
      (s.ftime < at_ → exec (.teardownRepropose k) s = .next s)) ∧
    (∀ k td, (s.ctxAt k).teardown = some td → (s.ctxAt k).state = .gone →
      (td.te + 100000 ≤ s.ftime → ∃ t, exec (.clusterRelease k) s = .next t ∧ (t.ctxAt k).teardown = none ∧
        ∀ c ∈ td.mask, (s.clusterAt c).owner = none → (t.clusterAt c).free = 0 ∧ (t.clusterAt c).owner = none) ∧
      (s.ftime < td.te + 100000 → exec (.clusterRelease k) s = .next s))

namespace Sys2Proof.Says

/-- GET_MEASUREMENTS of an index for a VF answers the block with its index, signed with the alias key (R312), and the certificate for
the identity key (R311). -/
def Measured (s : State) (index vf : Nat) (b : List Byte) : Prop :=
  exec (.getMeasurements index vf) s = .next (s.emit (.attestation index b
    (Config.attest ((s.bootKeys.map (·.2)).getD []) ([BitVec.ofNat 8 index] ++ b)) Config.certificate))

end Sys2Proof.Says

/-- R313, R314, R312, R316, R318, R292, R311: the boot ROM boots the selected slot or the other one, or leaves the recovery state; a
signed image goes to slot A in recovery and to the slot that did not boot otherwise, an unsigned one nowhere; measurements are
reported with the certificate of the identity key that each boot derives; 95 and 105 degrees and a voltage fault; the TDISP states of a
VF, and the IDE keys of its stream and of the link's (the model takes either, log 96), which need a secured session.
A TDISP request in another state changes nothing: the model's reading of log 68; nor does a reading below 95 degrees: log 67; that a boot
empties cores and contexts, and keeps slots and counter, is log 71. -/
def Obligations.FirmwareAndHostPort : Prop :=
  ∀ s : State,
    (∀ pos, (s.bootSlot = none → ∃ t, exec (.powerOnBoot pos) s = .next t ∧ t.power = .recovery ∧ t.cores = [] ∧ t.pos = pos ∧
        t.slotA = s.slotA ∧ t.slotB = s.slotB ∧ t.secCounter = s.secCounter ∧ t.retired = s.retired ∧
        t.bootKeys.map (·.1) = some (Config.identityKey Config.helper)) ∧
      (∀ i, s.bootSlot = some i → s.slotBoots (s.slotImage i) = true ∧ (s.slotBoots (s.slotImage (s.slotSelect % 2)) = true →
          i = s.slotSelect % 2) ∧
        ∃ t, exec (.powerOnBoot pos) s = .next t ∧ t.power = .p2 ∧ t.booted = some i ∧ t.cores = [] ∧ t.contexts = [] ∧ t.pos = pos ∧
          t.slotA = s.slotA ∧ t.slotB = s.slotB ∧ t.secCounter = max s.secCounter (Config.fwVersion (s.slotImage i)) ∧
          t.bootKeys.map (·.1) = some (Config.identityKey Config.helper))) ∧
    (∀ img, (Config.verify Config.vendorKey (sha3 (Config.fwBody img)) (Config.fwSig img) = false →
        exec (.firmwareImageWrite img) s = .next s) ∧
      (Config.verify Config.vendorKey (sha3 (Config.fwBody img)) (Config.fwSig img) = true →
        (s.power = .recovery → exec (.firmwareImageWrite img) s = .next { s with slotA := img }) ∧
        (s.power ≠ .recovery → s.booted = some 0 → exec (.firmwareImageWrite img) s = .next { s with slotB := img }) ∧
        (s.power ≠ .recovery → s.booted = some 1 → exec (.firmwareImageWrite img) s = .next { s with slotA := img }))) ∧
    (∀ vf, Measured s 1 vf Config.romDigest ∧ Measured s 3 vf (sha3 s.kernelCode) ∧ Measured s 4 vf Config.microcodeDigest ∧
      Measured s 0xF0 vf [if s.power = .recovery then 2 else 1]) ∧
    (∀ c, (105 ≤ c → s.power ≠ .off → exec (.temperatureThreshold c) s = .next { s with power := .shutdown }) ∧
      (95 ≤ c → c < 105 → (s.power = .p0 ∨ s.power = .p2) → exec (.temperatureThreshold c) s = .next { s with power := .p1 }) ∧
      (c < 95 → exec (.temperatureThreshold c) s = .next s)) ∧
    (∀ rail n, s.power = .p0 → (s.coreAt n).handling = false → (s.coreAt n).pendingTrap = none → (s.coreAt n).events = [] →
      ∃ t, exec (.voltageFault rail n) s = .next t ∧ t.power = .p1 ∧ (t.coreAt n).ecause = 0x13 ∧ (t.coreAt n).epc = 0 ∧
        (t.frameAt n 10).state = .ready ∧ (t.frameAt n 10).pc = s.kernelVector) ∧
    (∀ vf key, s.secured = false → exec (.ideKmKeyProg vf key) s = .next s) ∧
    (∀ key, s.secured = true → exec (.ideKmKeyProg 0 key) s = .next { s with linkIde := some key }) ∧
    (∀ vf key, (s.secured = true → 1 ≤ vf → vf ≤ 384 → ∃ t, exec (.ideKmKeyProg vf key) s = .next t ∧ (t.vfAt vf).ide = some key ∧
        (t.vfAt vf).tdi = (s.vfAt vf).tdi ∧ (t.vfAt vf).rings = (s.vfAt vf).rings) ∧
      (384 < vf → exec (.ideKmKeyProg vf key) s = .next s)) ∧
    (∀ vf r, vfExists vf = false → exec (.tdispRequest vf r) s = .next s) ∧
    (∀ vf, vfExists vf = true →
      ((s.vfAt vf).tdi = .unlocked → ∃ t, exec (.tdispRequest vf .lock) s = .next t ∧ (t.vfAt vf).tdi = .locked) ∧
      ((s.vfAt vf).tdi = .locked → (∃ p ∈ s.contexts, p.2.vf = vf ∧ vf ≠ 0 ∧ p.2.holds = true) →
        ((s.vfAt vf).ide ≠ none ∨ s.linkIde ≠ none) →
        ∃ t, exec (.tdispRequest vf .start) s = .next t ∧ (t.vfAt vf).tdi = .run) ∧
      ((s.vfAt vf).tdi = .locked → ((∀ p ∈ s.contexts, p.2.vf = vf → p.2.holds = false) ∨
          ((s.vfAt vf).ide = none ∧ s.linkIde = none)) →
        exec (.tdispRequest vf .start) s = .next s) ∧
      (∃ t, exec (.tdispRequest vf .stop) s = .next t ∧ (t.vfAt vf).tdi = .unlocked) ∧
      ((s.vfAt vf).tdi = .run → ∃ t, exec (.tdispRequest vf .error) s = .next t ∧ (t.vfAt vf).tdi = .error))

/-- Each word, as many bytes as it takes, decodes to the instruction that the spec's encoding tables give it: one word or more
from each family. -/
def Obligations.DecodesWords : Prop :=
  ∀ p ∈ ([(4, 0x000C5203, .add 0 6 5 4), (4, 0xFFF05205, .addImm 0xFFF 5 4), (2, 0x0484, .add16 1 4), (4, 0x12345287, .li 0x12345 5),
      (4, 0x00004B1D, .xcall 9 6), (4, 0x0104521F, .cget 2 5 4), (4, 0x200053B5, .mfs 5 7), (4, 0x006A428B, .ld 1 5 2 4 5),
      (4, 0x002F63A1, .cstc 0 5 6 7), (4, 0x440421A9, .amo 4 0 1 0 4 2 3), (4, 0x51A642A9, .cas 5 0 6 4 5),
      (4, 0x120620C1, .vsub 1 0 3 2 1), (4, 0x8A30944F, .vcvt 1 5 0 3 0 9 8), (4, 0x300081B1, .barwait 8 3),
      (4, 0x000006AD, .fenceAcq 5), (4, 0x10000035, .eret), (4, 0x28480B23, .send 0 1 0 1 9 0 1 6),
      (4, 0x00022937, .reply 2 5 2), (4, 0x001762A5, .minst 1 7 6 5), (4, 0x2382BB2F, .qgath 3 8 5 7 6),
      (4, 0x10A642B3, .mmjob 10 6 4 5), (4, 0x101282A7, .clobj 9 8 5), (4, 0x2C3762AB, .mcredMin 3 3 7 6 5)] :
      List (Nat × Nat × Instr)),
    decodeBytes (leBytes p.1 p.2.1) = .ok (p.2.2, p.1)

/-- Every well-formed instruction that has an encoding is read back from the bytes of its word, with every operand at every
value that the encoding admits. -/
def Obligations.DecodeEncode : Prop :=
  ∀ i : Instr, i.wf = true → i.size ≠ 0 → decodeBytes (leBytes i.size (encode i)) = .ok (i, i.size)

/-- The values that the spec gives the registers at reset (R84, R85, R178, R266, R280, R294), and the canonical form of the memory. Of the
values that the model chose EVAL alone is among them, which is 0 by log 1 (R266 gives it no reset value). -/
def Obligations.ResetState : Prop :=
  (∀ n f, f < 11 →
    let r := State.reset.frameAt n f
    r.status = 0 ∧ r.dlnext = 0 ∧ r.clprio = 0 ∧ r.qrowlen = 0 ∧ r.barrot = 0 ∧ r.rstat = 0 ∧ r.clstat = 0 ∧ r.amoerr = 0 ∧
    r.fctx0.toNat = 1 * 2 ^ 8 ∧ r.fctx1.toNat = 0x3F800000 * 2 ^ 32 + 0x3F800000) ∧
  (∀ n,
    let c := State.reset.coreAt n
    c.dslack = 100000 ∧ c.fupc = 0 ∧ c.epc = 0 ∧ c.ecause = 0 ∧ c.eval = 0 ∧ c.sstatus = 0 ∧
    c.uquota.toNat = 210000 * 2 ^ 8 + 25 ∧ c.t1 = 50000 ∧ c.t2 = 20000 ∧ c.t3 = 1000000) ∧
  (∀ k, (State.reset.clusterAt k).channels = []) ∧
  (∀ vf r, State.reset.ringAt vf r = Ring.reset) ∧
  (Ring.reset.rbase = 0 ∧ Ring.reset.rctl = 0 ∧ Ring.reset.tail = 0 ∧ Ring.reset.head = 0 ∧ Ring.reset.ctail = 0) ∧
  Memory.wf State.reset.mem

/-- R176: EXP2, LOG2, SIN and COS of every finite lane. The result is the correct rounding of a number within 2^-1000 of the exact value
of the function, which is that of the exact value itself unless a boundary between two roundings lies as near as that: the model's
enclosures are refined no further (log 110). -/
def Obligations.TranscendentalLanes : Prop :=
  ∀ s : State, s.frame < 11 → ∀ (k : BitVec 3) (a d : BitVec 5),
    Lanes (.vfn 3 k a d) s k d (fun l r => ∀ x : ℝ, IsReal (fpOf (lane (s.cur.vreg a) l)) x → RoundsNear ((2 : ℝ) ^ x) r) ∧
    Lanes (.vfn 4 k a d) s k d (fun l r => ∀ x : ℝ, IsReal (fpOf (lane (s.cur.vreg a) l)) x → 0 < x →
      RoundsNear (Real.logb 2 x) r) ∧
    Lanes (.vfn 5 k a d) s k d (fun l r => ∀ x : ℝ, IsReal (fpOf (lane (s.cur.vreg a) l)) x → x ≠ 0 → RoundsNear (Real.sin x) r) ∧
    Lanes (.vfn 6 k a d) s k d (fun l r => ∀ x : ℝ, IsReal (fpOf (lane (s.cur.vreg a) l)) x → RoundsNear (Real.cos x) r)

/-- Every step keeps the canonical form of the memory, whatever else it does: equal memories stay equal data. -/
def Obligations.StepKeepsMemoryForm : Prop :=
  ∀ s t : State, Memory.wf s.mem → step s = .next t → Memory.wf t.mem

/-- R92, R108: by the model's reading of an access there (log 77) an instruction and an event stop nowhere but at an address where
the memory that they reach does not hold the bytes of their access; none is refused, whatever the state. -/
def Obligations.OnlyHolesStop : Prop := ∀ (i : Instr) (s : State), StopsOnlyAtHoles i s
end

