-- ==== Sys2Proof/Laws/Decode.lean ====
section
/-! SUPPORT. What cutting a word into fields and joining fields into a word do to each other, and what the decoder reads
from the bytes of a word. -/
namespace Sys2Proof.Laws

/-- Every value fits its field. -/
def fits : List Nat → List Nat → Prop
  | n :: ns, v :: vs => v < 2 ^ n ∧ fits ns vs
  | [], [] => True
  | _, _ => False

theorem fields_join (ws vs : List Nat) (h : fits ws vs) : fields ws (join ws vs) = vs := by
  induction ws generalizing vs with
  | nil => cases vs <;> simp_all [fits, fields]
  | cons n ns ih =>
    cases vs with
    | nil => simp [fits] at h
    | cons v vs =>
      have hp : 0 < 2 ^ n := Nat.two_pow_pos n
      simp only [join, fields, Nat.add_mul_mod_self_left, Nat.mod_eq_of_lt h.1,
        Nat.add_mul_div_left _ _ hp, Nat.div_eq_of_lt h.1, Nat.zero_add, ih vs h.2]

theorem join_lt (ws vs : List Nat) (h : fits ws vs) : join ws vs < 2 ^ ws.sum := by
  induction ws generalizing vs with
  | nil => cases vs <;> simp_all [fits, join]
  | cons n ns ih =>
    cases vs with
    | nil => simp [fits] at h
    | cons v vs =>
      have h1 := ih vs h.2
      simp only [join, List.sum_cons, Nat.pow_add]
      calc v + 2 ^ n * join ns vs < 2 ^ n + 2 ^ n * join ns vs := by have := h.1; omega
        _ = 2 ^ n * (join ns vs + 1) := by ring
        _ ≤ 2 ^ n * 2 ^ ns.sum := Nat.mul_le_mul_left _ h1

theorem leNat_leBytes (n v : Nat) : leNat (leBytes n v) = v % 256 ^ n := by
  induction n generalizing v with
  | zero => simp [leBytes, leNat, Nat.mod_one]
  | succ n ih =>
    simp only [leBytes, leNat, BitVec.toNat_ofNat, ih, Nat.pow_succ]
    have h := Nat.mod_mul (x := v) (a := 256) (b := 256 ^ n)
    rw [Nat.mul_comm (256 ^ n) 256, h]

theorem decodeBytes_word (w : Nat) (h1 : w % 2 = 1) (h2 : w < 2 ^ 32) :
    decodeBytes (leBytes 4 w) =
      sized 4 (decode32 w) := by
  have h := leNat_leBytes 4 w
  rw [Nat.mod_eq_of_lt (by omega)] at h
  simp only [leBytes] at h ⊢
  have hb : ¬ (BitVec.ofNat 8 w).toNat % 2 = 0 := by simp; omega
  simp only [decodeBytes, if_neg hb, h]

theorem decodeBytes_half (w : Nat) (h1 : w % 2 = 0) (h2 : w < 2 ^ 16) :
    decodeBytes (leBytes 2 w) =
      sized 2 (decode16 w) := by
  have h := leNat_leBytes 2 w
  rw [Nat.mod_eq_of_lt (by omega)] at h
  simp only [leBytes] at h ⊢
  have hb : (BitVec.ofNat 8 w).toNat % 2 = 0 := by simp; omega
  simp only [decodeBytes, if_pos hb, h]

/-- What the encoder and the decoder of a 32-bit instruction have to do with each other. -/
theorem decodes32 (i : Instr) (op : Nat) (ws vs : List Nat) (he : encode i = word32 op ws vs) (hs : i.size = 4)
    (hf : fits ws vs) (hw : ws.sum = 25) (ho : op % 2 = 1 ∧ op < 128)
    (hr : raw32 (op + 128 * join ws vs) = .ok i) (hwf : i.wf = true) :
    decodeBytes (leBytes i.size (encode i)) = .ok (i, i.size) := by
  have hj := join_lt ws vs hf
  rw [hw] at hj
  rw [he, hs, word32, decodeBytes_word _ (by omega) (by omega), decode32, hr]
  simp [checkWf, hwf, sized]

theorem decodes16 (i : Instr) (vs : List Nat) (he : encode i = word16 vs) (hs : i.size = 2)
    (hf : fits lay16 vs) (hr : dec16 vs = .ok i) (hwf : i.wf = true) :
    decodeBytes (leBytes i.size (encode i)) = .ok (i, i.size) := by
  have hj := join_lt lay16 vs hf
  have hw : lay16.sum = 15 := by decide
  rw [hw] at hj
  rw [he, hs, word16, decodeBytes_half _ (by omega) (by omega), decode16, raw16,
    Nat.mul_div_cancel_left _ (by omega), fields_join _ _ hf, hr]
  simp [checkWf, hwf, sized]

/-- The opcode bits and the fields of a joined word. -/
theorem op_join (op n : Nat) (h : op < 128) : (op + 128 * n) % 128 = op ∧ (op + 128 * n) / 128 = n := by omega

end Sys2Proof.Laws
end

