-- ==== Sys2Proof/Laws/Dispatch.lean ====
section
/-! SUPPORT. Which meaning each instruction and each event has: one equation a constructor. -/
namespace Sys2Proof.Machine

@[simp] theorem exec_add (w : BitVec 1) (b : BitVec 5) (a : BitVec 5) (d : BitVec 5) (s : State) : exec (.add w b a d) s = execAdd w b a d s := rfl
@[simp] theorem exec_sub (w : BitVec 1) (b : BitVec 5) (a : BitVec 5) (d : BitVec 5) (s : State) : exec (.sub w b a d) s = execSub w b a d s := rfl
@[simp] theorem exec_mul (w : BitVec 1) (b : BitVec 5) (a : BitVec 5) (d : BitVec 5) (s : State) : exec (.mul w b a d) s = execMul w b a d s := rfl
@[simp] theorem exec_mulh (w : BitVec 1) (b : BitVec 5) (a : BitVec 5) (d : BitVec 5) (s : State) : exec (.mulh w b a d) s = execMulh w b a d s := rfl
@[simp] theorem exec_mulhn (w : BitVec 1) (b : BitVec 5) (a : BitVec 5) (d : BitVec 5) (s : State) : exec (.mulhn w b a d) s = execMulhn w b a d s := rfl
@[simp] theorem exec_div (w : BitVec 1) (b : BitVec 5) (a : BitVec 5) (d : BitVec 5) (s : State) : exec (.div w b a d) s = execDiv w b a d s := rfl
@[simp] theorem exec_divn (w : BitVec 1) (b : BitVec 5) (a : BitVec 5) (d : BitVec 5) (s : State) : exec (.divn w b a d) s = execDivn w b a d s := rfl
@[simp] theorem exec_rem (w : BitVec 1) (b : BitVec 5) (a : BitVec 5) (d : BitVec 5) (s : State) : exec (.rem w b a d) s = execRem w b a d s := rfl
@[simp] theorem exec_remn (w : BitVec 1) (b : BitVec 5) (a : BitVec 5) (d : BitVec 5) (s : State) : exec (.remn w b a d) s = execRemn w b a d s := rfl
@[simp] theorem exec_and (w : BitVec 1) (b : BitVec 5) (a : BitVec 5) (d : BitVec 5) (s : State) : exec (.and w b a d) s = execAnd w b a d s := rfl
@[simp] theorem exec_or (w : BitVec 1) (b : BitVec 5) (a : BitVec 5) (d : BitVec 5) (s : State) : exec (.or w b a d) s = execOr w b a d s := rfl
@[simp] theorem exec_xor (w : BitVec 1) (b : BitVec 5) (a : BitVec 5) (d : BitVec 5) (s : State) : exec (.xor w b a d) s = execXor w b a d s := rfl
@[simp] theorem exec_andn (w : BitVec 1) (b : BitVec 5) (a : BitVec 5) (d : BitVec 5) (s : State) : exec (.andn w b a d) s = execAndn w b a d s := rfl
@[simp] theorem exec_shl (w : BitVec 1) (b : BitVec 5) (a : BitVec 5) (d : BitVec 5) (s : State) : exec (.shl w b a d) s = execShl w b a d s := rfl
@[simp] theorem exec_shr (w : BitVec 1) (b : BitVec 5) (a : BitVec 5) (d : BitVec 5) (s : State) : exec (.shr w b a d) s = execShr w b a d s := rfl
@[simp] theorem exec_shra (w : BitVec 1) (b : BitVec 5) (a : BitVec 5) (d : BitVec 5) (s : State) : exec (.shra w b a d) s = execShra w b a d s := rfl
@[simp] theorem exec_rot (w : BitVec 1) (b : BitVec 5) (a : BitVec 5) (d : BitVec 5) (s : State) : exec (.rot w b a d) s = execRot w b a d s := rfl
@[simp] theorem exec_min (w : BitVec 1) (b : BitVec 5) (a : BitVec 5) (d : BitVec 5) (s : State) : exec (.min w b a d) s = execMin w b a d s := rfl
@[simp] theorem exec_max (w : BitVec 1) (b : BitVec 5) (a : BitVec 5) (d : BitVec 5) (s : State) : exec (.max w b a d) s = execMax w b a d s := rfl
@[simp] theorem exec_minn (w : BitVec 1) (b : BitVec 5) (a : BitVec 5) (d : BitVec 5) (s : State) : exec (.minn w b a d) s = execMinn w b a d s := rfl
@[simp] theorem exec_maxn (w : BitVec 1) (b : BitVec 5) (a : BitVec 5) (d : BitVec 5) (s : State) : exec (.maxn w b a d) s = execMaxn w b a d s := rfl
@[simp] theorem exec_slt (w : BitVec 1) (b : BitVec 5) (a : BitVec 5) (d : BitVec 5) (s : State) : exec (.slt w b a d) s = execSlt w b a d s := rfl
@[simp] theorem exec_sltn (w : BitVec 1) (b : BitVec 5) (a : BitVec 5) (d : BitVec 5) (s : State) : exec (.sltn w b a d) s = execSltn w b a d s := rfl
@[simp] theorem exec_seq (w : BitVec 1) (b : BitVec 5) (a : BitVec 5) (d : BitVec 5) (s : State) : exec (.seq w b a d) s = execSeq w b a d s := rfl
@[simp] theorem exec_clz (w : BitVec 1) (a : BitVec 5) (d : BitVec 5) (s : State) : exec (.clz w a d) s = execClz w a d s := rfl
@[simp] theorem exec_popc (w : BitVec 1) (a : BitVec 5) (d : BitVec 5) (s : State) : exec (.popc w a d) s = execPopc w a d s := rfl
@[simp] theorem exec_sext (b : BitVec 5) (a : BitVec 5) (d : BitVec 5) (s : State) : exec (.sext b a d) s = execSext b a d s := rfl
@[simp] theorem exec_zext (b : BitVec 5) (a : BitVec 5) (d : BitVec 5) (s : State) : exec (.zext b a d) s = execZext b a d s := rfl
@[simp] theorem exec_addImm (i : BitVec 12) (a : BitVec 5) (d : BitVec 5) (s : State) : exec (.addImm i a d) s = execAddImm i a d s := rfl
@[simp] theorem exec_andImm (i : BitVec 12) (a : BitVec 5) (d : BitVec 5) (s : State) : exec (.andImm i a d) s = execAndImm i a d s := rfl
@[simp] theorem exec_orImm (i : BitVec 12) (a : BitVec 5) (d : BitVec 5) (s : State) : exec (.orImm i a d) s = execOrImm i a d s := rfl
@[simp] theorem exec_xorImm (i : BitVec 12) (a : BitVec 5) (d : BitVec 5) (s : State) : exec (.xorImm i a d) s = execXorImm i a d s := rfl
@[simp] theorem exec_sltImm (i : BitVec 12) (a : BitVec 5) (d : BitVec 5) (s : State) : exec (.sltImm i a d) s = execSltImm i a d s := rfl
@[simp] theorem exec_sltnImm (i : BitVec 12) (a : BitVec 5) (d : BitVec 5) (s : State) : exec (.sltnImm i a d) s = execSltnImm i a d s := rfl
@[simp] theorem exec_seqImm (i : BitVec 12) (a : BitVec 5) (d : BitVec 5) (s : State) : exec (.seqImm i a d) s = execSeqImm i a d s := rfl
@[simp] theorem exec_shlImm (w : BitVec 1) (m : BitVec 6) (a : BitVec 5) (d : BitVec 5) (s : State) : exec (.shlImm w m a d) s = execShlImm w m a d s := rfl
@[simp] theorem exec_shrImm (w : BitVec 1) (m : BitVec 6) (a : BitVec 5) (d : BitVec 5) (s : State) : exec (.shrImm w m a d) s = execShrImm w m a d s := rfl
@[simp] theorem exec_shraImm (w : BitVec 1) (m : BitVec 6) (a : BitVec 5) (d : BitVec 5) (s : State) : exec (.shraImm w m a d) s = execShraImm w m a d s := rfl
@[simp] theorem exec_rotImm (w : BitVec 1) (m : BitVec 6) (a : BitVec 5) (d : BitVec 5) (s : State) : exec (.rotImm w m a d) s = execRotImm w m a d s := rfl
@[simp] theorem exec_li (i : BitVec 20) (d : BitVec 5) (s : State) : exec (.li i d) s = execLi i d s := rfl
@[simp] theorem exec_lis (i : BitVec 20) (d : BitVec 5) (s : State) : exec (.lis i d) s = execLis i d s := rfl
@[simp] theorem exec_ld (o : BitVec 10) (s_ : BitVec 3) (z : BitVec 2) (c : BitVec 4) (d : BitVec 5) (s : State) : exec (.ld o s_ z c d) s = execLd o s_ z c d s := rfl
@[simp] theorem exec_lds (o : BitVec 10) (s_ : BitVec 3) (z : BitVec 2) (c : BitVec 4) (d : BitVec 5) (s : State) : exec (.lds o s_ z c d) s = execLds o s_ z c d s := rfl
@[simp] theorem exec_ldIndexed (g : BitVec 5) (s_ : BitVec 3) (z : BitVec 2) (c : BitVec 4) (d : BitVec 5) (s : State) : exec (.ldIndexed g s_ z c d) s = execLdIndexed g s_ z c d s := rfl
@[simp] theorem exec_ldsIndexed (g : BitVec 5) (s_ : BitVec 3) (z : BitVec 2) (c : BitVec 4) (d : BitVec 5) (s : State) : exec (.ldsIndexed g s_ z c d) s = execLdsIndexed g s_ z c d s := rfl
@[simp] theorem exec_st (o : BitVec 10) (s_ : BitVec 3) (z : BitVec 2) (c : BitVec 4) (d : BitVec 5) (s : State) : exec (.st o s_ z c d) s = execSt o s_ z c d s := rfl
@[simp] theorem exec_stx (g : BitVec 5) (s_ : BitVec 3) (z : BitVec 2) (c : BitVec 4) (d : BitVec 5) (s : State) : exec (.stx g s_ z c d) s = execStx g s_ z c d s := rfl
@[simp] theorem exec_br (o : BitVec 25) (s : State) : exec (.br o) s = execBr o s := rfl
@[simp] theorem exec_call (o : BitVec 25) (s : State) : exec (.call o) s = execCall o s := rfl
@[simp] theorem exec_beq (o : BitVec 12) (b : BitVec 5) (a : BitVec 5) (s : State) : exec (.beq o b a) s = execBeq o b a s := rfl
@[simp] theorem exec_bne (o : BitVec 12) (b : BitVec 5) (a : BitVec 5) (s : State) : exec (.bne o b a) s = execBne o b a s := rfl
@[simp] theorem exec_blt (o : BitVec 12) (b : BitVec 5) (a : BitVec 5) (s : State) : exec (.blt o b a) s = execBlt o b a s := rfl
@[simp] theorem exec_bge (o : BitVec 12) (b : BitVec 5) (a : BitVec 5) (s : State) : exec (.bge o b a) s = execBge o b a s := rfl
@[simp] theorem exec_bltn (o : BitVec 12) (b : BitVec 5) (a : BitVec 5) (s : State) : exec (.bltn o b a) s = execBltn o b a s := rfl
@[simp] theorem exec_bgen (o : BitVec 12) (b : BitVec 5) (a : BitVec 5) (s : State) : exec (.bgen o b a) s = execBgen o b a s := rfl
@[simp] theorem exec_loop (o : BitVec 12) (a : BitVec 5) (s : State) : exec (.loop o a) s = execLoop o a s := rfl
@[simp] theorem exec_jr (a : BitVec 5) (s : State) : exec (.jr a) s = execJr a s := rfl
@[simp] theorem exec_callr (a : BitVec 5) (s : State) : exec (.callr a) s = execCallr a s := rfl
@[simp] theorem exec_ret (a : BitVec 5) (s : State) : exec (.ret a) s = execRet a s := rfl
@[simp] theorem exec_xcall (i : BitVec 16) (m : BitVec 4) (s : State) : exec (.xcall i m) s = execXcall i m s := rfl
@[simp] theorem exec_cmov (a : BitVec 4) (d : BitVec 4) (s : State) : exec (.cmov a d) s = execCmov a d s := rfl
@[simp] theorem exec_cinc (b : BitVec 5) (a : BitVec 4) (d : BitVec 4) (s : State) : exec (.cinc b a d) s = execCinc b a d s := rfl
@[simp] theorem exec_cbnd (b : BitVec 5) (a : BitVec 4) (d : BitVec 4) (s : State) : exec (.cbnd b a d) s = execCbnd b a d s := rfl
@[simp] theorem exec_cperm (b : BitVec 5) (a : BitVec 4) (d : BitVec 4) (s : State) : exec (.cperm b a d) s = execCperm b a d s := rfl
@[simp] theorem exec_cget (s_ : BitVec 5) (a : BitVec 4) (d : BitVec 5) (s : State) : exec (.cget s_ a d) s = execCget s_ a d s := rfl
@[simp] theorem exec_ceq (b : BitVec 4) (a : BitVec 4) (d : BitVec 5) (s : State) : exec (.ceq b a d) s = execCeq b a d s := rfl
@[simp] theorem exec_cldc (o : BitVec 10) (s_ : BitVec 3) (c : BitVec 4) (d : BitVec 4) (s : State) : exec (.cldc o s_ c d) s = execCldc o s_ c d s := rfl
@[simp] theorem exec_cstc (o : BitVec 10) (s_ : BitVec 3) (c : BitVec 4) (d : BitVec 4) (s : State) : exec (.cstc o s_ c d) s = execCstc o s_ c d s := rfl
@[simp] theorem exec_send (t : BitVec 1) (e : BitVec 1) (q : BitVec 1) (u : BitVec 1) (c : BitVec 8) (n : BitVec 3) (g : BitVec 5) (k : BitVec 4) (s : State) : exec (.send t e q u c n g k) s = execSend t e q u c n g k s := rfl
@[simp] theorem exec_minst (x : BitVec 8) (b : BitVec 4) (a : BitVec 4) (d : BitVec 5) (s : State) : exec (.minst x b a d) s = execMinst x b a d s := rfl
@[simp] theorem exec_mpurgeSoft (a : BitVec 4) (d : BitVec 5) (s : State) : exec (.mpurgeSoft a d) s = execMpurgeSoft a d s := rfl
@[simp] theorem exec_mpurgeHard (a : BitVec 4) (d : BitVec 5) (s : State) : exec (.mpurgeHard a d) s = execMpurgeHard a d s := rfl
@[simp] theorem exec_mqry (a : BitVec 4) (d : BitVec 5) (s : State) : exec (.mqry a d) s = execMqry a d s := rfl
@[simp] theorem exec_cvtend (s : State) : exec (.cvtend) s = execCvtend s := rfl
@[simp] theorem exec_objver (a : BitVec 4) (d : BitVec 5) (s : State) : exec (.objver a d) s = execObjver a d s := rfl
@[simp] theorem exec_clprop (p : BitVec 6) (b : BitVec 5) (a : BitVec 5) (d : BitVec 5) (s : State) : exec (.clprop p b a d) s = execClprop p b a d s := rfl
@[simp] theorem exec_clobj (b : BitVec 5) (a : BitVec 5) (d : BitVec 5) (s : State) : exec (.clobj b a d) s = execClobj b a d s := rfl
@[simp] theorem exec_clwait (a : BitVec 5) (d : BitVec 5) (s : State) : exec (.clwait a d) s = execClwait a d s := rfl
@[simp] theorem exec_clread (p : BitVec 6) (a : BitVec 5) (d : BitVec 5) (s : State) : exec (.clread p a d) s = execClread p a d s := rfl
@[simp] theorem exec_clgrp (p : BitVec 6) (b : BitVec 5) (a : BitVec 5) (d : BitVec 5) (s : State) : exec (.clgrp p b a d) s = execClgrp p b a d s := rfl
@[simp] theorem exec_amo (s_ : BitVec 3) (n : BitVec 1) (w : BitVec 1) (o : BitVec 5) (b : BitVec 5) (c : BitVec 4) (d : BitVec 5) (s : State) : exec (.amo s_ n w o b c d) s = execAmo s_ n w o b c d s := rfl
@[simp] theorem exec_cas (s_ : BitVec 3) (w : BitVec 1) (b : BitVec 5) (c : BitVec 4) (d : BitVec 5) (s : State) : exec (.cas s_ w b c d) s = execCas s_ w b c d s := rfl
@[simp] theorem exec_mcredAdd (t : BitVec 2) (g : BitVec 6) (s_ : BitVec 4) (c : BitVec 4) (d : BitVec 5) (s : State) : exec (.mcredAdd t g s_ c d) s = execMcredAdd t g s_ c d s := rfl
@[simp] theorem exec_mcredMax (t : BitVec 2) (g : BitVec 6) (s_ : BitVec 4) (c : BitVec 4) (d : BitVec 5) (s : State) : exec (.mcredMax t g s_ c d) s = execMcredMax t g s_ c d s := rfl
@[simp] theorem exec_mcredMin (t : BitVec 2) (g : BitVec 6) (s_ : BitVec 4) (c : BitVec 4) (d : BitVec 5) (s : State) : exec (.mcredMin t g s_ c d) s = execMcredMin t g s_ c d s := rfl
@[simp] theorem exec_mcst (g : BitVec 6) (s_ : BitVec 4) (c : BitVec 4) (d : BitVec 5) (s : State) : exec (.mcst g s_ c d) s = execMcst g s_ c d s := rfl
@[simp] theorem exec_agset (g : BitVec 6) (s_ : BitVec 4) (d : BitVec 5) (s : State) : exec (.agset g s_ d) s = execAgset g s_ d s := rfl
@[simp] theorem exec_fence (s_ : BitVec 3) (s : State) : exec (.fence s_) s = execFence s_ s := rfl
@[simp] theorem exec_fenceAcq (s_ : BitVec 3) (s : State) : exec (.fenceAcq s_) s = execFenceAcq s_ s := rfl
@[simp] theorem exec_fenceRel (s_ : BitVec 3) (s : State) : exec (.fenceRel s_) s = execFenceRel s_ s := rfl
@[simp] theorem exec_waita (e : BitVec 5) (c : BitVec 4) (d : BitVec 5) (s : State) : exec (.waita e c d) s = execWaita e c d s := rfl
@[simp] theorem exec_pause (s : State) : exec (.pause) s = execPause s := rfl
@[simp] theorem exec_hbar (i : BitVec 4) (s_ : BitVec 3) (s : State) : exec (.hbar i s_) s = execHbar i s_ s := rfl
@[simp] theorem exec_qpush (b : BitVec 4) (l : BitVec 5) (d : BitVec 4) (s_ : BitVec 4) (s : State) : exec (.qpush b l d s_) s = execQpush b l d s_ s := rfl
@[simp] theorem exec_qpusht (b : BitVec 4) (l : BitVec 5) (d : BitVec 4) (s_ : BitVec 4) (s : State) : exec (.qpusht b l d s_) s = execQpusht b l d s_ s := rfl
@[simp] theorem exec_qgath (k : BitVec 3) (b : BitVec 4) (v : BitVec 5) (d : BitVec 4) (s_ : BitVec 4) (s : State) : exec (.qgath k b v d s_) s = execQgath k b v d s_ s := rfl
@[simp] theorem exec_wmset (n : BitVec 5) (d : BitVec 4) (s : State) : exec (.wmset n d) s = execWmset n d s := rfl
@[simp] theorem exec_wmget (n : BitVec 5) (s : State) : exec (.wmget n) s = execWmget n s := rfl
@[simp] theorem exec_barinit (a : BitVec 5) (c : BitVec 4) (s : State) : exec (.barinit a c) s = execBarinit a c s := rfl
@[simp] theorem exec_bararr (c : BitVec 4) (s : State) : exec (.bararr c) s = execBararr c s := rfl
@[simp] theorem exec_barpend (a : BitVec 5) (c : BitVec 4) (s : State) : exec (.barpend a c) s = execBarpend a c s := rfl
@[simp] theorem exec_barwait (c : BitVec 4) (d : BitVec 5) (s : State) : exec (.barwait c d) s = execBarwait c d s := rfl
@[simp] theorem exec_barany (m : BitVec 8) (d : BitVec 5) (s : State) : exec (.barany m d) s = execBarany m d s := rfl
@[simp] theorem exec_mmctx (m : BitVec 5) (s : State) : exec (.mmctx m) s = execMmctx m s := rfl
@[simp] theorem exec_mmjob (m : BitVec 5) (b : BitVec 4) (a : BitVec 4) (d : BitVec 5) (s : State) : exec (.mmjob m b a d) s = execMmjob m b a d s := rfl
@[simp] theorem exec_mmwait (d : BitVec 5) (s : State) : exec (.mmwait d) s = execMmwait d s := rfl
@[simp] theorem exec_mmldt (m : BitVec 5) (a : BitVec 4) (s : State) : exec (.mmldt m a) s = execMmldt m a s := rfl
@[simp] theorem exec_mmdrain (m : BitVec 5) (a : BitVec 4) (s : State) : exec (.mmdrain m a) s = execMmdrain m a s := rfl
@[simp] theorem exec_mmzero (m : BitVec 5) (s : State) : exec (.mmzero m) s = execMmzero m s := rfl
@[simp] theorem exec_trap (i : BitVec 16) (s : State) : exec (.trap i) s = execTrap i s := rfl
@[simp] theorem exec_eret (s : State) : exec (.eret) s = execEret s := rfl
@[simp] theorem exec_mfs (r : BitVec 12) (d : BitVec 5) (s : State) : exec (.mfs r d) s = execMfs r d s := rfl
@[simp] theorem exec_mts (r : BitVec 12) (d : BitVec 5) (s : State) : exec (.mts r d) s = execMts r d s := rfl
@[simp] theorem exec_fresume (d : BitVec 5) (s : State) : exec (.fresume d) s = execFresume d s := rfl
@[simp] theorem exec_safe (i : BitVec 16) (s : State) : exec (.safe i) s = execSafe i s := rfl
@[simp] theorem exec_bkpt (s : State) : exec (.bkpt) s = execBkpt s := rfl
@[simp] theorem exec_halt (s : State) : exec (.halt) s = execHalt s := rfl
@[simp] theorem exec_nop32 (s : State) : exec (.nop32) s = execNop32 s := rfl
@[simp] theorem exec_reply (n : BitVec 3) (g : BitVec 5) (k : BitVec 4) (s : State) : exec (.reply n g k) s = execReply n g k s := rfl
@[simp] theorem exec_done32 (s : State) : exec (.done32) s = execDone32 s := rfl
@[simp] theorem exec_defer (s : State) : exec (.defer) s = execDefer s := rfl
@[simp] theorem exec_vadd (t : BitVec 3) (k : BitVec 3) (b : BitVec 5) (a : BitVec 5) (d : BitVec 5) (s : State) : exec (.vadd t k b a d) s = execVadd t k b a d s := rfl
@[simp] theorem exec_vsub (t : BitVec 3) (k : BitVec 3) (b : BitVec 5) (a : BitVec 5) (d : BitVec 5) (s : State) : exec (.vsub t k b a d) s = execVsub t k b a d s := rfl
@[simp] theorem exec_vmul (t : BitVec 3) (k : BitVec 3) (b : BitVec 5) (a : BitVec 5) (d : BitVec 5) (s : State) : exec (.vmul t k b a d) s = execVmul t k b a d s := rfl
@[simp] theorem exec_vmin (t : BitVec 3) (k : BitVec 3) (b : BitVec 5) (a : BitVec 5) (d : BitVec 5) (s : State) : exec (.vmin t k b a d) s = execVmin t k b a d s := rfl
@[simp] theorem exec_vmax (t : BitVec 3) (k : BitVec 3) (b : BitVec 5) (a : BitVec 5) (d : BitVec 5) (s : State) : exec (.vmax t k b a d) s = execVmax t k b a d s := rfl
@[simp] theorem exec_vand (t : BitVec 3) (k : BitVec 3) (b : BitVec 5) (a : BitVec 5) (d : BitVec 5) (s : State) : exec (.vand t k b a d) s = execVand t k b a d s := rfl
@[simp] theorem exec_vor (t : BitVec 3) (k : BitVec 3) (b : BitVec 5) (a : BitVec 5) (d : BitVec 5) (s : State) : exec (.vor t k b a d) s = execVor t k b a d s := rfl
@[simp] theorem exec_vxor (t : BitVec 3) (k : BitVec 3) (b : BitVec 5) (a : BitVec 5) (d : BitVec 5) (s : State) : exec (.vxor t k b a d) s = execVxor t k b a d s := rfl
@[simp] theorem exec_vshl (t : BitVec 3) (k : BitVec 3) (b : BitVec 5) (a : BitVec 5) (d : BitVec 5) (s : State) : exec (.vshl t k b a d) s = execVshl t k b a d s := rfl
@[simp] theorem exec_vshr (t : BitVec 3) (k : BitVec 3) (b : BitVec 5) (a : BitVec 5) (d : BitVec 5) (s : State) : exec (.vshr t k b a d) s = execVshr t k b a d s := rfl
@[simp] theorem exec_vshra (t : BitVec 3) (k : BitVec 3) (b : BitVec 5) (a : BitVec 5) (d : BitVec 5) (s : State) : exec (.vshra t k b a d) s = execVshra t k b a d s := rfl
@[simp] theorem exec_vfma (k : BitVec 3) (b : BitVec 5) (a : BitVec 5) (d : BitVec 5) (s : State) : exec (.vfma k b a d) s = execVfma k b a d s := rfl
@[simp] theorem exec_vfmaNeg (k : BitVec 3) (b : BitVec 5) (a : BitVec 5) (d : BitVec 5) (s : State) : exec (.vfmaNeg k b a d) s = execVfmaNeg k b a d s := rfl
@[simp] theorem exec_vfn (f : BitVec 4) (k : BitVec 3) (a : BitVec 5) (d : BitVec 5) (s : State) : exec (.vfn f k a d) s = execVfn f k a d s := rfl
@[simp] theorem exec_vcmp (f : BitVec 4) (t : BitVec 3) (k : BitVec 3) (b : BitVec 5) (a : BitVec 5) (d : BitVec 3) (s : State) : exec (.vcmp f t k b a d) s = execVcmp f t k b a d s := rfl
@[simp] theorem exec_vsel (k : BitVec 3) (b : BitVec 5) (a : BitVec 5) (d : BitVec 5) (s : State) : exec (.vsel k b a d) s = execVsel k b a d s := rfl
@[simp] theorem exec_vld (k : BitVec 3) (z : BitVec 2) (g : BitVec 5) (c : BitVec 4) (d : BitVec 5) (s : State) : exec (.vld k z g c d) s = execVld k z g c d s := rfl
@[simp] theorem exec_vst (k : BitVec 3) (z : BitVec 2) (g : BitVec 5) (c : BitVec 4) (d : BitVec 5) (s : State) : exec (.vst k z g c d) s = execVst k z g c d s := rfl
@[simp] theorem exec_vgath (k : BitVec 3) (z : BitVec 2) (i : BitVec 5) (c : BitVec 4) (d : BitVec 5) (s : State) : exec (.vgath k z i c d) s = execVgath k z i c d s := rfl
@[simp] theorem exec_vscat (k : BitVec 3) (z : BitVec 2) (i : BitVec 5) (c : BitVec 4) (d : BitVec 5) (s : State) : exec (.vscat k z i c d) s = execVscat k z i c d s := rfl
@[simp] theorem exec_vred (f : BitVec 4) (t : BitVec 3) (k : BitVec 3) (a : BitVec 5) (d : BitVec 5) (s : State) : exec (.vred f t k a d) s = execVred f t k a d s := rfl
@[simp] theorem exec_vbcast (k : BitVec 3) (a : BitVec 5) (d : BitVec 5) (s : State) : exec (.vbcast k a d) s = execVbcast k a d s := rfl
@[simp] theorem exec_vperm (k : BitVec 3) (b : BitVec 5) (a : BitVec 5) (d : BitVec 5) (s : State) : exec (.vperm k b a d) s = execVperm k b a d s := rfl
@[simp] theorem exec_vcvt (s_ : BitVec 1) (t : BitVec 3) (k : BitVec 3) (r : BitVec 2) (u : BitVec 3) (a : BitVec 5) (d : BitVec 5) (s : State) : exec (.vcvt s_ t k r u a d) s = execVcvt s_ t k r u a d s := rfl
@[simp] theorem exec_vdec (k : BitVec 3) (a : BitVec 5) (d : BitVec 5) (s : State) : exec (.vdec k a d) s = execVdec k a d s := rfl
@[simp] theorem exec_venc (k : BitVec 3) (a : BitVec 5) (d : BitVec 5) (s : State) : exec (.venc k a d) s = execVenc k a d s := rfl
@[simp] theorem exec_mov (a : BitVec 5) (d : BitVec 5) (s : State) : exec (.mov a d) s = execMov a d s := rfl
@[simp] theorem exec_add16 (a : BitVec 5) (d : BitVec 5) (s : State) : exec (.add16 a d) s = execAdd16 a d s := rfl
@[simp] theorem exec_sub16 (a : BitVec 5) (d : BitVec 5) (s : State) : exec (.sub16 a d) s = execSub16 a d s := rfl
@[simp] theorem exec_addi16 (i : BitVec 6) (d : BitVec 5) (s : State) : exec (.addi16 i d) s = execAddi16 i d s := rfl
@[simp] theorem exec_and16 (a : BitVec 5) (d : BitVec 5) (s : State) : exec (.and16 a d) s = execAnd16 a d s := rfl
@[simp] theorem exec_shli16 (m : BitVec 6) (d : BitVec 5) (s : State) : exec (.shli16 m d) s = execShli16 m d s := rfl
@[simp] theorem exec_shri16 (m : BitVec 6) (d : BitVec 5) (s : State) : exec (.shri16 m d) s = execShri16 m d s := rfl
@[simp] theorem exec_ldD16 (a : BitVec 4) (d : BitVec 5) (s : State) : exec (.ldD16 a d) s = execLdD16 a d s := rfl
@[simp] theorem exec_stD16 (a : BitVec 4) (d : BitVec 5) (s : State) : exec (.stD16 a d) s = execStD16 a d s := rfl
@[simp] theorem exec_br16 (o : BitVec 11) (s : State) : exec (.br16 o) s = execBr16 o s := rfl
@[simp] theorem exec_bez (o : BitVec 6) (d : BitVec 5) (s : State) : exec (.bez o d) s = execBez o d s := rfl
@[simp] theorem exec_bnz (o : BitVec 6) (d : BitVec 5) (s : State) : exec (.bnz o d) s = execBnz o d s := rfl
@[simp] theorem exec_done (s : State) : exec (.done) s = execDone s := rfl
@[simp] theorem exec_nop (s : State) : exec (.nop) s = execNop s := rfl
@[simp] theorem exec_ret16 (s : State) : exec (.ret16) s = execRet16 s := rfl
@[simp] theorem exec_illegal (eval : Word) (s : State) : exec (.illegal eval) s = execIllegal eval s := rfl
@[simp] theorem exec_trapEntry (core : Nat) (s : State) : exec (.trapEntry core) s = execTrapEntry core s := rfl
@[simp] theorem exec_machineEvent (core : Nat) (source : EventSource) (eval : Word) (s : State) : exec (.machineEvent core source eval) s = execMachineEvent core source eval s := rfl
@[simp] theorem exec_trapUpcall (core : Nat) (s : State) : exec (.trapUpcall core) s = execTrapUpcall core s := rfl
@[simp] theorem exec_dispatch (core : Nat) (urgent : Bool) (s : State) : exec (.dispatch core urgent) s = execDispatch core urgent s := rfl
@[simp] theorem exec_messageArrival (core : Nat) (m : Msg) (o : Origin) (s : State) : exec (.messageArrival core m o) s = execMessageArrival core m o s := rfl
@[simp] theorem exec_replyArrival (core : Nat) (r : Reply) (s : State) : exec (.replyArrival core r) s = execReplyArrival core r s := rfl
@[simp] theorem exec_replySlotTimeout (core : Nat) (slot : Nat) (s : State) : exec (.replySlotTimeout core slot) s = execReplySlotTimeout core slot s := rfl
@[simp] theorem exec_urgentQuotaWindow (core : Nat) (s : State) : exec (.urgentQuotaWindow core) s = execUrgentQuotaWindow core s := rfl
@[simp] theorem exec_urgentQuotaExhausted (core : Nat) (s : State) : exec (.urgentQuotaExhausted core) s = execUrgentQuotaExhausted core s := rfl
@[simp] theorem exec_statelessBalance (core : Nat) (s : State) : exec (.statelessBalance core) s = execStatelessBalance core s := rfl
@[simp] theorem exec_forwardQueuedMessages (ctx : Nat) (s : State) : exec (.forwardQueuedMessages ctx) s = execForwardQueuedMessages ctx s := rfl
@[simp] theorem exec_hbarEpisodeComplete (b : HbarKey) (s : State) : exec (.hbarEpisodeComplete b) s = execHbarEpisodeComplete b s := rfl
@[simp] theorem exec_hbarEnrolRemove (id : Nat) (pos : Nat) (s : State) : exec (.hbarEnrolRemove id pos) s = execHbarEnrolRemove id pos s := rfl
@[simp] theorem exec_storeBufferDrain (core : Nat) (s : State) : exec (.storeBufferDrain core) s = execStoreBufferDrain core s := rfl
@[simp] theorem exec_remoteRequest (r : Request) (s : State) : exec (.remoteRequest r) s = execRemoteRequest r s := rfl
@[simp] theorem exec_remoteValue (core : Nat) (frame : Nat) (rid : Nat) (v : RVal) (s : State) : exec (.remoteValue core frame rid v) s = execRemoteValue core frame rid v s := rfl
@[simp] theorem exec_acknowledgement (core : Nat) (frame : Nat) (rid : Nat) (s : State) : exec (.acknowledgement core frame rid) s = execAcknowledgement core frame rid s := rfl
@[simp] theorem exec_remoteNotice (core : Nat) (frame : Nat) (rid : Nat) (oid : BitVec 40) (n : Notice) (s : State) : exec (.remoteNotice core frame rid oid n) s = execRemoteNotice core frame rid oid n s := rfl
@[simp] theorem exec_translationCompletion (die : Nat) (pasid : Nat) (range : PageRange) (r : Bool) (w : Bool) (s : State) : exec (.translationCompletion die pasid range r w) s = execTranslationCompletion die pasid range r w s := rfl
@[simp] theorem exec_atsInvalidation (pasid : Nat) (page : Nat) (s : State) : exec (.atsInvalidation pasid page) s = execAtsInvalidation pasid page s := rfl
@[simp] theorem exec_hotRecordInterval (die : Nat) (ctl : Nat) (s : State) : exec (.hotRecordInterval die ctl) s = execHotRecordInterval die ctl s := rfl
@[simp] theorem exec_scrub (lo : Nat) (hi : Nat) (fixed : List Nat) (s : State) : exec (.scrub lo hi fixed) s = execScrub lo hi fixed s := rfl
@[simp] theorem exec_faultUpcall (core : Nat) (s : State) : exec (.faultUpcall core) s = execFaultUpcall core s := rfl
@[simp] theorem exec_memorySideUpcall (core : Nat) (s : State) : exec (.memorySideUpcall core) s = execMemorySideUpcall core s := rfl
@[simp] theorem exec_faultReplay (die : Nat) (index : Nat) (s : State) : exec (.faultReplay die index) s = execFaultReplay die index s := rfl
@[simp] theorem exec_pageRequestRead (core : Nat) (value : Word) (s : State) : exec (.pageRequestRead core value) s = execPageRequestRead core value s := rfl
@[simp] theorem exec_pageRequestWrite (core : Nat) (value : Word) (s : State) : exec (.pageRequestWrite core value) s = execPageRequestWrite core value s := rfl
@[simp] theorem exec_prgResponse (index : Nat) (code : Nat) (s : State) : exec (.prgResponse index code) s = execPrgResponse index code s := rfl
@[simp] theorem exec_pageRequestUpcall (core : Nat) (s : State) : exec (.pageRequestUpcall core) s = execPageRequestUpcall core s := rfl
@[simp] theorem exec_requestAccept (core : Nat) (s : State) : exec (.requestAccept core) s = execRequestAccept core s := rfl
@[simp] theorem exec_copySector (cluster : Nat) (request : Nat) (sector : Nat) (s : State) : exec (.copySector cluster request sector) s = execCopySector cluster request sector s := rfl
@[simp] theorem exec_barrierUpdate (ctx : Nat) (oid : BitVec 40) (off : Nat) (u : BarUpd) (s : State) : exec (.barrierUpdate ctx oid off u) s = execBarrierUpdate ctx oid off u s := rfl
@[simp] theorem exec_copyBankSelect (cluster : Nat) (bank : Bool) (s : State) : exec (.copyBankSelect cluster bank) s = execCopyBankSelect cluster bank s := rfl
@[simp] theorem exec_matrixBankSelect (cluster : Nat) (bank : Bool) (s : State) : exec (.matrixBankSelect cluster bank) s = execMatrixBankSelect cluster bank s := rfl
@[simp] theorem exec_mediaJobAccept (die : Nat) (s : State) : exec (.mediaJobAccept die) s = execMediaJobAccept die s := rfl
@[simp] theorem exec_mediaJobEnd (die : Nat) (job : Nat) (bits : List Byte) (recon : List Byte) (s : State) : exec (.mediaJobEnd die job bits recon) s = execMediaJobEnd die job bits recon s := rfl
@[simp] theorem exec_matrixJobStart (cluster : Nat) (s : State) : exec (.matrixJobStart cluster) s = execMatrixJobStart cluster s := rfl
@[simp] theorem exec_matrixJobEnd (cluster : Nat) (s : State) : exec (.matrixJobEnd cluster) s = execMatrixJobEnd cluster s := rfl
@[simp] theorem exec_converterStart (core : Nat) (s : State) : exec (.converterStart core) s = execConverterStart core s := rfl
@[simp] theorem exec_laneFailure (port : Nat) (s : State) : exec (.laneFailure port) s = execLaneFailure port s := rfl
@[simp] theorem exec_linkDown (port : Nat) (s : State) : exec (.linkDown port) s = execLinkDown port s := rfl
@[simp] theorem exec_declaredUnreachable (pos : Nat) (s : State) : exec (.declaredUnreachable pos) s = execDeclaredUnreachable pos s := rfl
@[simp] theorem exec_unreachableClasses (pos : Nat) (s : State) : exec (.unreachableClasses pos) s = execUnreachableClasses pos s := rfl
@[simp] theorem exec_halyardIdleFlit (port : Nat) (s : State) : exec (.halyardIdleFlit port) s = execHalyardIdleFlit port s := rfl
@[simp] theorem exec_tagGroupReceive (port : Nat) (flits : List Flit) (fifth : Flit) (s : State) : exec (.tagGroupReceive port flits fifth) s = execTagGroupReceive port flits fifth s := rfl
@[simp] theorem exec_tagGroupIdleFill (port : Nat) (s : State) : exec (.tagGroupIdleFill port) s = execTagGroupIdleFill port s := rfl
@[simp] theorem exec_linkKeyRollover (port : Nat) (s : State) : exec (.linkKeyRollover port) s = execLinkKeyRollover port s := rfl
@[simp] theorem exec_poisonNotice (core : Nat) (p : Poison) (s : State) : exec (.poisonNotice core p) s = execPoisonNotice core p s := rfl
@[simp] theorem exec_ftimeCorrection (error : Int) (s : State) : exec (.ftimeCorrection error) s = execFtimeCorrection error s := rfl
@[simp] theorem exec_halyardLoss (s : State) : exec (.halyardLoss) s = execHalyardLoss s := rfl
@[simp] theorem exec_memberRead (pos : Nat) (coll : Nat) (ctx : Nat) (oid : BitVec 40) (base : Nat) (len : Nat) (s : State) : exec (.memberRead pos coll ctx oid base len) s = execMemberRead pos coll ctx oid base len s := rfl
@[simp] theorem exec_memberWrite (pos : Nat) (coll : Nat) (ctx : Nat) (oid : BitVec 40) (base : Nat) (data : List Byte) (s : State) : exec (.memberWrite pos coll ctx oid base data) s = execMemberWrite pos coll ctx oid base data s := rfl
@[simp] theorem exec_memberValues (coll : Nat) (pos : Nat) (absent : Bool) (data : List Byte) (s : State) : exec (.memberValues coll pos absent data) s = execMemberValues coll pos absent data s := rfl
@[simp] theorem exec_collectiveTimeout (coll : Nat) (s : State) : exec (.collectiveTimeout coll) s = execCollectiveTimeout coll s := rfl
@[simp] theorem exec_collectiveEnd (coll : Nat) (s : State) : exec (.collectiveEnd coll) s = execCollectiveEnd coll s := rfl
@[simp] theorem exec_datagramSend (pod : Nat) (pos : Nat) (count : Nat) (s : State) : exec (.datagramSend pod pos count) s = execDatagramSend pod pos count s := rfl
@[simp] theorem exec_datagramReceive (tagx : List Byte) (d : Datagram) (s : State) : exec (.datagramReceive tagx d) s = execDatagramReceive tagx d s := rfl
@[simp] theorem exec_datagramResend (pod : Nat) (pos : Nat) (seq : Nat) (s : State) : exec (.datagramResend pod pos seq) s = execDatagramResend pod pos seq s := rfl
@[simp] theorem exec_announcementReceive (a : Announcement) (s : State) : exec (.announcementReceive a) s = execAnnouncementReceive a s := rfl
@[simp] theorem exec_objectionReceive (o : Objection) (s : State) : exec (.objectionReceive o) s = execObjectionReceive o s := rfl
@[simp] theorem exec_claimResolve (slot : Nat) (s : State) : exec (.claimResolve slot) s = execClaimResolve slot s := rfl
@[simp] theorem exec_claimSlotFree (slot : Nat) (s : State) : exec (.claimSlotFree slot) s = execClaimSlotFree slot s := rfl
@[simp] theorem exec_reef (ctx : Nat) (s : State) : exec (.reef ctx) s = execReef ctx s := rfl
@[simp] theorem exec_heaveTo (ctx : Nat) (s : State) : exec (.heaveTo ctx) s = execHeaveTo ctx s := rfl
@[simp] theorem exec_ladderHalt (ctx : Nat) (s : State) : exec (.ladderHalt ctx) s = execLadderHalt ctx s := rfl
@[simp] theorem exec_ladderStopped (ctx : Nat) (s : State) : exec (.ladderStopped ctx) s = execLadderStopped ctx s := rfl
@[simp] theorem exec_strike (ctx : Nat) (s : State) : exec (.strike ctx) s = execStrike ctx s := rfl
@[simp] theorem exec_restoreFrames (ctx : Nat) (s : State) : exec (.restoreFrames ctx) s = execRestoreFrames ctx s := rfl
@[simp] theorem exec_sliceEnd (ctx : Nat) (s : State) : exec (.sliceEnd ctx) s = execSliceEnd ctx s := rfl
@[simp] theorem exec_pausemaxResume (ctx : Nat) (s : State) : exec (.pausemaxResume ctx) s = execPausemaxResume ctx s := rfl
@[simp] theorem exec_pauseExpiry (core : Nat) (frame : Nat) (s : State) : exec (.pauseExpiry core frame) s = execPauseExpiry core frame s := rfl
@[simp] theorem exec_waitaTimeout (core : Nat) (frame : Nat) (s : State) : exec (.waitaTimeout core frame) s = execWaitaTimeout core frame s := rfl
@[simp] theorem exec_waitaFullExpiry (core : Nat) (frame : Nat) (s : State) : exec (.waitaFullExpiry core frame) s = execWaitaFullExpiry core frame s := rfl
@[simp] theorem exec_ringDoorbell (vf : Nat) (ring : Nat) (tail : Nat) (s : State) : exec (.ringDoorbell vf ring tail) s = execRingDoorbell vf ring tail s := rfl
@[simp] theorem exec_completionHead (vf : Nat) (ring : Nat) (head : Nat) (s : State) : exec (.completionHead vf ring head) s = execCompletionHead vf ring head s := rfl
@[simp] theorem exec_ringEnable (vf : Nat) (ring : Nat) (en : Bool) (s : State) : exec (.ringEnable vf ring en) s = execRingEnable vf ring en s := rfl
@[simp] theorem exec_ringReset (vf : Nat) (ring : Nat) (en : Bool) (s : State) : exec (.ringReset vf ring en) s = execRingReset vf ring en s := rfl
@[simp] theorem exec_ringInterruptEnable (vf : Nat) (ring : Nat) (ie : Bool) (s : State) : exec (.ringInterruptEnable vf ring ie) s = execRingInterruptEnable vf ring ie s := rfl
@[simp] theorem exec_registerWrite (vf : Nat) (offset : Nat) (value : Word) (s : State) : exec (.registerWrite vf offset value) s = execRegisterWrite vf offset value s := rfl
@[simp] theorem exec_msg (vf : Nat) (ring : Nat) (s : State) : exec (.msg vf ring) s = execMsg vf ring s := rfl
@[simp] theorem exec_pad (vf : Nat) (ring : Nat) (s : State) : exec (.pad vf ring) s = execPad vf ring s := rfl
@[simp] theorem exec_replaymark (vf : Nat) (ring : Nat) (s : State) : exec (.replaymark vf ring) s = execReplaymark vf ring s := rfl
@[simp] theorem exec_nopPacket (vf : Nat) (ring : Nat) (s : State) : exec (.nopPacket vf ring) s = execNopPacket vf ring s := rfl
@[simp] theorem exec_ringPacketRetry (vf : Nat) (ring : Nat) (s : State) : exec (.ringPacketRetry vf ring) s = execRingPacketRetry vf ring s := rfl
@[simp] theorem exec_replaymarkEffect (vf : Nat) (ring : Nat) (s : State) : exec (.replaymarkEffect vf ring) s = execReplaymarkEffect vf ring s := rfl
@[simp] theorem exec_nopFenceComplete (vf : Nat) (ring : Nat) (s : State) : exec (.nopFenceComplete vf ring) s = execNopFenceComplete vf ring s := rfl
@[simp] theorem exec_context (tag : Word) (addr : Word) (len : Word) (s : State) : exec (.context tag addr len) s = execContext tag addr len s := rfl
@[simp] theorem exec_bind (tag : Word) (h : Word) (vf : Word) (count : Word) (pasid : Word) (s : State) : exec (.bind tag h vf count pasid) s = execBind tag h vf count pasid s := rfl
@[simp] theorem exec_schedule (tag : Word) (h : Word) (slice : Word) (s : State) : exec (.schedule tag h slice) s = execSchedule tag h slice s := rfl
@[simp] theorem exec_pauseContext (tag : Word) (h : Word) (s : State) : exec (.pauseContext tag h) s = execPauseContext tag h s := rfl
@[simp] theorem exec_resume (tag : Word) (h : Word) (slice : Word) (s : State) : exec (.resume tag h slice) s = execResume tag h slice s := rfl
@[simp] theorem exec_evict (tag : Word) (h : Word) (addr : Word) (len : Word) (s : State) : exec (.evict tag h addr len) s = execEvict tag h addr len s := rfl
@[simp] theorem exec_restore (tag : Word) (h : Word) (addr : Word) (len : Word) (s : State) : exec (.restore tag h addr len) s = execRestore tag h addr len s := rfl
@[simp] theorem exec_migrateStart (tag : Word) (h : Word) (interval : Word) (addr : Word) (len : Word) (s : State) : exec (.migrateStart tag h interval addr len) s = execMigrateStart tag h interval addr len s := rfl
@[simp] theorem exec_migrateFinal (tag : Word) (h : Word) (addr : Word) (len : Word) (s : State) : exec (.migrateFinal tag h addr len) s = execMigrateFinal tag h addr len s := rfl
@[simp] theorem exec_migrateCancel (tag : Word) (h : Word) (s : State) : exec (.migrateCancel tag h) s = execMigrateCancel tag h s := rfl
@[simp] theorem exec_migrateKeyx (tag : Word) (h : Word) (addr : Word) (len : Word) (s : State) : exec (.migrateKeyx tag h addr len) s = execMigrateKeyx tag h addr len s := rfl
@[simp] theorem exec_migrateSnapshot (ctx : Nat) (s : State) : exec (.migrateSnapshot ctx) s = execMigrateSnapshot ctx s := rfl
@[simp] theorem exec_teardown (tag : Word) (h : Word) (s : State) : exec (.teardown tag h) s = execTeardown tag h s := rfl
@[simp] theorem exec_teardownRepropose (ctx : Nat) (s : State) : exec (.teardownRepropose ctx) s = execTeardownRepropose ctx s := rfl
@[simp] theorem exec_clusterRelease (ctx : Nat) (s : State) : exec (.clusterRelease ctx) s = execClusterRelease ctx s := rfl
@[simp] theorem exec_query (tag : Word) (h : Word) (arg : Word) (s : State) : exec (.query tag h arg) s = execQuery tag h arg s := rfl
@[simp] theorem exec_getMeasurements (index : Nat) (vf : Nat) (s : State) : exec (.getMeasurements index vf) s = execGetMeasurements index vf s := rfl
@[simp] theorem exec_powerOnBoot (pos : Nat) (s : State) : exec (.powerOnBoot pos) s = execPowerOnBoot pos s := rfl
@[simp] theorem exec_firmwareImageWrite (img : List Byte) (s : State) : exec (.firmwareImageWrite img) s = execFirmwareImageWrite img s := rfl
@[simp] theorem exec_temperatureThreshold (celsius : Nat) (s : State) : exec (.temperatureThreshold celsius) s = execTemperatureThreshold celsius s := rfl
@[simp] theorem exec_voltageFault (rail : Nat) (core : Nat) (s : State) : exec (.voltageFault rail core) s = execVoltageFault rail core s := rfl
@[simp] theorem exec_linkRetrained (port : Nat) (s : State) : exec (.linkRetrained port) s = execLinkRetrained port s := rfl
@[simp] theorem exec_tdispRequest (vf : Nat) (r : TdispReq) (s : State) : exec (.tdispRequest vf r) s = execTdispRequest vf r s := rfl
@[simp] theorem exec_ideKmKeyProg (vf : Nat) (key : Nat) (s : State) : exec (.ideKmKeyProg vf key) s = execIdeKmKeyProg vf key s := rfl
@[simp] theorem exec_valueTableCopy (group : Nat) (rows : List (Nat × Word × Word)) (s : State) : exec (.valueTableCopy group rows) s = execValueTableCopy group rows s := rfl

end Sys2Proof.Machine
end

