-- ==== Sys2Proof/Laws/Float.lean ====
section
/-! SUPPORT. Laws of the order of exact floating values. -/
namespace Sys2Proof.Machine

/-- The integer m 2^(e - q), with its sign: a value in units of 2^q, for q not above e. -/
def signedUnits (neg : Bool) (m : Nat) (e q : Int) : Int := (if neg then -1 else 1) * ((m * 2 ^ (e - q).toNat : Nat) : Int)

/-- Values in finer units. -/
theorem signedUnits_finer (neg : Bool) (m : Nat) (e q r : Int) (h : q ≤ e) (hr : r ≤ q) :
    signedUnits neg m e r = signedUnits neg m e q * 2 ^ (q - r).toNat := by
  have : (e - r).toNat = (e - q).toNat + (q - r).toNat := by omega
  simp only [signedUnits, this, pow_add]
  push_cast
  ring

/-- Less than of finite values, in any units that are fine enough. -/
theorem lt_num_iff (a b : Bool) (m n : Nat) (e g q : Int) (he : q ≤ e) (hg : q ≤ g) :
    (Fp.num a m e).lt (Fp.num b n g) = true ↔ signedUnits a m e q < signedUnits b n g q := by
  have h : (Fp.num a m e).lt (Fp.num b n g) = decide (signedUnits a m e (min e g) < signedUnits b n g (min e g)) := rfl
  rw [h, decide_eq_true_iff, signedUnits_finer a m e (min e g) q (by omega) (by omega),
    signedUnits_finer b n g (min e g) q (by omega) (by omega)]
  exact (Int.mul_lt_mul_right (by positivity)).symm

/-- Less than is transitive. -/
theorem lt_trans_fp {x y z : Fp} (h : x.lt y = true) (h' : y.lt z = true) : x.lt z = true := by
  cases x with
  | nan => exact h
  | inf a => cases y with
    | nan => cases a <;> exact absurd h (by simp [Fp.lt])
    | inf b => cases z <;> simp_all [Fp.lt]
    | num b n g => cases z <;> simp_all [Fp.lt]
  | num a m e => cases y with
    | nan => exact absurd h (by simp [Fp.lt])
    | inf b => cases z <;> simp_all [Fp.lt]
    | num b n g => cases z with
      | nan => exact h'
      | inf c => simp_all [Fp.lt]
      | num c k i =>
        let q := min e (min g i)
        rw [lt_num_iff a b m n e g q (by omega) (by omega)] at h
        rw [lt_num_iff b c n k g i q (by omega) (by omega)] at h'
        rw [lt_num_iff a c m k e i q (by omega) (by omega)]
        exact lt_trans h h'

/-- A table that rises from each code to the next rises throughout. -/
theorem lt_of_adjacent (t : Nat → Fp) (n : Nat) (h : ∀ i, i + 1 < n → (t i).lt (t (i + 1)) = true) :
    ∀ i j, i < j → j < n → (t i).lt (t j) = true := by
  intro i j hij hj
  induction j with
  | zero => omega
  | succ j ih =>
    by_cases hc : i = j
    · subst hc; exact h i hj
    · exact lt_trans_fp (ih (by omega) (by omega)) (h j hj)

end Sys2Proof.Machine
end

