-- ==== Sys2Proof/Laws/State.lean ====
section
/-! SUPPORT. What each update of the state, of a core and of a frame does to each field: one lemma a field, so that no
proof unfolds a record update. -/
namespace Sys2Proof.Machine

/-! ### A core -/

@[simp] theorem State.setCore_core (s : State) (n : Nat) (c : Core) : (s.setCore n c).core = s.core := rfl
@[simp] theorem State.setCore_frame (s : State) (n : Nat) (c : Core) : (s.setCore n c).frame = s.frame := rfl
@[simp] theorem State.setCore_agenda (s : State) (n : Nat) (c : Core) : (s.setCore n c).agenda = s.agenda := rfl
@[simp] theorem State.setCore_inflight (s : State) (n : Nat) (c : Core) : (s.setCore n c).inflight = s.inflight := rfl
@[simp] theorem State.setCore_arrived (s : State) (n : Nat) (c : Core) : (s.setCore n c).arrived = s.arrived := rfl
@[simp] theorem State.setCore_busWaits (s : State) (n : Nat) (c : Core) : (s.setCore n c).busWaits = s.busWaits := rfl
@[simp] theorem State.setCore_outbox (s : State) (n : Nat) (c : Core) : (s.setCore n c).outbox = s.outbox := rfl
@[simp] theorem State.setCore_engineTurn (s : State) (n : Nat) (c : Core) : (s.setCore n c).engineTurn = s.engineTurn := rfl
@[simp] theorem State.setCore_rotor (s : State) (n : Nat) (c : Core) : (s.setCore n c).rotor = s.rotor := rfl
@[simp] theorem State.setCore_steps (s : State) (n : Nat) (c : Core) : (s.setCore n c).steps = s.steps := rfl
@[simp] theorem State.setCore_fresh (s : State) (n : Nat) (c : Core) : (s.setCore n c).fresh = s.fresh := rfl
@[simp] theorem State.setCore_nextId (s : State) (n : Nat) (c : Core) : (s.setCore n c).nextId = s.nextId := rfl
@[simp] theorem State.setCore_kernelCode (s : State) (n : Nat) (c : Core) : (s.setCore n c).kernelCode = s.kernelCode := rfl
@[simp] theorem State.setCore_kernelVector (s : State) (n : Nat) (c : Core) : (s.setCore n c).kernelVector = s.kernelVector := rfl
@[simp] theorem State.setCore_pageOwner (s : State) (n : Nat) (c : Core) : (s.setCore n c).pageOwner = s.pageOwner := rfl
@[simp] theorem State.setCore_pos (s : State) (n : Nat) (c : Core) : (s.setCore n c).pos = s.pos := rfl
@[simp] theorem State.setCore_ftime (s : State) (n : Nat) (c : Core) : (s.setCore n c).ftime = s.ftime := rfl
@[simp] theorem State.setCore_ftimeErr (s : State) (n : Nat) (c : Core) : (s.setCore n c).ftimeErr = s.ftimeErr := rfl
@[simp] theorem State.setCore_cycles (s : State) (n : Nat) (c : Core) : (s.setCore n c).cycles = s.cycles := rfl
@[simp] theorem State.setCore_power (s : State) (n : Nat) (c : Core) : (s.setCore n c).power = s.power := rfl
@[simp] theorem State.setCore_mem (s : State) (n : Nat) (c : Core) : (s.setCore n c).mem = s.mem := rfl
@[simp] theorem State.setCore_tags (s : State) (n : Nat) (c : Core) : (s.setCore n c).tags = s.tags := rfl
@[simp] theorem State.setCore_keys (s : State) (n : Nat) (c : Core) : (s.setCore n c).keys = s.keys := rfl
@[simp] theorem State.setCore_bad (s : State) (n : Nat) (c : Core) : (s.setCore n c).bad = s.bad := rfl
@[simp] theorem State.setCore_badCode (s : State) (n : Nat) (c : Core) : (s.setCore n c).badCode = s.badCode := rfl
@[simp] theorem State.setCore_retired (s : State) (n : Nat) (c : Core) : (s.setCore n c).retired = s.retired := rfl
@[simp] theorem State.setCore_scrubAt (s : State) (n : Nat) (c : Core) : (s.setCore n c).scrubAt = s.scrubAt := rfl
@[simp] theorem State.setCore_corrected (s : State) (n : Nat) (c : Core) : (s.setCore n c).corrected = s.corrected := rfl
@[simp] theorem State.setCore_oscillators (s : State) (n : Nat) (c : Core) : (s.setCore n c).oscillators = s.oscillators := rfl
@[simp] theorem State.setCore_cores (s : State) (n : Nat) (c : Core) : (s.setCore n c).cores = put s.cores n c := rfl
@[simp] theorem State.setCore_clusters (s : State) (n : Nat) (c : Core) : (s.setCore n c).clusters = s.clusters := rfl
@[simp] theorem State.setCore_dies (s : State) (n : Nat) (c : Core) : (s.setCore n c).dies = s.dies := rfl
@[simp] theorem State.setCore_contexts (s : State) (n : Nat) (c : Core) : (s.setCore n c).contexts = s.contexts := rfl
@[simp] theorem State.setCore_vfs (s : State) (n : Nat) (c : Core) : (s.setCore n c).vfs = s.vfs := rfl
@[simp] theorem State.setCore_hbars (s : State) (n : Nat) (c : Core) : (s.setCore n c).hbars = s.hbars := rfl
@[simp] theorem State.setCore_groups (s : State) (n : Nat) (c : Core) : (s.setCore n c).groups = s.groups := rfl
@[simp] theorem State.setCore_claims (s : State) (n : Nat) (c : Core) : (s.setCore n c).claims = s.claims := rfl
@[simp] theorem State.setCore_early (s : State) (n : Nat) (c : Core) : (s.setCore n c).early = s.early := rfl
@[simp] theorem State.setCore_refused (s : State) (n : Nat) (c : Core) : (s.setCore n c).refused = s.refused := rfl
@[simp] theorem State.setCore_halyardLost (s : State) (n : Nat) (c : Core) : (s.setCore n c).halyardLost = s.halyardLost := rfl
@[simp] theorem State.setCore_declared (s : State) (n : Nat) (c : Core) : (s.setCore n c).declared = s.declared := rfl
@[simp] theorem State.setCore_unreachable (s : State) (n : Nat) (c : Core) : (s.setCore n c).unreachable = s.unreachable := rfl
@[simp] theorem State.setCore_barWaits (s : State) (n : Nat) (c : Core) : (s.setCore n c).barWaits = s.barWaits := rfl
@[simp] theorem State.setCore_discarded (s : State) (n : Nat) (c : Core) : (s.setCore n c).discarded = s.discarded := rfl
@[simp] theorem State.setCore_eventMsgs (s : State) (n : Nat) (c : Core) : (s.setCore n c).eventMsgs = s.eventMsgs := rfl
@[simp] theorem State.setCore_agroups (s : State) (n : Nat) (c : Core) : (s.setCore n c).agroups = s.agroups := rfl
@[simp] theorem State.setCore_colls (s : State) (n : Nat) (c : Core) : (s.setCore n c).colls = s.colls := rfl
@[simp] theorem State.setCore_links (s : State) (n : Nat) (c : Core) : (s.setCore n c).links = s.links := rfl
@[simp] theorem State.setCore_txbuf (s : State) (n : Nat) (c : Core) : (s.setCore n c).txbuf = s.txbuf := rfl
@[simp] theorem State.setCore_peers (s : State) (n : Nat) (c : Core) : (s.setCore n c).peers = s.peers := rfl
@[simp] theorem State.setCore_pod (s : State) (n : Nat) (c : Core) : (s.setCore n c).pod = s.pod := rfl
@[simp] theorem State.setCore_pageReqs (s : State) (n : Nat) (c : Core) : (s.setCore n c).pageReqs = s.pageReqs := rfl
@[simp] theorem State.setCore_routes (s : State) (n : Nat) (c : Core) : (s.setCore n c).routes = s.routes := rfl
@[simp] theorem State.setCore_moves (s : State) (n : Nat) (c : Core) : (s.setCore n c).moves = s.moves := rfl
@[simp] theorem State.setCore_met (s : State) (n : Nat) (c : Core) : (s.setCore n c).met = s.met := rfl
@[simp] theorem State.setCore_tainted (s : State) (n : Nat) (c : Core) : (s.setCore n c).tainted = s.tainted := rfl
@[simp] theorem State.setCore_framed (s : State) (n : Nat) (c : Core) : (s.setCore n c).framed = s.framed := rfl
@[simp] theorem State.setCore_pageDone (s : State) (n : Nat) (c : Core) : (s.setCore n c).pageDone = s.pageDone := rfl
@[simp] theorem State.setCore_pageLate (s : State) (n : Nat) (c : Core) : (s.setCore n c).pageLate = s.pageLate := rfl
@[simp] theorem State.setCore_mbcmd (s : State) (n : Nat) (c : Core) : (s.setCore n c).mbcmd = s.mbcmd := rfl
@[simp] theorem State.setCore_command (s : State) (n : Nat) (c : Core) : (s.setCore n c).command = s.command := rfl
@[simp] theorem State.setCore_busy (s : State) (n : Nat) (c : Core) : (s.setCore n c).busy = s.busy := rfl
@[simp] theorem State.setCore_usedImages (s : State) (n : Nat) (c : Core) : (s.setCore n c).usedImages = s.usedImages := rfl
@[simp] theorem State.setCore_linkIde (s : State) (n : Nat) (c : Core) : (s.setCore n c).linkIde = s.linkIde := rfl
@[simp] theorem State.setCore_secured (s : State) (n : Nat) (c : Core) : (s.setCore n c).secured = s.secured := rfl
@[simp] theorem State.setCore_bootKeys (s : State) (n : Nat) (c : Core) : (s.setCore n c).bootKeys = s.bootKeys := rfl
@[simp] theorem State.setCore_response (s : State) (n : Nat) (c : Core) : (s.setCore n c).response = s.response := rfl
@[simp] theorem State.setCore_slotA (s : State) (n : Nat) (c : Core) : (s.setCore n c).slotA = s.slotA := rfl
@[simp] theorem State.setCore_slotB (s : State) (n : Nat) (c : Core) : (s.setCore n c).slotB = s.slotB := rfl
@[simp] theorem State.setCore_slotSelect (s : State) (n : Nat) (c : Core) : (s.setCore n c).slotSelect = s.slotSelect := rfl
@[simp] theorem State.setCore_booted (s : State) (n : Nat) (c : Core) : (s.setCore n c).booted = s.booted := rfl
@[simp] theorem State.setCore_secCounter (s : State) (n : Nat) (c : Core) : (s.setCore n c).secCounter = s.secCounter := rfl
@[simp] theorem State.setCore_spareRoot (s : State) (n : Nat) (c : Core) : (s.setCore n c).spareRoot = s.spareRoot := rfl
@[simp] theorem State.setCore_retiredGens (s : State) (n : Nat) (c : Core) : (s.setCore n c).retiredGens = s.retiredGens := rfl
@[simp] theorem State.setCore_retireAsked (s : State) (n : Nat) (c : Core) : (s.setCore n c).retireAsked = s.retireAsked := rfl
@[simp] theorem State.setCore_retire (s : State) (n : Nat) (c : Core) : (s.setCore n c).retire = s.retire := rfl

/-! ### A frame -/

@[simp] theorem State.setFrame_core (s : State) (n f : Nat) (fr : Frame) : (s.setFrame n f fr).core = s.core := rfl
@[simp] theorem State.setFrame_frame (s : State) (n f : Nat) (fr : Frame) : (s.setFrame n f fr).frame = s.frame := rfl
@[simp] theorem State.setFrame_agenda (s : State) (n f : Nat) (fr : Frame) : (s.setFrame n f fr).agenda = s.agenda := rfl
@[simp] theorem State.setFrame_inflight (s : State) (n f : Nat) (fr : Frame) : (s.setFrame n f fr).inflight = s.inflight := rfl
@[simp] theorem State.setFrame_arrived (s : State) (n f : Nat) (fr : Frame) : (s.setFrame n f fr).arrived = s.arrived := rfl
@[simp] theorem State.setFrame_busWaits (s : State) (n f : Nat) (fr : Frame) : (s.setFrame n f fr).busWaits = s.busWaits := rfl
@[simp] theorem State.setFrame_outbox (s : State) (n f : Nat) (fr : Frame) : (s.setFrame n f fr).outbox = s.outbox := rfl
@[simp] theorem State.setFrame_engineTurn (s : State) (n f : Nat) (fr : Frame) : (s.setFrame n f fr).engineTurn = s.engineTurn := rfl
@[simp] theorem State.setFrame_rotor (s : State) (n f : Nat) (fr : Frame) : (s.setFrame n f fr).rotor = s.rotor := rfl
@[simp] theorem State.setFrame_steps (s : State) (n f : Nat) (fr : Frame) : (s.setFrame n f fr).steps = s.steps := rfl
@[simp] theorem State.setFrame_fresh (s : State) (n f : Nat) (fr : Frame) : (s.setFrame n f fr).fresh = s.fresh := rfl
@[simp] theorem State.setFrame_nextId (s : State) (n f : Nat) (fr : Frame) : (s.setFrame n f fr).nextId = s.nextId := rfl
@[simp] theorem State.setFrame_kernelCode (s : State) (n f : Nat) (fr : Frame) : (s.setFrame n f fr).kernelCode = s.kernelCode := rfl
@[simp] theorem State.setFrame_kernelVector (s : State) (n f : Nat) (fr : Frame) : (s.setFrame n f fr).kernelVector = s.kernelVector := rfl
@[simp] theorem State.setFrame_pageOwner (s : State) (n f : Nat) (fr : Frame) : (s.setFrame n f fr).pageOwner = s.pageOwner := rfl
@[simp] theorem State.setFrame_pos (s : State) (n f : Nat) (fr : Frame) : (s.setFrame n f fr).pos = s.pos := rfl
@[simp] theorem State.setFrame_ftime (s : State) (n f : Nat) (fr : Frame) : (s.setFrame n f fr).ftime = s.ftime := rfl
@[simp] theorem State.setFrame_ftimeErr (s : State) (n f : Nat) (fr : Frame) : (s.setFrame n f fr).ftimeErr = s.ftimeErr := rfl
@[simp] theorem State.setFrame_cycles (s : State) (n f : Nat) (fr : Frame) : (s.setFrame n f fr).cycles = s.cycles := rfl
@[simp] theorem State.setFrame_power (s : State) (n f : Nat) (fr : Frame) : (s.setFrame n f fr).power = s.power := rfl
@[simp] theorem State.setFrame_mem (s : State) (n f : Nat) (fr : Frame) : (s.setFrame n f fr).mem = s.mem := rfl
@[simp] theorem State.setFrame_tags (s : State) (n f : Nat) (fr : Frame) : (s.setFrame n f fr).tags = s.tags := rfl
@[simp] theorem State.setFrame_keys (s : State) (n f : Nat) (fr : Frame) : (s.setFrame n f fr).keys = s.keys := rfl
@[simp] theorem State.setFrame_bad (s : State) (n f : Nat) (fr : Frame) : (s.setFrame n f fr).bad = s.bad := rfl
@[simp] theorem State.setFrame_badCode (s : State) (n f : Nat) (fr : Frame) : (s.setFrame n f fr).badCode = s.badCode := rfl
@[simp] theorem State.setFrame_retired (s : State) (n f : Nat) (fr : Frame) : (s.setFrame n f fr).retired = s.retired := rfl
@[simp] theorem State.setFrame_scrubAt (s : State) (n f : Nat) (fr : Frame) : (s.setFrame n f fr).scrubAt = s.scrubAt := rfl
@[simp] theorem State.setFrame_corrected (s : State) (n f : Nat) (fr : Frame) : (s.setFrame n f fr).corrected = s.corrected := rfl
@[simp] theorem State.setFrame_oscillators (s : State) (n f : Nat) (fr : Frame) : (s.setFrame n f fr).oscillators = s.oscillators := rfl
@[simp] theorem State.setFrame_cores (s : State) (n f : Nat) (fr : Frame) : (s.setFrame n f fr).cores = put s.cores n ((s.coreAt n).setFrame f fr) := rfl
@[simp] theorem State.setFrame_clusters (s : State) (n f : Nat) (fr : Frame) : (s.setFrame n f fr).clusters = s.clusters := rfl
@[simp] theorem State.setFrame_dies (s : State) (n f : Nat) (fr : Frame) : (s.setFrame n f fr).dies = s.dies := rfl
@[simp] theorem State.setFrame_contexts (s : State) (n f : Nat) (fr : Frame) : (s.setFrame n f fr).contexts = s.contexts := rfl
@[simp] theorem State.setFrame_vfs (s : State) (n f : Nat) (fr : Frame) : (s.setFrame n f fr).vfs = s.vfs := rfl
@[simp] theorem State.setFrame_hbars (s : State) (n f : Nat) (fr : Frame) : (s.setFrame n f fr).hbars = s.hbars := rfl
@[simp] theorem State.setFrame_groups (s : State) (n f : Nat) (fr : Frame) : (s.setFrame n f fr).groups = s.groups := rfl
@[simp] theorem State.setFrame_claims (s : State) (n f : Nat) (fr : Frame) : (s.setFrame n f fr).claims = s.claims := rfl
@[simp] theorem State.setFrame_early (s : State) (n f : Nat) (fr : Frame) : (s.setFrame n f fr).early = s.early := rfl
@[simp] theorem State.setFrame_refused (s : State) (n f : Nat) (fr : Frame) : (s.setFrame n f fr).refused = s.refused := rfl
@[simp] theorem State.setFrame_halyardLost (s : State) (n f : Nat) (fr : Frame) : (s.setFrame n f fr).halyardLost = s.halyardLost := rfl
@[simp] theorem State.setFrame_declared (s : State) (n f : Nat) (fr : Frame) : (s.setFrame n f fr).declared = s.declared := rfl
@[simp] theorem State.setFrame_unreachable (s : State) (n f : Nat) (fr : Frame) : (s.setFrame n f fr).unreachable = s.unreachable := rfl
@[simp] theorem State.setFrame_barWaits (s : State) (n f : Nat) (fr : Frame) : (s.setFrame n f fr).barWaits = s.barWaits := rfl
@[simp] theorem State.setFrame_discarded (s : State) (n f : Nat) (fr : Frame) : (s.setFrame n f fr).discarded = s.discarded := rfl
@[simp] theorem State.setFrame_eventMsgs (s : State) (n f : Nat) (fr : Frame) : (s.setFrame n f fr).eventMsgs = s.eventMsgs := rfl
@[simp] theorem State.setFrame_agroups (s : State) (n f : Nat) (fr : Frame) : (s.setFrame n f fr).agroups = s.agroups := rfl
@[simp] theorem State.setFrame_colls (s : State) (n f : Nat) (fr : Frame) : (s.setFrame n f fr).colls = s.colls := rfl
@[simp] theorem State.setFrame_links (s : State) (n f : Nat) (fr : Frame) : (s.setFrame n f fr).links = s.links := rfl
@[simp] theorem State.setFrame_txbuf (s : State) (n f : Nat) (fr : Frame) : (s.setFrame n f fr).txbuf = s.txbuf := rfl
@[simp] theorem State.setFrame_peers (s : State) (n f : Nat) (fr : Frame) : (s.setFrame n f fr).peers = s.peers := rfl
@[simp] theorem State.setFrame_pod (s : State) (n f : Nat) (fr : Frame) : (s.setFrame n f fr).pod = s.pod := rfl
@[simp] theorem State.setFrame_pageReqs (s : State) (n f : Nat) (fr : Frame) : (s.setFrame n f fr).pageReqs = s.pageReqs := rfl
@[simp] theorem State.setFrame_routes (s : State) (n f : Nat) (fr : Frame) : (s.setFrame n f fr).routes = s.routes := rfl
@[simp] theorem State.setFrame_moves (s : State) (n f : Nat) (fr : Frame) : (s.setFrame n f fr).moves = s.moves := rfl
@[simp] theorem State.setFrame_met (s : State) (n f : Nat) (fr : Frame) : (s.setFrame n f fr).met = s.met := rfl
@[simp] theorem State.setFrame_tainted (s : State) (n f : Nat) (fr : Frame) : (s.setFrame n f fr).tainted = s.tainted := rfl
@[simp] theorem State.setFrame_framed (s : State) (n f : Nat) (fr : Frame) : (s.setFrame n f fr).framed = s.framed := rfl
@[simp] theorem State.setFrame_pageDone (s : State) (n f : Nat) (fr : Frame) : (s.setFrame n f fr).pageDone = s.pageDone := rfl
@[simp] theorem State.setFrame_pageLate (s : State) (n f : Nat) (fr : Frame) : (s.setFrame n f fr).pageLate = s.pageLate := rfl
@[simp] theorem State.setFrame_mbcmd (s : State) (n f : Nat) (fr : Frame) : (s.setFrame n f fr).mbcmd = s.mbcmd := rfl
@[simp] theorem State.setFrame_command (s : State) (n f : Nat) (fr : Frame) : (s.setFrame n f fr).command = s.command := rfl
@[simp] theorem State.setFrame_busy (s : State) (n f : Nat) (fr : Frame) : (s.setFrame n f fr).busy = s.busy := rfl
@[simp] theorem State.setFrame_usedImages (s : State) (n f : Nat) (fr : Frame) : (s.setFrame n f fr).usedImages = s.usedImages := rfl
@[simp] theorem State.setFrame_linkIde (s : State) (n f : Nat) (fr : Frame) : (s.setFrame n f fr).linkIde = s.linkIde := rfl
@[simp] theorem State.setFrame_secured (s : State) (n f : Nat) (fr : Frame) : (s.setFrame n f fr).secured = s.secured := rfl
@[simp] theorem State.setFrame_bootKeys (s : State) (n f : Nat) (fr : Frame) : (s.setFrame n f fr).bootKeys = s.bootKeys := rfl
@[simp] theorem State.setFrame_response (s : State) (n f : Nat) (fr : Frame) : (s.setFrame n f fr).response = s.response := rfl
@[simp] theorem State.setFrame_slotA (s : State) (n f : Nat) (fr : Frame) : (s.setFrame n f fr).slotA = s.slotA := rfl
@[simp] theorem State.setFrame_slotB (s : State) (n f : Nat) (fr : Frame) : (s.setFrame n f fr).slotB = s.slotB := rfl
@[simp] theorem State.setFrame_slotSelect (s : State) (n f : Nat) (fr : Frame) : (s.setFrame n f fr).slotSelect = s.slotSelect := rfl
@[simp] theorem State.setFrame_booted (s : State) (n f : Nat) (fr : Frame) : (s.setFrame n f fr).booted = s.booted := rfl
@[simp] theorem State.setFrame_secCounter (s : State) (n f : Nat) (fr : Frame) : (s.setFrame n f fr).secCounter = s.secCounter := rfl
@[simp] theorem State.setFrame_spareRoot (s : State) (n f : Nat) (fr : Frame) : (s.setFrame n f fr).spareRoot = s.spareRoot := rfl
@[simp] theorem State.setFrame_retiredGens (s : State) (n f : Nat) (fr : Frame) : (s.setFrame n f fr).retiredGens = s.retiredGens := rfl
@[simp] theorem State.setFrame_retireAsked (s : State) (n f : Nat) (fr : Frame) : (s.setFrame n f fr).retireAsked = s.retireAsked := rfl
@[simp] theorem State.setFrame_retire (s : State) (n f : Nat) (fr : Frame) : (s.setFrame n f fr).retire = s.retire := rfl

/-! ### The current frame -/

@[simp] theorem State.setCur_core (s : State) (fr : Frame) : (s.setCur fr).core = s.core := rfl
@[simp] theorem State.setCur_frame (s : State) (fr : Frame) : (s.setCur fr).frame = s.frame := rfl
@[simp] theorem State.setCur_agenda (s : State) (fr : Frame) : (s.setCur fr).agenda = s.agenda := rfl
@[simp] theorem State.setCur_inflight (s : State) (fr : Frame) : (s.setCur fr).inflight = s.inflight := rfl
@[simp] theorem State.setCur_arrived (s : State) (fr : Frame) : (s.setCur fr).arrived = s.arrived := rfl
@[simp] theorem State.setCur_busWaits (s : State) (fr : Frame) : (s.setCur fr).busWaits = s.busWaits := rfl
@[simp] theorem State.setCur_outbox (s : State) (fr : Frame) : (s.setCur fr).outbox = s.outbox := rfl
@[simp] theorem State.setCur_engineTurn (s : State) (fr : Frame) : (s.setCur fr).engineTurn = s.engineTurn := rfl
@[simp] theorem State.setCur_rotor (s : State) (fr : Frame) : (s.setCur fr).rotor = s.rotor := rfl
@[simp] theorem State.setCur_steps (s : State) (fr : Frame) : (s.setCur fr).steps = s.steps := rfl
@[simp] theorem State.setCur_fresh (s : State) (fr : Frame) : (s.setCur fr).fresh = s.fresh := rfl
@[simp] theorem State.setCur_nextId (s : State) (fr : Frame) : (s.setCur fr).nextId = s.nextId := rfl
@[simp] theorem State.setCur_kernelCode (s : State) (fr : Frame) : (s.setCur fr).kernelCode = s.kernelCode := rfl
@[simp] theorem State.setCur_kernelVector (s : State) (fr : Frame) : (s.setCur fr).kernelVector = s.kernelVector := rfl
@[simp] theorem State.setCur_pageOwner (s : State) (fr : Frame) : (s.setCur fr).pageOwner = s.pageOwner := rfl
@[simp] theorem State.setCur_pos (s : State) (fr : Frame) : (s.setCur fr).pos = s.pos := rfl
@[simp] theorem State.setCur_ftime (s : State) (fr : Frame) : (s.setCur fr).ftime = s.ftime := rfl
@[simp] theorem State.setCur_ftimeErr (s : State) (fr : Frame) : (s.setCur fr).ftimeErr = s.ftimeErr := rfl
@[simp] theorem State.setCur_cycles (s : State) (fr : Frame) : (s.setCur fr).cycles = s.cycles := rfl
@[simp] theorem State.setCur_power (s : State) (fr : Frame) : (s.setCur fr).power = s.power := rfl
@[simp] theorem State.setCur_mem (s : State) (fr : Frame) : (s.setCur fr).mem = s.mem := rfl
@[simp] theorem State.setCur_tags (s : State) (fr : Frame) : (s.setCur fr).tags = s.tags := rfl
@[simp] theorem State.setCur_keys (s : State) (fr : Frame) : (s.setCur fr).keys = s.keys := rfl
@[simp] theorem State.setCur_bad (s : State) (fr : Frame) : (s.setCur fr).bad = s.bad := rfl
@[simp] theorem State.setCur_badCode (s : State) (fr : Frame) : (s.setCur fr).badCode = s.badCode := rfl
@[simp] theorem State.setCur_retired (s : State) (fr : Frame) : (s.setCur fr).retired = s.retired := rfl
@[simp] theorem State.setCur_scrubAt (s : State) (fr : Frame) : (s.setCur fr).scrubAt = s.scrubAt := rfl
@[simp] theorem State.setCur_corrected (s : State) (fr : Frame) : (s.setCur fr).corrected = s.corrected := rfl
@[simp] theorem State.setCur_oscillators (s : State) (fr : Frame) : (s.setCur fr).oscillators = s.oscillators := rfl
@[simp] theorem State.setCur_clusters (s : State) (fr : Frame) : (s.setCur fr).clusters = s.clusters := rfl
@[simp] theorem State.setCur_dies (s : State) (fr : Frame) : (s.setCur fr).dies = s.dies := rfl
@[simp] theorem State.setCur_contexts (s : State) (fr : Frame) : (s.setCur fr).contexts = s.contexts := rfl
@[simp] theorem State.setCur_vfs (s : State) (fr : Frame) : (s.setCur fr).vfs = s.vfs := rfl
@[simp] theorem State.setCur_hbars (s : State) (fr : Frame) : (s.setCur fr).hbars = s.hbars := rfl
@[simp] theorem State.setCur_groups (s : State) (fr : Frame) : (s.setCur fr).groups = s.groups := rfl
@[simp] theorem State.setCur_claims (s : State) (fr : Frame) : (s.setCur fr).claims = s.claims := rfl
@[simp] theorem State.setCur_early (s : State) (fr : Frame) : (s.setCur fr).early = s.early := rfl
@[simp] theorem State.setCur_refused (s : State) (fr : Frame) : (s.setCur fr).refused = s.refused := rfl
@[simp] theorem State.setCur_halyardLost (s : State) (fr : Frame) : (s.setCur fr).halyardLost = s.halyardLost := rfl
@[simp] theorem State.setCur_declared (s : State) (fr : Frame) : (s.setCur fr).declared = s.declared := rfl
@[simp] theorem State.setCur_unreachable (s : State) (fr : Frame) : (s.setCur fr).unreachable = s.unreachable := rfl
@[simp] theorem State.setCur_barWaits (s : State) (fr : Frame) : (s.setCur fr).barWaits = s.barWaits := rfl
@[simp] theorem State.setCur_discarded (s : State) (fr : Frame) : (s.setCur fr).discarded = s.discarded := rfl
@[simp] theorem State.setCur_eventMsgs (s : State) (fr : Frame) : (s.setCur fr).eventMsgs = s.eventMsgs := rfl
@[simp] theorem State.setCur_agroups (s : State) (fr : Frame) : (s.setCur fr).agroups = s.agroups := rfl
@[simp] theorem State.setCur_colls (s : State) (fr : Frame) : (s.setCur fr).colls = s.colls := rfl
@[simp] theorem State.setCur_links (s : State) (fr : Frame) : (s.setCur fr).links = s.links := rfl
@[simp] theorem State.setCur_txbuf (s : State) (fr : Frame) : (s.setCur fr).txbuf = s.txbuf := rfl
@[simp] theorem State.setCur_peers (s : State) (fr : Frame) : (s.setCur fr).peers = s.peers := rfl
@[simp] theorem State.setCur_pod (s : State) (fr : Frame) : (s.setCur fr).pod = s.pod := rfl
@[simp] theorem State.setCur_pageReqs (s : State) (fr : Frame) : (s.setCur fr).pageReqs = s.pageReqs := rfl
@[simp] theorem State.setCur_routes (s : State) (fr : Frame) : (s.setCur fr).routes = s.routes := rfl
@[simp] theorem State.setCur_moves (s : State) (fr : Frame) : (s.setCur fr).moves = s.moves := rfl
@[simp] theorem State.setCur_met (s : State) (fr : Frame) : (s.setCur fr).met = s.met := rfl
@[simp] theorem State.setCur_tainted (s : State) (fr : Frame) : (s.setCur fr).tainted = s.tainted := rfl
@[simp] theorem State.setCur_framed (s : State) (fr : Frame) : (s.setCur fr).framed = s.framed := rfl
@[simp] theorem State.setCur_pageDone (s : State) (fr : Frame) : (s.setCur fr).pageDone = s.pageDone := rfl
@[simp] theorem State.setCur_pageLate (s : State) (fr : Frame) : (s.setCur fr).pageLate = s.pageLate := rfl
@[simp] theorem State.setCur_mbcmd (s : State) (fr : Frame) : (s.setCur fr).mbcmd = s.mbcmd := rfl
@[simp] theorem State.setCur_command (s : State) (fr : Frame) : (s.setCur fr).command = s.command := rfl
@[simp] theorem State.setCur_busy (s : State) (fr : Frame) : (s.setCur fr).busy = s.busy := rfl
@[simp] theorem State.setCur_usedImages (s : State) (fr : Frame) : (s.setCur fr).usedImages = s.usedImages := rfl
@[simp] theorem State.setCur_linkIde (s : State) (fr : Frame) : (s.setCur fr).linkIde = s.linkIde := rfl
@[simp] theorem State.setCur_secured (s : State) (fr : Frame) : (s.setCur fr).secured = s.secured := rfl
@[simp] theorem State.setCur_bootKeys (s : State) (fr : Frame) : (s.setCur fr).bootKeys = s.bootKeys := rfl
@[simp] theorem State.setCur_response (s : State) (fr : Frame) : (s.setCur fr).response = s.response := rfl
@[simp] theorem State.setCur_slotA (s : State) (fr : Frame) : (s.setCur fr).slotA = s.slotA := rfl
@[simp] theorem State.setCur_slotB (s : State) (fr : Frame) : (s.setCur fr).slotB = s.slotB := rfl
@[simp] theorem State.setCur_slotSelect (s : State) (fr : Frame) : (s.setCur fr).slotSelect = s.slotSelect := rfl
@[simp] theorem State.setCur_booted (s : State) (fr : Frame) : (s.setCur fr).booted = s.booted := rfl
@[simp] theorem State.setCur_secCounter (s : State) (fr : Frame) : (s.setCur fr).secCounter = s.secCounter := rfl
@[simp] theorem State.setCur_spareRoot (s : State) (fr : Frame) : (s.setCur fr).spareRoot = s.spareRoot := rfl
@[simp] theorem State.setCur_retiredGens (s : State) (fr : Frame) : (s.setCur fr).retiredGens = s.retiredGens := rfl
@[simp] theorem State.setCur_retireAsked (s : State) (fr : Frame) : (s.setCur fr).retireAsked = s.retireAsked := rfl
@[simp] theorem State.setCur_retire (s : State) (fr : Frame) : (s.setCur fr).retire = s.retire := rfl

/-! ### A general register written -/

@[simp] theorem State.writeG_core (s : State) (d : BitVec 5) (v : Word) (n : Nat) : (s.writeG d v n).core = s.core := rfl
@[simp] theorem State.writeG_frame (s : State) (d : BitVec 5) (v : Word) (n : Nat) : (s.writeG d v n).frame = s.frame := rfl
@[simp] theorem State.writeG_agenda (s : State) (d : BitVec 5) (v : Word) (n : Nat) : (s.writeG d v n).agenda = s.agenda := rfl
@[simp] theorem State.writeG_inflight (s : State) (d : BitVec 5) (v : Word) (n : Nat) : (s.writeG d v n).inflight = s.inflight := rfl
@[simp] theorem State.writeG_arrived (s : State) (d : BitVec 5) (v : Word) (n : Nat) : (s.writeG d v n).arrived = s.arrived := rfl
@[simp] theorem State.writeG_busWaits (s : State) (d : BitVec 5) (v : Word) (n : Nat) : (s.writeG d v n).busWaits = s.busWaits := rfl
@[simp] theorem State.writeG_outbox (s : State) (d : BitVec 5) (v : Word) (n : Nat) : (s.writeG d v n).outbox = s.outbox := rfl
@[simp] theorem State.writeG_engineTurn (s : State) (d : BitVec 5) (v : Word) (n : Nat) : (s.writeG d v n).engineTurn = s.engineTurn := rfl
@[simp] theorem State.writeG_rotor (s : State) (d : BitVec 5) (v : Word) (n : Nat) : (s.writeG d v n).rotor = s.rotor := rfl
@[simp] theorem State.writeG_steps (s : State) (d : BitVec 5) (v : Word) (n : Nat) : (s.writeG d v n).steps = s.steps := rfl
@[simp] theorem State.writeG_fresh (s : State) (d : BitVec 5) (v : Word) (n : Nat) : (s.writeG d v n).fresh = s.fresh := rfl
@[simp] theorem State.writeG_nextId (s : State) (d : BitVec 5) (v : Word) (n : Nat) : (s.writeG d v n).nextId = s.nextId := rfl
@[simp] theorem State.writeG_kernelCode (s : State) (d : BitVec 5) (v : Word) (n : Nat) : (s.writeG d v n).kernelCode = s.kernelCode := rfl
@[simp] theorem State.writeG_kernelVector (s : State) (d : BitVec 5) (v : Word) (n : Nat) : (s.writeG d v n).kernelVector = s.kernelVector := rfl
@[simp] theorem State.writeG_pageOwner (s : State) (d : BitVec 5) (v : Word) (n : Nat) : (s.writeG d v n).pageOwner = s.pageOwner := rfl
@[simp] theorem State.writeG_pos (s : State) (d : BitVec 5) (v : Word) (n : Nat) : (s.writeG d v n).pos = s.pos := rfl
@[simp] theorem State.writeG_ftime (s : State) (d : BitVec 5) (v : Word) (n : Nat) : (s.writeG d v n).ftime = s.ftime := rfl
@[simp] theorem State.writeG_ftimeErr (s : State) (d : BitVec 5) (v : Word) (n : Nat) : (s.writeG d v n).ftimeErr = s.ftimeErr := rfl
@[simp] theorem State.writeG_cycles (s : State) (d : BitVec 5) (v : Word) (n : Nat) : (s.writeG d v n).cycles = s.cycles := rfl
@[simp] theorem State.writeG_power (s : State) (d : BitVec 5) (v : Word) (n : Nat) : (s.writeG d v n).power = s.power := rfl
@[simp] theorem State.writeG_mem (s : State) (d : BitVec 5) (v : Word) (n : Nat) : (s.writeG d v n).mem = s.mem := rfl
@[simp] theorem State.writeG_tags (s : State) (d : BitVec 5) (v : Word) (n : Nat) : (s.writeG d v n).tags = s.tags := rfl
@[simp] theorem State.writeG_keys (s : State) (d : BitVec 5) (v : Word) (n : Nat) : (s.writeG d v n).keys = s.keys := rfl
@[simp] theorem State.writeG_bad (s : State) (d : BitVec 5) (v : Word) (n : Nat) : (s.writeG d v n).bad = s.bad := rfl
@[simp] theorem State.writeG_badCode (s : State) (d : BitVec 5) (v : Word) (n : Nat) : (s.writeG d v n).badCode = s.badCode := rfl
@[simp] theorem State.writeG_retired (s : State) (d : BitVec 5) (v : Word) (n : Nat) : (s.writeG d v n).retired = s.retired := rfl
@[simp] theorem State.writeG_scrubAt (s : State) (d : BitVec 5) (v : Word) (n : Nat) : (s.writeG d v n).scrubAt = s.scrubAt := rfl
@[simp] theorem State.writeG_corrected (s : State) (d : BitVec 5) (v : Word) (n : Nat) : (s.writeG d v n).corrected = s.corrected := rfl
@[simp] theorem State.writeG_oscillators (s : State) (d : BitVec 5) (v : Word) (n : Nat) : (s.writeG d v n).oscillators = s.oscillators := rfl
@[simp] theorem State.writeG_clusters (s : State) (d : BitVec 5) (v : Word) (n : Nat) : (s.writeG d v n).clusters = s.clusters := rfl
@[simp] theorem State.writeG_dies (s : State) (d : BitVec 5) (v : Word) (n : Nat) : (s.writeG d v n).dies = s.dies := rfl
@[simp] theorem State.writeG_contexts (s : State) (d : BitVec 5) (v : Word) (n : Nat) : (s.writeG d v n).contexts = s.contexts := rfl
@[simp] theorem State.writeG_vfs (s : State) (d : BitVec 5) (v : Word) (n : Nat) : (s.writeG d v n).vfs = s.vfs := rfl
@[simp] theorem State.writeG_hbars (s : State) (d : BitVec 5) (v : Word) (n : Nat) : (s.writeG d v n).hbars = s.hbars := rfl
@[simp] theorem State.writeG_groups (s : State) (d : BitVec 5) (v : Word) (n : Nat) : (s.writeG d v n).groups = s.groups := rfl
@[simp] theorem State.writeG_claims (s : State) (d : BitVec 5) (v : Word) (n : Nat) : (s.writeG d v n).claims = s.claims := rfl
@[simp] theorem State.writeG_early (s : State) (d : BitVec 5) (v : Word) (n : Nat) : (s.writeG d v n).early = s.early := rfl
@[simp] theorem State.writeG_refused (s : State) (d : BitVec 5) (v : Word) (n : Nat) : (s.writeG d v n).refused = s.refused := rfl
@[simp] theorem State.writeG_halyardLost (s : State) (d : BitVec 5) (v : Word) (n : Nat) : (s.writeG d v n).halyardLost = s.halyardLost := rfl
@[simp] theorem State.writeG_declared (s : State) (d : BitVec 5) (v : Word) (n : Nat) : (s.writeG d v n).declared = s.declared := rfl
@[simp] theorem State.writeG_unreachable (s : State) (d : BitVec 5) (v : Word) (n : Nat) : (s.writeG d v n).unreachable = s.unreachable := rfl
@[simp] theorem State.writeG_barWaits (s : State) (d : BitVec 5) (v : Word) (n : Nat) : (s.writeG d v n).barWaits = s.barWaits := rfl
@[simp] theorem State.writeG_discarded (s : State) (d : BitVec 5) (v : Word) (n : Nat) : (s.writeG d v n).discarded = s.discarded := rfl
@[simp] theorem State.writeG_eventMsgs (s : State) (d : BitVec 5) (v : Word) (n : Nat) : (s.writeG d v n).eventMsgs = s.eventMsgs := rfl
@[simp] theorem State.writeG_agroups (s : State) (d : BitVec 5) (v : Word) (n : Nat) : (s.writeG d v n).agroups = s.agroups := rfl
@[simp] theorem State.writeG_colls (s : State) (d : BitVec 5) (v : Word) (n : Nat) : (s.writeG d v n).colls = s.colls := rfl
@[simp] theorem State.writeG_links (s : State) (d : BitVec 5) (v : Word) (n : Nat) : (s.writeG d v n).links = s.links := rfl
@[simp] theorem State.writeG_txbuf (s : State) (d : BitVec 5) (v : Word) (n : Nat) : (s.writeG d v n).txbuf = s.txbuf := rfl
@[simp] theorem State.writeG_peers (s : State) (d : BitVec 5) (v : Word) (n : Nat) : (s.writeG d v n).peers = s.peers := rfl
@[simp] theorem State.writeG_pod (s : State) (d : BitVec 5) (v : Word) (n : Nat) : (s.writeG d v n).pod = s.pod := rfl
@[simp] theorem State.writeG_pageReqs (s : State) (d : BitVec 5) (v : Word) (n : Nat) : (s.writeG d v n).pageReqs = s.pageReqs := rfl
@[simp] theorem State.writeG_routes (s : State) (d : BitVec 5) (v : Word) (n : Nat) : (s.writeG d v n).routes = s.routes := rfl
@[simp] theorem State.writeG_moves (s : State) (d : BitVec 5) (v : Word) (n : Nat) : (s.writeG d v n).moves = s.moves := rfl
@[simp] theorem State.writeG_met (s : State) (d : BitVec 5) (v : Word) (n : Nat) : (s.writeG d v n).met = s.met := rfl
@[simp] theorem State.writeG_tainted (s : State) (d : BitVec 5) (v : Word) (n : Nat) : (s.writeG d v n).tainted = s.tainted := rfl
@[simp] theorem State.writeG_framed (s : State) (d : BitVec 5) (v : Word) (n : Nat) : (s.writeG d v n).framed = s.framed := rfl
@[simp] theorem State.writeG_pageDone (s : State) (d : BitVec 5) (v : Word) (n : Nat) : (s.writeG d v n).pageDone = s.pageDone := rfl
@[simp] theorem State.writeG_pageLate (s : State) (d : BitVec 5) (v : Word) (n : Nat) : (s.writeG d v n).pageLate = s.pageLate := rfl
@[simp] theorem State.writeG_mbcmd (s : State) (d : BitVec 5) (v : Word) (n : Nat) : (s.writeG d v n).mbcmd = s.mbcmd := rfl
@[simp] theorem State.writeG_command (s : State) (d : BitVec 5) (v : Word) (n : Nat) : (s.writeG d v n).command = s.command := rfl
@[simp] theorem State.writeG_busy (s : State) (d : BitVec 5) (v : Word) (n : Nat) : (s.writeG d v n).busy = s.busy := rfl
@[simp] theorem State.writeG_usedImages (s : State) (d : BitVec 5) (v : Word) (n : Nat) : (s.writeG d v n).usedImages = s.usedImages := rfl
@[simp] theorem State.writeG_linkIde (s : State) (d : BitVec 5) (v : Word) (n : Nat) : (s.writeG d v n).linkIde = s.linkIde := rfl
@[simp] theorem State.writeG_secured (s : State) (d : BitVec 5) (v : Word) (n : Nat) : (s.writeG d v n).secured = s.secured := rfl
@[simp] theorem State.writeG_bootKeys (s : State) (d : BitVec 5) (v : Word) (n : Nat) : (s.writeG d v n).bootKeys = s.bootKeys := rfl
@[simp] theorem State.writeG_response (s : State) (d : BitVec 5) (v : Word) (n : Nat) : (s.writeG d v n).response = s.response := rfl
@[simp] theorem State.writeG_slotA (s : State) (d : BitVec 5) (v : Word) (n : Nat) : (s.writeG d v n).slotA = s.slotA := rfl
@[simp] theorem State.writeG_slotB (s : State) (d : BitVec 5) (v : Word) (n : Nat) : (s.writeG d v n).slotB = s.slotB := rfl
@[simp] theorem State.writeG_slotSelect (s : State) (d : BitVec 5) (v : Word) (n : Nat) : (s.writeG d v n).slotSelect = s.slotSelect := rfl
@[simp] theorem State.writeG_booted (s : State) (d : BitVec 5) (v : Word) (n : Nat) : (s.writeG d v n).booted = s.booted := rfl
@[simp] theorem State.writeG_secCounter (s : State) (d : BitVec 5) (v : Word) (n : Nat) : (s.writeG d v n).secCounter = s.secCounter := rfl
@[simp] theorem State.writeG_spareRoot (s : State) (d : BitVec 5) (v : Word) (n : Nat) : (s.writeG d v n).spareRoot = s.spareRoot := rfl
@[simp] theorem State.writeG_retiredGens (s : State) (d : BitVec 5) (v : Word) (n : Nat) : (s.writeG d v n).retiredGens = s.retiredGens := rfl
@[simp] theorem State.writeG_retireAsked (s : State) (d : BitVec 5) (v : Word) (n : Nat) : (s.writeG d v n).retireAsked = s.retireAsked := rfl
@[simp] theorem State.writeG_retire (s : State) (d : BitVec 5) (v : Word) (n : Nat) : (s.writeG d v n).retire = s.retire := rfl

/-! ### A capability register written -/

@[simp] theorem State.writeC_core (s : State) (d : BitVec 4) (v : Cap) (n : Nat) : (s.writeC d v n).core = s.core := rfl
@[simp] theorem State.writeC_frame (s : State) (d : BitVec 4) (v : Cap) (n : Nat) : (s.writeC d v n).frame = s.frame := rfl
@[simp] theorem State.writeC_agenda (s : State) (d : BitVec 4) (v : Cap) (n : Nat) : (s.writeC d v n).agenda = s.agenda := rfl
@[simp] theorem State.writeC_inflight (s : State) (d : BitVec 4) (v : Cap) (n : Nat) : (s.writeC d v n).inflight = s.inflight := rfl
@[simp] theorem State.writeC_arrived (s : State) (d : BitVec 4) (v : Cap) (n : Nat) : (s.writeC d v n).arrived = s.arrived := rfl
@[simp] theorem State.writeC_busWaits (s : State) (d : BitVec 4) (v : Cap) (n : Nat) : (s.writeC d v n).busWaits = s.busWaits := rfl
@[simp] theorem State.writeC_outbox (s : State) (d : BitVec 4) (v : Cap) (n : Nat) : (s.writeC d v n).outbox = s.outbox := rfl
@[simp] theorem State.writeC_engineTurn (s : State) (d : BitVec 4) (v : Cap) (n : Nat) : (s.writeC d v n).engineTurn = s.engineTurn := rfl
@[simp] theorem State.writeC_rotor (s : State) (d : BitVec 4) (v : Cap) (n : Nat) : (s.writeC d v n).rotor = s.rotor := rfl
@[simp] theorem State.writeC_steps (s : State) (d : BitVec 4) (v : Cap) (n : Nat) : (s.writeC d v n).steps = s.steps := rfl
@[simp] theorem State.writeC_fresh (s : State) (d : BitVec 4) (v : Cap) (n : Nat) : (s.writeC d v n).fresh = s.fresh := rfl
@[simp] theorem State.writeC_nextId (s : State) (d : BitVec 4) (v : Cap) (n : Nat) : (s.writeC d v n).nextId = s.nextId := rfl
@[simp] theorem State.writeC_kernelCode (s : State) (d : BitVec 4) (v : Cap) (n : Nat) : (s.writeC d v n).kernelCode = s.kernelCode := rfl
@[simp] theorem State.writeC_kernelVector (s : State) (d : BitVec 4) (v : Cap) (n : Nat) : (s.writeC d v n).kernelVector = s.kernelVector := rfl
@[simp] theorem State.writeC_pageOwner (s : State) (d : BitVec 4) (v : Cap) (n : Nat) : (s.writeC d v n).pageOwner = s.pageOwner := rfl
@[simp] theorem State.writeC_pos (s : State) (d : BitVec 4) (v : Cap) (n : Nat) : (s.writeC d v n).pos = s.pos := rfl
@[simp] theorem State.writeC_ftime (s : State) (d : BitVec 4) (v : Cap) (n : Nat) : (s.writeC d v n).ftime = s.ftime := rfl
@[simp] theorem State.writeC_ftimeErr (s : State) (d : BitVec 4) (v : Cap) (n : Nat) : (s.writeC d v n).ftimeErr = s.ftimeErr := rfl
@[simp] theorem State.writeC_cycles (s : State) (d : BitVec 4) (v : Cap) (n : Nat) : (s.writeC d v n).cycles = s.cycles := rfl
@[simp] theorem State.writeC_power (s : State) (d : BitVec 4) (v : Cap) (n : Nat) : (s.writeC d v n).power = s.power := rfl
@[simp] theorem State.writeC_mem (s : State) (d : BitVec 4) (v : Cap) (n : Nat) : (s.writeC d v n).mem = s.mem := rfl
@[simp] theorem State.writeC_tags (s : State) (d : BitVec 4) (v : Cap) (n : Nat) : (s.writeC d v n).tags = s.tags := rfl
@[simp] theorem State.writeC_keys (s : State) (d : BitVec 4) (v : Cap) (n : Nat) : (s.writeC d v n).keys = s.keys := rfl
@[simp] theorem State.writeC_bad (s : State) (d : BitVec 4) (v : Cap) (n : Nat) : (s.writeC d v n).bad = s.bad := rfl
@[simp] theorem State.writeC_badCode (s : State) (d : BitVec 4) (v : Cap) (n : Nat) : (s.writeC d v n).badCode = s.badCode := rfl
@[simp] theorem State.writeC_retired (s : State) (d : BitVec 4) (v : Cap) (n : Nat) : (s.writeC d v n).retired = s.retired := rfl
@[simp] theorem State.writeC_scrubAt (s : State) (d : BitVec 4) (v : Cap) (n : Nat) : (s.writeC d v n).scrubAt = s.scrubAt := rfl
@[simp] theorem State.writeC_corrected (s : State) (d : BitVec 4) (v : Cap) (n : Nat) : (s.writeC d v n).corrected = s.corrected := rfl
@[simp] theorem State.writeC_oscillators (s : State) (d : BitVec 4) (v : Cap) (n : Nat) : (s.writeC d v n).oscillators = s.oscillators := rfl
@[simp] theorem State.writeC_clusters (s : State) (d : BitVec 4) (v : Cap) (n : Nat) : (s.writeC d v n).clusters = s.clusters := rfl
@[simp] theorem State.writeC_dies (s : State) (d : BitVec 4) (v : Cap) (n : Nat) : (s.writeC d v n).dies = s.dies := rfl
@[simp] theorem State.writeC_contexts (s : State) (d : BitVec 4) (v : Cap) (n : Nat) : (s.writeC d v n).contexts = s.contexts := rfl
@[simp] theorem State.writeC_vfs (s : State) (d : BitVec 4) (v : Cap) (n : Nat) : (s.writeC d v n).vfs = s.vfs := rfl
@[simp] theorem State.writeC_hbars (s : State) (d : BitVec 4) (v : Cap) (n : Nat) : (s.writeC d v n).hbars = s.hbars := rfl
@[simp] theorem State.writeC_groups (s : State) (d : BitVec 4) (v : Cap) (n : Nat) : (s.writeC d v n).groups = s.groups := rfl
@[simp] theorem State.writeC_claims (s : State) (d : BitVec 4) (v : Cap) (n : Nat) : (s.writeC d v n).claims = s.claims := rfl
@[simp] theorem State.writeC_early (s : State) (d : BitVec 4) (v : Cap) (n : Nat) : (s.writeC d v n).early = s.early := rfl
@[simp] theorem State.writeC_refused (s : State) (d : BitVec 4) (v : Cap) (n : Nat) : (s.writeC d v n).refused = s.refused := rfl
@[simp] theorem State.writeC_halyardLost (s : State) (d : BitVec 4) (v : Cap) (n : Nat) : (s.writeC d v n).halyardLost = s.halyardLost := rfl
@[simp] theorem State.writeC_declared (s : State) (d : BitVec 4) (v : Cap) (n : Nat) : (s.writeC d v n).declared = s.declared := rfl
@[simp] theorem State.writeC_unreachable (s : State) (d : BitVec 4) (v : Cap) (n : Nat) : (s.writeC d v n).unreachable = s.unreachable := rfl
@[simp] theorem State.writeC_barWaits (s : State) (d : BitVec 4) (v : Cap) (n : Nat) : (s.writeC d v n).barWaits = s.barWaits := rfl
@[simp] theorem State.writeC_discarded (s : State) (d : BitVec 4) (v : Cap) (n : Nat) : (s.writeC d v n).discarded = s.discarded := rfl
@[simp] theorem State.writeC_eventMsgs (s : State) (d : BitVec 4) (v : Cap) (n : Nat) : (s.writeC d v n).eventMsgs = s.eventMsgs := rfl
@[simp] theorem State.writeC_agroups (s : State) (d : BitVec 4) (v : Cap) (n : Nat) : (s.writeC d v n).agroups = s.agroups := rfl
@[simp] theorem State.writeC_colls (s : State) (d : BitVec 4) (v : Cap) (n : Nat) : (s.writeC d v n).colls = s.colls := rfl
@[simp] theorem State.writeC_links (s : State) (d : BitVec 4) (v : Cap) (n : Nat) : (s.writeC d v n).links = s.links := rfl
@[simp] theorem State.writeC_txbuf (s : State) (d : BitVec 4) (v : Cap) (n : Nat) : (s.writeC d v n).txbuf = s.txbuf := rfl
@[simp] theorem State.writeC_peers (s : State) (d : BitVec 4) (v : Cap) (n : Nat) : (s.writeC d v n).peers = s.peers := rfl
@[simp] theorem State.writeC_pod (s : State) (d : BitVec 4) (v : Cap) (n : Nat) : (s.writeC d v n).pod = s.pod := rfl
@[simp] theorem State.writeC_pageReqs (s : State) (d : BitVec 4) (v : Cap) (n : Nat) : (s.writeC d v n).pageReqs = s.pageReqs := rfl
@[simp] theorem State.writeC_routes (s : State) (d : BitVec 4) (v : Cap) (n : Nat) : (s.writeC d v n).routes = s.routes := rfl
@[simp] theorem State.writeC_moves (s : State) (d : BitVec 4) (v : Cap) (n : Nat) : (s.writeC d v n).moves = s.moves := rfl
@[simp] theorem State.writeC_met (s : State) (d : BitVec 4) (v : Cap) (n : Nat) : (s.writeC d v n).met = s.met := rfl
@[simp] theorem State.writeC_tainted (s : State) (d : BitVec 4) (v : Cap) (n : Nat) : (s.writeC d v n).tainted = s.tainted := rfl
@[simp] theorem State.writeC_framed (s : State) (d : BitVec 4) (v : Cap) (n : Nat) : (s.writeC d v n).framed = s.framed := rfl
@[simp] theorem State.writeC_pageDone (s : State) (d : BitVec 4) (v : Cap) (n : Nat) : (s.writeC d v n).pageDone = s.pageDone := rfl
@[simp] theorem State.writeC_pageLate (s : State) (d : BitVec 4) (v : Cap) (n : Nat) : (s.writeC d v n).pageLate = s.pageLate := rfl
@[simp] theorem State.writeC_mbcmd (s : State) (d : BitVec 4) (v : Cap) (n : Nat) : (s.writeC d v n).mbcmd = s.mbcmd := rfl
@[simp] theorem State.writeC_command (s : State) (d : BitVec 4) (v : Cap) (n : Nat) : (s.writeC d v n).command = s.command := rfl
@[simp] theorem State.writeC_busy (s : State) (d : BitVec 4) (v : Cap) (n : Nat) : (s.writeC d v n).busy = s.busy := rfl
@[simp] theorem State.writeC_usedImages (s : State) (d : BitVec 4) (v : Cap) (n : Nat) : (s.writeC d v n).usedImages = s.usedImages := rfl
@[simp] theorem State.writeC_linkIde (s : State) (d : BitVec 4) (v : Cap) (n : Nat) : (s.writeC d v n).linkIde = s.linkIde := rfl
@[simp] theorem State.writeC_secured (s : State) (d : BitVec 4) (v : Cap) (n : Nat) : (s.writeC d v n).secured = s.secured := rfl
@[simp] theorem State.writeC_bootKeys (s : State) (d : BitVec 4) (v : Cap) (n : Nat) : (s.writeC d v n).bootKeys = s.bootKeys := rfl
@[simp] theorem State.writeC_response (s : State) (d : BitVec 4) (v : Cap) (n : Nat) : (s.writeC d v n).response = s.response := rfl
@[simp] theorem State.writeC_slotA (s : State) (d : BitVec 4) (v : Cap) (n : Nat) : (s.writeC d v n).slotA = s.slotA := rfl
@[simp] theorem State.writeC_slotB (s : State) (d : BitVec 4) (v : Cap) (n : Nat) : (s.writeC d v n).slotB = s.slotB := rfl
@[simp] theorem State.writeC_slotSelect (s : State) (d : BitVec 4) (v : Cap) (n : Nat) : (s.writeC d v n).slotSelect = s.slotSelect := rfl
@[simp] theorem State.writeC_booted (s : State) (d : BitVec 4) (v : Cap) (n : Nat) : (s.writeC d v n).booted = s.booted := rfl
@[simp] theorem State.writeC_secCounter (s : State) (d : BitVec 4) (v : Cap) (n : Nat) : (s.writeC d v n).secCounter = s.secCounter := rfl
@[simp] theorem State.writeC_spareRoot (s : State) (d : BitVec 4) (v : Cap) (n : Nat) : (s.writeC d v n).spareRoot = s.spareRoot := rfl
@[simp] theorem State.writeC_retiredGens (s : State) (d : BitVec 4) (v : Cap) (n : Nat) : (s.writeC d v n).retiredGens = s.retiredGens := rfl
@[simp] theorem State.writeC_retireAsked (s : State) (d : BitVec 4) (v : Cap) (n : Nat) : (s.writeC d v n).retireAsked = s.retireAsked := rfl
@[simp] theorem State.writeC_retire (s : State) (d : BitVec 4) (v : Cap) (n : Nat) : (s.writeC d v n).retire = s.retire := rfl

/-! ### A vector register written -/

@[simp] theorem State.writeV_core (s : State) (d : BitVec 5) (v : VReg) (n : Nat) : (s.writeV d v n).core = s.core := rfl
@[simp] theorem State.writeV_frame (s : State) (d : BitVec 5) (v : VReg) (n : Nat) : (s.writeV d v n).frame = s.frame := rfl
@[simp] theorem State.writeV_agenda (s : State) (d : BitVec 5) (v : VReg) (n : Nat) : (s.writeV d v n).agenda = s.agenda := rfl
@[simp] theorem State.writeV_inflight (s : State) (d : BitVec 5) (v : VReg) (n : Nat) : (s.writeV d v n).inflight = s.inflight := rfl
@[simp] theorem State.writeV_arrived (s : State) (d : BitVec 5) (v : VReg) (n : Nat) : (s.writeV d v n).arrived = s.arrived := rfl
@[simp] theorem State.writeV_busWaits (s : State) (d : BitVec 5) (v : VReg) (n : Nat) : (s.writeV d v n).busWaits = s.busWaits := rfl
@[simp] theorem State.writeV_outbox (s : State) (d : BitVec 5) (v : VReg) (n : Nat) : (s.writeV d v n).outbox = s.outbox := rfl
@[simp] theorem State.writeV_engineTurn (s : State) (d : BitVec 5) (v : VReg) (n : Nat) : (s.writeV d v n).engineTurn = s.engineTurn := rfl
@[simp] theorem State.writeV_rotor (s : State) (d : BitVec 5) (v : VReg) (n : Nat) : (s.writeV d v n).rotor = s.rotor := rfl
@[simp] theorem State.writeV_steps (s : State) (d : BitVec 5) (v : VReg) (n : Nat) : (s.writeV d v n).steps = s.steps := rfl
@[simp] theorem State.writeV_fresh (s : State) (d : BitVec 5) (v : VReg) (n : Nat) : (s.writeV d v n).fresh = s.fresh := rfl
@[simp] theorem State.writeV_nextId (s : State) (d : BitVec 5) (v : VReg) (n : Nat) : (s.writeV d v n).nextId = s.nextId := rfl
@[simp] theorem State.writeV_kernelCode (s : State) (d : BitVec 5) (v : VReg) (n : Nat) : (s.writeV d v n).kernelCode = s.kernelCode := rfl
@[simp] theorem State.writeV_kernelVector (s : State) (d : BitVec 5) (v : VReg) (n : Nat) : (s.writeV d v n).kernelVector = s.kernelVector := rfl
@[simp] theorem State.writeV_pageOwner (s : State) (d : BitVec 5) (v : VReg) (n : Nat) : (s.writeV d v n).pageOwner = s.pageOwner := rfl
@[simp] theorem State.writeV_pos (s : State) (d : BitVec 5) (v : VReg) (n : Nat) : (s.writeV d v n).pos = s.pos := rfl
@[simp] theorem State.writeV_ftime (s : State) (d : BitVec 5) (v : VReg) (n : Nat) : (s.writeV d v n).ftime = s.ftime := rfl
@[simp] theorem State.writeV_ftimeErr (s : State) (d : BitVec 5) (v : VReg) (n : Nat) : (s.writeV d v n).ftimeErr = s.ftimeErr := rfl
@[simp] theorem State.writeV_cycles (s : State) (d : BitVec 5) (v : VReg) (n : Nat) : (s.writeV d v n).cycles = s.cycles := rfl
@[simp] theorem State.writeV_power (s : State) (d : BitVec 5) (v : VReg) (n : Nat) : (s.writeV d v n).power = s.power := rfl
@[simp] theorem State.writeV_mem (s : State) (d : BitVec 5) (v : VReg) (n : Nat) : (s.writeV d v n).mem = s.mem := rfl
@[simp] theorem State.writeV_tags (s : State) (d : BitVec 5) (v : VReg) (n : Nat) : (s.writeV d v n).tags = s.tags := rfl
@[simp] theorem State.writeV_keys (s : State) (d : BitVec 5) (v : VReg) (n : Nat) : (s.writeV d v n).keys = s.keys := rfl
@[simp] theorem State.writeV_bad (s : State) (d : BitVec 5) (v : VReg) (n : Nat) : (s.writeV d v n).bad = s.bad := rfl
@[simp] theorem State.writeV_badCode (s : State) (d : BitVec 5) (v : VReg) (n : Nat) : (s.writeV d v n).badCode = s.badCode := rfl
@[simp] theorem State.writeV_retired (s : State) (d : BitVec 5) (v : VReg) (n : Nat) : (s.writeV d v n).retired = s.retired := rfl
@[simp] theorem State.writeV_scrubAt (s : State) (d : BitVec 5) (v : VReg) (n : Nat) : (s.writeV d v n).scrubAt = s.scrubAt := rfl
@[simp] theorem State.writeV_corrected (s : State) (d : BitVec 5) (v : VReg) (n : Nat) : (s.writeV d v n).corrected = s.corrected := rfl
@[simp] theorem State.writeV_oscillators (s : State) (d : BitVec 5) (v : VReg) (n : Nat) : (s.writeV d v n).oscillators = s.oscillators := rfl
@[simp] theorem State.writeV_clusters (s : State) (d : BitVec 5) (v : VReg) (n : Nat) : (s.writeV d v n).clusters = s.clusters := rfl
@[simp] theorem State.writeV_dies (s : State) (d : BitVec 5) (v : VReg) (n : Nat) : (s.writeV d v n).dies = s.dies := rfl
@[simp] theorem State.writeV_contexts (s : State) (d : BitVec 5) (v : VReg) (n : Nat) : (s.writeV d v n).contexts = s.contexts := rfl
@[simp] theorem State.writeV_vfs (s : State) (d : BitVec 5) (v : VReg) (n : Nat) : (s.writeV d v n).vfs = s.vfs := rfl
@[simp] theorem State.writeV_hbars (s : State) (d : BitVec 5) (v : VReg) (n : Nat) : (s.writeV d v n).hbars = s.hbars := rfl
@[simp] theorem State.writeV_groups (s : State) (d : BitVec 5) (v : VReg) (n : Nat) : (s.writeV d v n).groups = s.groups := rfl
@[simp] theorem State.writeV_claims (s : State) (d : BitVec 5) (v : VReg) (n : Nat) : (s.writeV d v n).claims = s.claims := rfl
@[simp] theorem State.writeV_early (s : State) (d : BitVec 5) (v : VReg) (n : Nat) : (s.writeV d v n).early = s.early := rfl
@[simp] theorem State.writeV_refused (s : State) (d : BitVec 5) (v : VReg) (n : Nat) : (s.writeV d v n).refused = s.refused := rfl
@[simp] theorem State.writeV_halyardLost (s : State) (d : BitVec 5) (v : VReg) (n : Nat) : (s.writeV d v n).halyardLost = s.halyardLost := rfl
@[simp] theorem State.writeV_declared (s : State) (d : BitVec 5) (v : VReg) (n : Nat) : (s.writeV d v n).declared = s.declared := rfl
@[simp] theorem State.writeV_unreachable (s : State) (d : BitVec 5) (v : VReg) (n : Nat) : (s.writeV d v n).unreachable = s.unreachable := rfl
@[simp] theorem State.writeV_barWaits (s : State) (d : BitVec 5) (v : VReg) (n : Nat) : (s.writeV d v n).barWaits = s.barWaits := rfl
@[simp] theorem State.writeV_discarded (s : State) (d : BitVec 5) (v : VReg) (n : Nat) : (s.writeV d v n).discarded = s.discarded := rfl
@[simp] theorem State.writeV_eventMsgs (s : State) (d : BitVec 5) (v : VReg) (n : Nat) : (s.writeV d v n).eventMsgs = s.eventMsgs := rfl
@[simp] theorem State.writeV_agroups (s : State) (d : BitVec 5) (v : VReg) (n : Nat) : (s.writeV d v n).agroups = s.agroups := rfl
@[simp] theorem State.writeV_colls (s : State) (d : BitVec 5) (v : VReg) (n : Nat) : (s.writeV d v n).colls = s.colls := rfl
@[simp] theorem State.writeV_links (s : State) (d : BitVec 5) (v : VReg) (n : Nat) : (s.writeV d v n).links = s.links := rfl
@[simp] theorem State.writeV_txbuf (s : State) (d : BitVec 5) (v : VReg) (n : Nat) : (s.writeV d v n).txbuf = s.txbuf := rfl
@[simp] theorem State.writeV_peers (s : State) (d : BitVec 5) (v : VReg) (n : Nat) : (s.writeV d v n).peers = s.peers := rfl
@[simp] theorem State.writeV_pod (s : State) (d : BitVec 5) (v : VReg) (n : Nat) : (s.writeV d v n).pod = s.pod := rfl
@[simp] theorem State.writeV_pageReqs (s : State) (d : BitVec 5) (v : VReg) (n : Nat) : (s.writeV d v n).pageReqs = s.pageReqs := rfl
@[simp] theorem State.writeV_routes (s : State) (d : BitVec 5) (v : VReg) (n : Nat) : (s.writeV d v n).routes = s.routes := rfl
@[simp] theorem State.writeV_moves (s : State) (d : BitVec 5) (v : VReg) (n : Nat) : (s.writeV d v n).moves = s.moves := rfl
@[simp] theorem State.writeV_met (s : State) (d : BitVec 5) (v : VReg) (n : Nat) : (s.writeV d v n).met = s.met := rfl
@[simp] theorem State.writeV_tainted (s : State) (d : BitVec 5) (v : VReg) (n : Nat) : (s.writeV d v n).tainted = s.tainted := rfl
@[simp] theorem State.writeV_framed (s : State) (d : BitVec 5) (v : VReg) (n : Nat) : (s.writeV d v n).framed = s.framed := rfl
@[simp] theorem State.writeV_pageDone (s : State) (d : BitVec 5) (v : VReg) (n : Nat) : (s.writeV d v n).pageDone = s.pageDone := rfl
@[simp] theorem State.writeV_pageLate (s : State) (d : BitVec 5) (v : VReg) (n : Nat) : (s.writeV d v n).pageLate = s.pageLate := rfl
@[simp] theorem State.writeV_mbcmd (s : State) (d : BitVec 5) (v : VReg) (n : Nat) : (s.writeV d v n).mbcmd = s.mbcmd := rfl
@[simp] theorem State.writeV_command (s : State) (d : BitVec 5) (v : VReg) (n : Nat) : (s.writeV d v n).command = s.command := rfl
@[simp] theorem State.writeV_busy (s : State) (d : BitVec 5) (v : VReg) (n : Nat) : (s.writeV d v n).busy = s.busy := rfl
@[simp] theorem State.writeV_usedImages (s : State) (d : BitVec 5) (v : VReg) (n : Nat) : (s.writeV d v n).usedImages = s.usedImages := rfl
@[simp] theorem State.writeV_linkIde (s : State) (d : BitVec 5) (v : VReg) (n : Nat) : (s.writeV d v n).linkIde = s.linkIde := rfl
@[simp] theorem State.writeV_secured (s : State) (d : BitVec 5) (v : VReg) (n : Nat) : (s.writeV d v n).secured = s.secured := rfl
@[simp] theorem State.writeV_bootKeys (s : State) (d : BitVec 5) (v : VReg) (n : Nat) : (s.writeV d v n).bootKeys = s.bootKeys := rfl
@[simp] theorem State.writeV_response (s : State) (d : BitVec 5) (v : VReg) (n : Nat) : (s.writeV d v n).response = s.response := rfl
@[simp] theorem State.writeV_slotA (s : State) (d : BitVec 5) (v : VReg) (n : Nat) : (s.writeV d v n).slotA = s.slotA := rfl
@[simp] theorem State.writeV_slotB (s : State) (d : BitVec 5) (v : VReg) (n : Nat) : (s.writeV d v n).slotB = s.slotB := rfl
@[simp] theorem State.writeV_slotSelect (s : State) (d : BitVec 5) (v : VReg) (n : Nat) : (s.writeV d v n).slotSelect = s.slotSelect := rfl
@[simp] theorem State.writeV_booted (s : State) (d : BitVec 5) (v : VReg) (n : Nat) : (s.writeV d v n).booted = s.booted := rfl
@[simp] theorem State.writeV_secCounter (s : State) (d : BitVec 5) (v : VReg) (n : Nat) : (s.writeV d v n).secCounter = s.secCounter := rfl
@[simp] theorem State.writeV_spareRoot (s : State) (d : BitVec 5) (v : VReg) (n : Nat) : (s.writeV d v n).spareRoot = s.spareRoot := rfl
@[simp] theorem State.writeV_retiredGens (s : State) (d : BitVec 5) (v : VReg) (n : Nat) : (s.writeV d v n).retiredGens = s.retiredGens := rfl
@[simp] theorem State.writeV_retireAsked (s : State) (d : BitVec 5) (v : VReg) (n : Nat) : (s.writeV d v n).retireAsked = s.retireAsked := rfl
@[simp] theorem State.writeV_retire (s : State) (d : BitVec 5) (v : VReg) (n : Nat) : (s.writeV d v n).retire = s.retire := rfl

/-! ### Nothing but the pc -/

@[simp] theorem State.skip_core (s : State) (n : Nat) : (s.skip n).core = s.core := rfl
@[simp] theorem State.skip_frame (s : State) (n : Nat) : (s.skip n).frame = s.frame := rfl
@[simp] theorem State.skip_agenda (s : State) (n : Nat) : (s.skip n).agenda = s.agenda := rfl
@[simp] theorem State.skip_inflight (s : State) (n : Nat) : (s.skip n).inflight = s.inflight := rfl
@[simp] theorem State.skip_arrived (s : State) (n : Nat) : (s.skip n).arrived = s.arrived := rfl
@[simp] theorem State.skip_busWaits (s : State) (n : Nat) : (s.skip n).busWaits = s.busWaits := rfl
@[simp] theorem State.skip_outbox (s : State) (n : Nat) : (s.skip n).outbox = s.outbox := rfl
@[simp] theorem State.skip_engineTurn (s : State) (n : Nat) : (s.skip n).engineTurn = s.engineTurn := rfl
@[simp] theorem State.skip_rotor (s : State) (n : Nat) : (s.skip n).rotor = s.rotor := rfl
@[simp] theorem State.skip_steps (s : State) (n : Nat) : (s.skip n).steps = s.steps := rfl
@[simp] theorem State.skip_fresh (s : State) (n : Nat) : (s.skip n).fresh = s.fresh := rfl
@[simp] theorem State.skip_nextId (s : State) (n : Nat) : (s.skip n).nextId = s.nextId := rfl
@[simp] theorem State.skip_kernelCode (s : State) (n : Nat) : (s.skip n).kernelCode = s.kernelCode := rfl
@[simp] theorem State.skip_kernelVector (s : State) (n : Nat) : (s.skip n).kernelVector = s.kernelVector := rfl
@[simp] theorem State.skip_pageOwner (s : State) (n : Nat) : (s.skip n).pageOwner = s.pageOwner := rfl
@[simp] theorem State.skip_pos (s : State) (n : Nat) : (s.skip n).pos = s.pos := rfl
@[simp] theorem State.skip_ftime (s : State) (n : Nat) : (s.skip n).ftime = s.ftime := rfl
@[simp] theorem State.skip_ftimeErr (s : State) (n : Nat) : (s.skip n).ftimeErr = s.ftimeErr := rfl
@[simp] theorem State.skip_cycles (s : State) (n : Nat) : (s.skip n).cycles = s.cycles := rfl
@[simp] theorem State.skip_power (s : State) (n : Nat) : (s.skip n).power = s.power := rfl
@[simp] theorem State.skip_mem (s : State) (n : Nat) : (s.skip n).mem = s.mem := rfl
@[simp] theorem State.skip_tags (s : State) (n : Nat) : (s.skip n).tags = s.tags := rfl
@[simp] theorem State.skip_keys (s : State) (n : Nat) : (s.skip n).keys = s.keys := rfl
@[simp] theorem State.skip_bad (s : State) (n : Nat) : (s.skip n).bad = s.bad := rfl
@[simp] theorem State.skip_badCode (s : State) (n : Nat) : (s.skip n).badCode = s.badCode := rfl
@[simp] theorem State.skip_retired (s : State) (n : Nat) : (s.skip n).retired = s.retired := rfl
@[simp] theorem State.skip_scrubAt (s : State) (n : Nat) : (s.skip n).scrubAt = s.scrubAt := rfl
@[simp] theorem State.skip_corrected (s : State) (n : Nat) : (s.skip n).corrected = s.corrected := rfl
@[simp] theorem State.skip_oscillators (s : State) (n : Nat) : (s.skip n).oscillators = s.oscillators := rfl
@[simp] theorem State.skip_clusters (s : State) (n : Nat) : (s.skip n).clusters = s.clusters := rfl
@[simp] theorem State.skip_dies (s : State) (n : Nat) : (s.skip n).dies = s.dies := rfl
@[simp] theorem State.skip_contexts (s : State) (n : Nat) : (s.skip n).contexts = s.contexts := rfl
@[simp] theorem State.skip_vfs (s : State) (n : Nat) : (s.skip n).vfs = s.vfs := rfl
@[simp] theorem State.skip_hbars (s : State) (n : Nat) : (s.skip n).hbars = s.hbars := rfl
@[simp] theorem State.skip_groups (s : State) (n : Nat) : (s.skip n).groups = s.groups := rfl
@[simp] theorem State.skip_claims (s : State) (n : Nat) : (s.skip n).claims = s.claims := rfl
@[simp] theorem State.skip_early (s : State) (n : Nat) : (s.skip n).early = s.early := rfl
@[simp] theorem State.skip_refused (s : State) (n : Nat) : (s.skip n).refused = s.refused := rfl
@[simp] theorem State.skip_halyardLost (s : State) (n : Nat) : (s.skip n).halyardLost = s.halyardLost := rfl
@[simp] theorem State.skip_declared (s : State) (n : Nat) : (s.skip n).declared = s.declared := rfl
@[simp] theorem State.skip_unreachable (s : State) (n : Nat) : (s.skip n).unreachable = s.unreachable := rfl
@[simp] theorem State.skip_barWaits (s : State) (n : Nat) : (s.skip n).barWaits = s.barWaits := rfl
@[simp] theorem State.skip_discarded (s : State) (n : Nat) : (s.skip n).discarded = s.discarded := rfl
@[simp] theorem State.skip_eventMsgs (s : State) (n : Nat) : (s.skip n).eventMsgs = s.eventMsgs := rfl
@[simp] theorem State.skip_agroups (s : State) (n : Nat) : (s.skip n).agroups = s.agroups := rfl
@[simp] theorem State.skip_colls (s : State) (n : Nat) : (s.skip n).colls = s.colls := rfl
@[simp] theorem State.skip_links (s : State) (n : Nat) : (s.skip n).links = s.links := rfl
@[simp] theorem State.skip_txbuf (s : State) (n : Nat) : (s.skip n).txbuf = s.txbuf := rfl
@[simp] theorem State.skip_peers (s : State) (n : Nat) : (s.skip n).peers = s.peers := rfl
@[simp] theorem State.skip_pod (s : State) (n : Nat) : (s.skip n).pod = s.pod := rfl
@[simp] theorem State.skip_pageReqs (s : State) (n : Nat) : (s.skip n).pageReqs = s.pageReqs := rfl
@[simp] theorem State.skip_routes (s : State) (n : Nat) : (s.skip n).routes = s.routes := rfl
@[simp] theorem State.skip_moves (s : State) (n : Nat) : (s.skip n).moves = s.moves := rfl
@[simp] theorem State.skip_met (s : State) (n : Nat) : (s.skip n).met = s.met := rfl
@[simp] theorem State.skip_tainted (s : State) (n : Nat) : (s.skip n).tainted = s.tainted := rfl
@[simp] theorem State.skip_framed (s : State) (n : Nat) : (s.skip n).framed = s.framed := rfl
@[simp] theorem State.skip_pageDone (s : State) (n : Nat) : (s.skip n).pageDone = s.pageDone := rfl
@[simp] theorem State.skip_pageLate (s : State) (n : Nat) : (s.skip n).pageLate = s.pageLate := rfl
@[simp] theorem State.skip_mbcmd (s : State) (n : Nat) : (s.skip n).mbcmd = s.mbcmd := rfl
@[simp] theorem State.skip_command (s : State) (n : Nat) : (s.skip n).command = s.command := rfl
@[simp] theorem State.skip_busy (s : State) (n : Nat) : (s.skip n).busy = s.busy := rfl
@[simp] theorem State.skip_usedImages (s : State) (n : Nat) : (s.skip n).usedImages = s.usedImages := rfl
@[simp] theorem State.skip_linkIde (s : State) (n : Nat) : (s.skip n).linkIde = s.linkIde := rfl
@[simp] theorem State.skip_secured (s : State) (n : Nat) : (s.skip n).secured = s.secured := rfl
@[simp] theorem State.skip_bootKeys (s : State) (n : Nat) : (s.skip n).bootKeys = s.bootKeys := rfl
@[simp] theorem State.skip_response (s : State) (n : Nat) : (s.skip n).response = s.response := rfl
@[simp] theorem State.skip_slotA (s : State) (n : Nat) : (s.skip n).slotA = s.slotA := rfl
@[simp] theorem State.skip_slotB (s : State) (n : Nat) : (s.skip n).slotB = s.slotB := rfl
@[simp] theorem State.skip_slotSelect (s : State) (n : Nat) : (s.skip n).slotSelect = s.slotSelect := rfl
@[simp] theorem State.skip_booted (s : State) (n : Nat) : (s.skip n).booted = s.booted := rfl
@[simp] theorem State.skip_secCounter (s : State) (n : Nat) : (s.skip n).secCounter = s.secCounter := rfl
@[simp] theorem State.skip_spareRoot (s : State) (n : Nat) : (s.skip n).spareRoot = s.spareRoot := rfl
@[simp] theorem State.skip_retiredGens (s : State) (n : Nat) : (s.skip n).retiredGens = s.retiredGens := rfl
@[simp] theorem State.skip_retireAsked (s : State) (n : Nat) : (s.skip n).retireAsked = s.retireAsked := rfl
@[simp] theorem State.skip_retire (s : State) (n : Nat) : (s.skip n).retire = s.retire := rfl

/-! ### A jump -/

@[simp] theorem State.jump_core (s : State) (pc : BitVec 32) : (s.jump pc).core = s.core := rfl
@[simp] theorem State.jump_frame (s : State) (pc : BitVec 32) : (s.jump pc).frame = s.frame := rfl
@[simp] theorem State.jump_agenda (s : State) (pc : BitVec 32) : (s.jump pc).agenda = s.agenda := rfl
@[simp] theorem State.jump_inflight (s : State) (pc : BitVec 32) : (s.jump pc).inflight = s.inflight := rfl
@[simp] theorem State.jump_arrived (s : State) (pc : BitVec 32) : (s.jump pc).arrived = s.arrived := rfl
@[simp] theorem State.jump_busWaits (s : State) (pc : BitVec 32) : (s.jump pc).busWaits = s.busWaits := rfl
@[simp] theorem State.jump_outbox (s : State) (pc : BitVec 32) : (s.jump pc).outbox = s.outbox := rfl
@[simp] theorem State.jump_engineTurn (s : State) (pc : BitVec 32) : (s.jump pc).engineTurn = s.engineTurn := rfl
@[simp] theorem State.jump_rotor (s : State) (pc : BitVec 32) : (s.jump pc).rotor = s.rotor := rfl
@[simp] theorem State.jump_steps (s : State) (pc : BitVec 32) : (s.jump pc).steps = s.steps := rfl
@[simp] theorem State.jump_fresh (s : State) (pc : BitVec 32) : (s.jump pc).fresh = s.fresh := rfl
@[simp] theorem State.jump_nextId (s : State) (pc : BitVec 32) : (s.jump pc).nextId = s.nextId := rfl
@[simp] theorem State.jump_kernelCode (s : State) (pc : BitVec 32) : (s.jump pc).kernelCode = s.kernelCode := rfl
@[simp] theorem State.jump_kernelVector (s : State) (pc : BitVec 32) : (s.jump pc).kernelVector = s.kernelVector := rfl
@[simp] theorem State.jump_pageOwner (s : State) (pc : BitVec 32) : (s.jump pc).pageOwner = s.pageOwner := rfl
@[simp] theorem State.jump_pos (s : State) (pc : BitVec 32) : (s.jump pc).pos = s.pos := rfl
@[simp] theorem State.jump_ftime (s : State) (pc : BitVec 32) : (s.jump pc).ftime = s.ftime := rfl
@[simp] theorem State.jump_ftimeErr (s : State) (pc : BitVec 32) : (s.jump pc).ftimeErr = s.ftimeErr := rfl
@[simp] theorem State.jump_cycles (s : State) (pc : BitVec 32) : (s.jump pc).cycles = s.cycles := rfl
@[simp] theorem State.jump_power (s : State) (pc : BitVec 32) : (s.jump pc).power = s.power := rfl
@[simp] theorem State.jump_mem (s : State) (pc : BitVec 32) : (s.jump pc).mem = s.mem := rfl
@[simp] theorem State.jump_tags (s : State) (pc : BitVec 32) : (s.jump pc).tags = s.tags := rfl
@[simp] theorem State.jump_keys (s : State) (pc : BitVec 32) : (s.jump pc).keys = s.keys := rfl
@[simp] theorem State.jump_bad (s : State) (pc : BitVec 32) : (s.jump pc).bad = s.bad := rfl
@[simp] theorem State.jump_badCode (s : State) (pc : BitVec 32) : (s.jump pc).badCode = s.badCode := rfl
@[simp] theorem State.jump_retired (s : State) (pc : BitVec 32) : (s.jump pc).retired = s.retired := rfl
@[simp] theorem State.jump_scrubAt (s : State) (pc : BitVec 32) : (s.jump pc).scrubAt = s.scrubAt := rfl
@[simp] theorem State.jump_corrected (s : State) (pc : BitVec 32) : (s.jump pc).corrected = s.corrected := rfl
@[simp] theorem State.jump_oscillators (s : State) (pc : BitVec 32) : (s.jump pc).oscillators = s.oscillators := rfl
@[simp] theorem State.jump_clusters (s : State) (pc : BitVec 32) : (s.jump pc).clusters = s.clusters := rfl
@[simp] theorem State.jump_dies (s : State) (pc : BitVec 32) : (s.jump pc).dies = s.dies := rfl
@[simp] theorem State.jump_contexts (s : State) (pc : BitVec 32) : (s.jump pc).contexts = s.contexts := rfl
@[simp] theorem State.jump_vfs (s : State) (pc : BitVec 32) : (s.jump pc).vfs = s.vfs := rfl
@[simp] theorem State.jump_hbars (s : State) (pc : BitVec 32) : (s.jump pc).hbars = s.hbars := rfl
@[simp] theorem State.jump_groups (s : State) (pc : BitVec 32) : (s.jump pc).groups = s.groups := rfl
@[simp] theorem State.jump_claims (s : State) (pc : BitVec 32) : (s.jump pc).claims = s.claims := rfl
@[simp] theorem State.jump_early (s : State) (pc : BitVec 32) : (s.jump pc).early = s.early := rfl
@[simp] theorem State.jump_refused (s : State) (pc : BitVec 32) : (s.jump pc).refused = s.refused := rfl
@[simp] theorem State.jump_halyardLost (s : State) (pc : BitVec 32) : (s.jump pc).halyardLost = s.halyardLost := rfl
@[simp] theorem State.jump_declared (s : State) (pc : BitVec 32) : (s.jump pc).declared = s.declared := rfl
@[simp] theorem State.jump_unreachable (s : State) (pc : BitVec 32) : (s.jump pc).unreachable = s.unreachable := rfl
@[simp] theorem State.jump_barWaits (s : State) (pc : BitVec 32) : (s.jump pc).barWaits = s.barWaits := rfl
@[simp] theorem State.jump_discarded (s : State) (pc : BitVec 32) : (s.jump pc).discarded = s.discarded := rfl
@[simp] theorem State.jump_eventMsgs (s : State) (pc : BitVec 32) : (s.jump pc).eventMsgs = s.eventMsgs := rfl
@[simp] theorem State.jump_agroups (s : State) (pc : BitVec 32) : (s.jump pc).agroups = s.agroups := rfl
@[simp] theorem State.jump_colls (s : State) (pc : BitVec 32) : (s.jump pc).colls = s.colls := rfl
@[simp] theorem State.jump_links (s : State) (pc : BitVec 32) : (s.jump pc).links = s.links := rfl
@[simp] theorem State.jump_txbuf (s : State) (pc : BitVec 32) : (s.jump pc).txbuf = s.txbuf := rfl
@[simp] theorem State.jump_peers (s : State) (pc : BitVec 32) : (s.jump pc).peers = s.peers := rfl
@[simp] theorem State.jump_pod (s : State) (pc : BitVec 32) : (s.jump pc).pod = s.pod := rfl
@[simp] theorem State.jump_pageReqs (s : State) (pc : BitVec 32) : (s.jump pc).pageReqs = s.pageReqs := rfl
@[simp] theorem State.jump_routes (s : State) (pc : BitVec 32) : (s.jump pc).routes = s.routes := rfl
@[simp] theorem State.jump_moves (s : State) (pc : BitVec 32) : (s.jump pc).moves = s.moves := rfl
@[simp] theorem State.jump_met (s : State) (pc : BitVec 32) : (s.jump pc).met = s.met := rfl
@[simp] theorem State.jump_tainted (s : State) (pc : BitVec 32) : (s.jump pc).tainted = s.tainted := rfl
@[simp] theorem State.jump_framed (s : State) (pc : BitVec 32) : (s.jump pc).framed = s.framed := rfl
@[simp] theorem State.jump_pageDone (s : State) (pc : BitVec 32) : (s.jump pc).pageDone = s.pageDone := rfl
@[simp] theorem State.jump_pageLate (s : State) (pc : BitVec 32) : (s.jump pc).pageLate = s.pageLate := rfl
@[simp] theorem State.jump_mbcmd (s : State) (pc : BitVec 32) : (s.jump pc).mbcmd = s.mbcmd := rfl
@[simp] theorem State.jump_command (s : State) (pc : BitVec 32) : (s.jump pc).command = s.command := rfl
@[simp] theorem State.jump_busy (s : State) (pc : BitVec 32) : (s.jump pc).busy = s.busy := rfl
@[simp] theorem State.jump_usedImages (s : State) (pc : BitVec 32) : (s.jump pc).usedImages = s.usedImages := rfl
@[simp] theorem State.jump_linkIde (s : State) (pc : BitVec 32) : (s.jump pc).linkIde = s.linkIde := rfl
@[simp] theorem State.jump_secured (s : State) (pc : BitVec 32) : (s.jump pc).secured = s.secured := rfl
@[simp] theorem State.jump_bootKeys (s : State) (pc : BitVec 32) : (s.jump pc).bootKeys = s.bootKeys := rfl
@[simp] theorem State.jump_response (s : State) (pc : BitVec 32) : (s.jump pc).response = s.response := rfl
@[simp] theorem State.jump_slotA (s : State) (pc : BitVec 32) : (s.jump pc).slotA = s.slotA := rfl
@[simp] theorem State.jump_slotB (s : State) (pc : BitVec 32) : (s.jump pc).slotB = s.slotB := rfl
@[simp] theorem State.jump_slotSelect (s : State) (pc : BitVec 32) : (s.jump pc).slotSelect = s.slotSelect := rfl
@[simp] theorem State.jump_booted (s : State) (pc : BitVec 32) : (s.jump pc).booted = s.booted := rfl
@[simp] theorem State.jump_secCounter (s : State) (pc : BitVec 32) : (s.jump pc).secCounter = s.secCounter := rfl
@[simp] theorem State.jump_spareRoot (s : State) (pc : BitVec 32) : (s.jump pc).spareRoot = s.spareRoot := rfl
@[simp] theorem State.jump_retiredGens (s : State) (pc : BitVec 32) : (s.jump pc).retiredGens = s.retiredGens := rfl
@[simp] theorem State.jump_retireAsked (s : State) (pc : BitVec 32) : (s.jump pc).retireAsked = s.retireAsked := rfl
@[simp] theorem State.jump_retire (s : State) (pc : BitVec 32) : (s.jump pc).retire = s.retire := rfl

/-! ### A cluster -/

@[simp] theorem State.setCluster_core (s : State) (n : Nat) (c : Cluster) : (s.setCluster n c).core = s.core := rfl
@[simp] theorem State.setCluster_frame (s : State) (n : Nat) (c : Cluster) : (s.setCluster n c).frame = s.frame := rfl
@[simp] theorem State.setCluster_agenda (s : State) (n : Nat) (c : Cluster) : (s.setCluster n c).agenda = s.agenda := rfl
@[simp] theorem State.setCluster_inflight (s : State) (n : Nat) (c : Cluster) : (s.setCluster n c).inflight = s.inflight := rfl
@[simp] theorem State.setCluster_arrived (s : State) (n : Nat) (c : Cluster) : (s.setCluster n c).arrived = s.arrived := rfl
@[simp] theorem State.setCluster_busWaits (s : State) (n : Nat) (c : Cluster) : (s.setCluster n c).busWaits = s.busWaits := rfl
@[simp] theorem State.setCluster_outbox (s : State) (n : Nat) (c : Cluster) : (s.setCluster n c).outbox = s.outbox := rfl
@[simp] theorem State.setCluster_engineTurn (s : State) (n : Nat) (c : Cluster) : (s.setCluster n c).engineTurn = s.engineTurn := rfl
@[simp] theorem State.setCluster_rotor (s : State) (n : Nat) (c : Cluster) : (s.setCluster n c).rotor = s.rotor := rfl
@[simp] theorem State.setCluster_steps (s : State) (n : Nat) (c : Cluster) : (s.setCluster n c).steps = s.steps := rfl
@[simp] theorem State.setCluster_fresh (s : State) (n : Nat) (c : Cluster) : (s.setCluster n c).fresh = s.fresh := rfl
@[simp] theorem State.setCluster_nextId (s : State) (n : Nat) (c : Cluster) : (s.setCluster n c).nextId = s.nextId := rfl
@[simp] theorem State.setCluster_kernelCode (s : State) (n : Nat) (c : Cluster) : (s.setCluster n c).kernelCode = s.kernelCode := rfl
@[simp] theorem State.setCluster_kernelVector (s : State) (n : Nat) (c : Cluster) : (s.setCluster n c).kernelVector = s.kernelVector := rfl
@[simp] theorem State.setCluster_pageOwner (s : State) (n : Nat) (c : Cluster) : (s.setCluster n c).pageOwner = s.pageOwner := rfl
@[simp] theorem State.setCluster_pos (s : State) (n : Nat) (c : Cluster) : (s.setCluster n c).pos = s.pos := rfl
@[simp] theorem State.setCluster_ftime (s : State) (n : Nat) (c : Cluster) : (s.setCluster n c).ftime = s.ftime := rfl
@[simp] theorem State.setCluster_ftimeErr (s : State) (n : Nat) (c : Cluster) : (s.setCluster n c).ftimeErr = s.ftimeErr := rfl
@[simp] theorem State.setCluster_cycles (s : State) (n : Nat) (c : Cluster) : (s.setCluster n c).cycles = s.cycles := rfl
@[simp] theorem State.setCluster_power (s : State) (n : Nat) (c : Cluster) : (s.setCluster n c).power = s.power := rfl
@[simp] theorem State.setCluster_mem (s : State) (n : Nat) (c : Cluster) : (s.setCluster n c).mem = s.mem := rfl
@[simp] theorem State.setCluster_tags (s : State) (n : Nat) (c : Cluster) : (s.setCluster n c).tags = s.tags := rfl
@[simp] theorem State.setCluster_keys (s : State) (n : Nat) (c : Cluster) : (s.setCluster n c).keys = s.keys := rfl
@[simp] theorem State.setCluster_bad (s : State) (n : Nat) (c : Cluster) : (s.setCluster n c).bad = s.bad := rfl
@[simp] theorem State.setCluster_badCode (s : State) (n : Nat) (c : Cluster) : (s.setCluster n c).badCode = s.badCode := rfl
@[simp] theorem State.setCluster_retired (s : State) (n : Nat) (c : Cluster) : (s.setCluster n c).retired = s.retired := rfl
@[simp] theorem State.setCluster_scrubAt (s : State) (n : Nat) (c : Cluster) : (s.setCluster n c).scrubAt = s.scrubAt := rfl
@[simp] theorem State.setCluster_corrected (s : State) (n : Nat) (c : Cluster) : (s.setCluster n c).corrected = s.corrected := rfl
@[simp] theorem State.setCluster_oscillators (s : State) (n : Nat) (c : Cluster) : (s.setCluster n c).oscillators = s.oscillators := rfl
@[simp] theorem State.setCluster_cores (s : State) (n : Nat) (c : Cluster) : (s.setCluster n c).cores = s.cores := rfl
@[simp] theorem State.setCluster_clusters (s : State) (n : Nat) (c : Cluster) : (s.setCluster n c).clusters = put s.clusters n c := rfl
@[simp] theorem State.setCluster_dies (s : State) (n : Nat) (c : Cluster) : (s.setCluster n c).dies = s.dies := rfl
@[simp] theorem State.setCluster_contexts (s : State) (n : Nat) (c : Cluster) : (s.setCluster n c).contexts = s.contexts := rfl
@[simp] theorem State.setCluster_vfs (s : State) (n : Nat) (c : Cluster) : (s.setCluster n c).vfs = s.vfs := rfl
@[simp] theorem State.setCluster_hbars (s : State) (n : Nat) (c : Cluster) : (s.setCluster n c).hbars = s.hbars := rfl
@[simp] theorem State.setCluster_groups (s : State) (n : Nat) (c : Cluster) : (s.setCluster n c).groups = s.groups := rfl
@[simp] theorem State.setCluster_claims (s : State) (n : Nat) (c : Cluster) : (s.setCluster n c).claims = s.claims := rfl
@[simp] theorem State.setCluster_early (s : State) (n : Nat) (c : Cluster) : (s.setCluster n c).early = s.early := rfl
@[simp] theorem State.setCluster_refused (s : State) (n : Nat) (c : Cluster) : (s.setCluster n c).refused = s.refused := rfl
@[simp] theorem State.setCluster_halyardLost (s : State) (n : Nat) (c : Cluster) : (s.setCluster n c).halyardLost = s.halyardLost := rfl
@[simp] theorem State.setCluster_declared (s : State) (n : Nat) (c : Cluster) : (s.setCluster n c).declared = s.declared := rfl
@[simp] theorem State.setCluster_unreachable (s : State) (n : Nat) (c : Cluster) : (s.setCluster n c).unreachable = s.unreachable := rfl
@[simp] theorem State.setCluster_barWaits (s : State) (n : Nat) (c : Cluster) : (s.setCluster n c).barWaits = s.barWaits := rfl
@[simp] theorem State.setCluster_discarded (s : State) (n : Nat) (c : Cluster) : (s.setCluster n c).discarded = s.discarded := rfl
@[simp] theorem State.setCluster_eventMsgs (s : State) (n : Nat) (c : Cluster) : (s.setCluster n c).eventMsgs = s.eventMsgs := rfl
@[simp] theorem State.setCluster_agroups (s : State) (n : Nat) (c : Cluster) : (s.setCluster n c).agroups = s.agroups := rfl
@[simp] theorem State.setCluster_colls (s : State) (n : Nat) (c : Cluster) : (s.setCluster n c).colls = s.colls := rfl
@[simp] theorem State.setCluster_links (s : State) (n : Nat) (c : Cluster) : (s.setCluster n c).links = s.links := rfl
@[simp] theorem State.setCluster_txbuf (s : State) (n : Nat) (c : Cluster) : (s.setCluster n c).txbuf = s.txbuf := rfl
@[simp] theorem State.setCluster_peers (s : State) (n : Nat) (c : Cluster) : (s.setCluster n c).peers = s.peers := rfl
@[simp] theorem State.setCluster_pod (s : State) (n : Nat) (c : Cluster) : (s.setCluster n c).pod = s.pod := rfl
@[simp] theorem State.setCluster_pageReqs (s : State) (n : Nat) (c : Cluster) : (s.setCluster n c).pageReqs = s.pageReqs := rfl
@[simp] theorem State.setCluster_routes (s : State) (n : Nat) (c : Cluster) : (s.setCluster n c).routes = s.routes := rfl
@[simp] theorem State.setCluster_moves (s : State) (n : Nat) (c : Cluster) : (s.setCluster n c).moves = s.moves := rfl
@[simp] theorem State.setCluster_met (s : State) (n : Nat) (c : Cluster) : (s.setCluster n c).met = s.met := rfl
@[simp] theorem State.setCluster_tainted (s : State) (n : Nat) (c : Cluster) : (s.setCluster n c).tainted = s.tainted := rfl
@[simp] theorem State.setCluster_framed (s : State) (n : Nat) (c : Cluster) : (s.setCluster n c).framed = s.framed := rfl
@[simp] theorem State.setCluster_pageDone (s : State) (n : Nat) (c : Cluster) : (s.setCluster n c).pageDone = s.pageDone := rfl
@[simp] theorem State.setCluster_pageLate (s : State) (n : Nat) (c : Cluster) : (s.setCluster n c).pageLate = s.pageLate := rfl
@[simp] theorem State.setCluster_mbcmd (s : State) (n : Nat) (c : Cluster) : (s.setCluster n c).mbcmd = s.mbcmd := rfl
@[simp] theorem State.setCluster_command (s : State) (n : Nat) (c : Cluster) : (s.setCluster n c).command = s.command := rfl
@[simp] theorem State.setCluster_busy (s : State) (n : Nat) (c : Cluster) : (s.setCluster n c).busy = s.busy := rfl
@[simp] theorem State.setCluster_usedImages (s : State) (n : Nat) (c : Cluster) : (s.setCluster n c).usedImages = s.usedImages := rfl
@[simp] theorem State.setCluster_linkIde (s : State) (n : Nat) (c : Cluster) : (s.setCluster n c).linkIde = s.linkIde := rfl
@[simp] theorem State.setCluster_secured (s : State) (n : Nat) (c : Cluster) : (s.setCluster n c).secured = s.secured := rfl
@[simp] theorem State.setCluster_bootKeys (s : State) (n : Nat) (c : Cluster) : (s.setCluster n c).bootKeys = s.bootKeys := rfl
@[simp] theorem State.setCluster_response (s : State) (n : Nat) (c : Cluster) : (s.setCluster n c).response = s.response := rfl
@[simp] theorem State.setCluster_slotA (s : State) (n : Nat) (c : Cluster) : (s.setCluster n c).slotA = s.slotA := rfl
@[simp] theorem State.setCluster_slotB (s : State) (n : Nat) (c : Cluster) : (s.setCluster n c).slotB = s.slotB := rfl
@[simp] theorem State.setCluster_slotSelect (s : State) (n : Nat) (c : Cluster) : (s.setCluster n c).slotSelect = s.slotSelect := rfl
@[simp] theorem State.setCluster_booted (s : State) (n : Nat) (c : Cluster) : (s.setCluster n c).booted = s.booted := rfl
@[simp] theorem State.setCluster_secCounter (s : State) (n : Nat) (c : Cluster) : (s.setCluster n c).secCounter = s.secCounter := rfl
@[simp] theorem State.setCluster_spareRoot (s : State) (n : Nat) (c : Cluster) : (s.setCluster n c).spareRoot = s.spareRoot := rfl
@[simp] theorem State.setCluster_retiredGens (s : State) (n : Nat) (c : Cluster) : (s.setCluster n c).retiredGens = s.retiredGens := rfl
@[simp] theorem State.setCluster_retireAsked (s : State) (n : Nat) (c : Cluster) : (s.setCluster n c).retireAsked = s.retireAsked := rfl
@[simp] theorem State.setCluster_retire (s : State) (n : Nat) (c : Cluster) : (s.setCluster n c).retire = s.retire := rfl

/-! ### A die -/

@[simp] theorem State.setDie_core (s : State) (n : Nat) (d : Die) : (s.setDie n d).core = s.core := rfl
@[simp] theorem State.setDie_frame (s : State) (n : Nat) (d : Die) : (s.setDie n d).frame = s.frame := rfl
@[simp] theorem State.setDie_agenda (s : State) (n : Nat) (d : Die) : (s.setDie n d).agenda = s.agenda := rfl
@[simp] theorem State.setDie_inflight (s : State) (n : Nat) (d : Die) : (s.setDie n d).inflight = s.inflight := rfl
@[simp] theorem State.setDie_arrived (s : State) (n : Nat) (d : Die) : (s.setDie n d).arrived = s.arrived := rfl
@[simp] theorem State.setDie_busWaits (s : State) (n : Nat) (d : Die) : (s.setDie n d).busWaits = s.busWaits := rfl
@[simp] theorem State.setDie_outbox (s : State) (n : Nat) (d : Die) : (s.setDie n d).outbox = s.outbox := rfl
@[simp] theorem State.setDie_engineTurn (s : State) (n : Nat) (d : Die) : (s.setDie n d).engineTurn = s.engineTurn := rfl
@[simp] theorem State.setDie_rotor (s : State) (n : Nat) (d : Die) : (s.setDie n d).rotor = s.rotor := rfl
@[simp] theorem State.setDie_steps (s : State) (n : Nat) (d : Die) : (s.setDie n d).steps = s.steps := rfl
@[simp] theorem State.setDie_fresh (s : State) (n : Nat) (d : Die) : (s.setDie n d).fresh = s.fresh := rfl
@[simp] theorem State.setDie_nextId (s : State) (n : Nat) (d : Die) : (s.setDie n d).nextId = s.nextId := rfl
@[simp] theorem State.setDie_kernelCode (s : State) (n : Nat) (d : Die) : (s.setDie n d).kernelCode = s.kernelCode := rfl
@[simp] theorem State.setDie_kernelVector (s : State) (n : Nat) (d : Die) : (s.setDie n d).kernelVector = s.kernelVector := rfl
@[simp] theorem State.setDie_pageOwner (s : State) (n : Nat) (d : Die) : (s.setDie n d).pageOwner = s.pageOwner := rfl
@[simp] theorem State.setDie_pos (s : State) (n : Nat) (d : Die) : (s.setDie n d).pos = s.pos := rfl
@[simp] theorem State.setDie_ftime (s : State) (n : Nat) (d : Die) : (s.setDie n d).ftime = s.ftime := rfl
@[simp] theorem State.setDie_ftimeErr (s : State) (n : Nat) (d : Die) : (s.setDie n d).ftimeErr = s.ftimeErr := rfl
@[simp] theorem State.setDie_cycles (s : State) (n : Nat) (d : Die) : (s.setDie n d).cycles = s.cycles := rfl
@[simp] theorem State.setDie_power (s : State) (n : Nat) (d : Die) : (s.setDie n d).power = s.power := rfl
@[simp] theorem State.setDie_mem (s : State) (n : Nat) (d : Die) : (s.setDie n d).mem = s.mem := rfl
@[simp] theorem State.setDie_tags (s : State) (n : Nat) (d : Die) : (s.setDie n d).tags = s.tags := rfl
@[simp] theorem State.setDie_keys (s : State) (n : Nat) (d : Die) : (s.setDie n d).keys = s.keys := rfl
@[simp] theorem State.setDie_bad (s : State) (n : Nat) (d : Die) : (s.setDie n d).bad = s.bad := rfl
@[simp] theorem State.setDie_badCode (s : State) (n : Nat) (d : Die) : (s.setDie n d).badCode = s.badCode := rfl
@[simp] theorem State.setDie_retired (s : State) (n : Nat) (d : Die) : (s.setDie n d).retired = s.retired := rfl
@[simp] theorem State.setDie_scrubAt (s : State) (n : Nat) (d : Die) : (s.setDie n d).scrubAt = s.scrubAt := rfl
@[simp] theorem State.setDie_corrected (s : State) (n : Nat) (d : Die) : (s.setDie n d).corrected = s.corrected := rfl
@[simp] theorem State.setDie_oscillators (s : State) (n : Nat) (d : Die) : (s.setDie n d).oscillators = s.oscillators := rfl
@[simp] theorem State.setDie_cores (s : State) (n : Nat) (d : Die) : (s.setDie n d).cores = s.cores := rfl
@[simp] theorem State.setDie_clusters (s : State) (n : Nat) (d : Die) : (s.setDie n d).clusters = s.clusters := rfl
@[simp] theorem State.setDie_dies (s : State) (n : Nat) (d : Die) : (s.setDie n d).dies = put s.dies n d := rfl
@[simp] theorem State.setDie_contexts (s : State) (n : Nat) (d : Die) : (s.setDie n d).contexts = s.contexts := rfl
@[simp] theorem State.setDie_vfs (s : State) (n : Nat) (d : Die) : (s.setDie n d).vfs = s.vfs := rfl
@[simp] theorem State.setDie_hbars (s : State) (n : Nat) (d : Die) : (s.setDie n d).hbars = s.hbars := rfl
@[simp] theorem State.setDie_groups (s : State) (n : Nat) (d : Die) : (s.setDie n d).groups = s.groups := rfl
@[simp] theorem State.setDie_claims (s : State) (n : Nat) (d : Die) : (s.setDie n d).claims = s.claims := rfl
@[simp] theorem State.setDie_early (s : State) (n : Nat) (d : Die) : (s.setDie n d).early = s.early := rfl
@[simp] theorem State.setDie_refused (s : State) (n : Nat) (d : Die) : (s.setDie n d).refused = s.refused := rfl
@[simp] theorem State.setDie_halyardLost (s : State) (n : Nat) (d : Die) : (s.setDie n d).halyardLost = s.halyardLost := rfl
@[simp] theorem State.setDie_declared (s : State) (n : Nat) (d : Die) : (s.setDie n d).declared = s.declared := rfl
@[simp] theorem State.setDie_unreachable (s : State) (n : Nat) (d : Die) : (s.setDie n d).unreachable = s.unreachable := rfl
@[simp] theorem State.setDie_barWaits (s : State) (n : Nat) (d : Die) : (s.setDie n d).barWaits = s.barWaits := rfl
@[simp] theorem State.setDie_discarded (s : State) (n : Nat) (d : Die) : (s.setDie n d).discarded = s.discarded := rfl
@[simp] theorem State.setDie_eventMsgs (s : State) (n : Nat) (d : Die) : (s.setDie n d).eventMsgs = s.eventMsgs := rfl
@[simp] theorem State.setDie_agroups (s : State) (n : Nat) (d : Die) : (s.setDie n d).agroups = s.agroups := rfl
@[simp] theorem State.setDie_colls (s : State) (n : Nat) (d : Die) : (s.setDie n d).colls = s.colls := rfl
@[simp] theorem State.setDie_links (s : State) (n : Nat) (d : Die) : (s.setDie n d).links = s.links := rfl
@[simp] theorem State.setDie_txbuf (s : State) (n : Nat) (d : Die) : (s.setDie n d).txbuf = s.txbuf := rfl
@[simp] theorem State.setDie_peers (s : State) (n : Nat) (d : Die) : (s.setDie n d).peers = s.peers := rfl
@[simp] theorem State.setDie_pod (s : State) (n : Nat) (d : Die) : (s.setDie n d).pod = s.pod := rfl
@[simp] theorem State.setDie_pageReqs (s : State) (n : Nat) (d : Die) : (s.setDie n d).pageReqs = s.pageReqs := rfl
@[simp] theorem State.setDie_routes (s : State) (n : Nat) (d : Die) : (s.setDie n d).routes = s.routes := rfl
@[simp] theorem State.setDie_moves (s : State) (n : Nat) (d : Die) : (s.setDie n d).moves = s.moves := rfl
@[simp] theorem State.setDie_met (s : State) (n : Nat) (d : Die) : (s.setDie n d).met = s.met := rfl
@[simp] theorem State.setDie_tainted (s : State) (n : Nat) (d : Die) : (s.setDie n d).tainted = s.tainted := rfl
@[simp] theorem State.setDie_framed (s : State) (n : Nat) (d : Die) : (s.setDie n d).framed = s.framed := rfl
@[simp] theorem State.setDie_pageDone (s : State) (n : Nat) (d : Die) : (s.setDie n d).pageDone = s.pageDone := rfl
@[simp] theorem State.setDie_pageLate (s : State) (n : Nat) (d : Die) : (s.setDie n d).pageLate = s.pageLate := rfl
@[simp] theorem State.setDie_mbcmd (s : State) (n : Nat) (d : Die) : (s.setDie n d).mbcmd = s.mbcmd := rfl
@[simp] theorem State.setDie_command (s : State) (n : Nat) (d : Die) : (s.setDie n d).command = s.command := rfl
@[simp] theorem State.setDie_busy (s : State) (n : Nat) (d : Die) : (s.setDie n d).busy = s.busy := rfl
@[simp] theorem State.setDie_usedImages (s : State) (n : Nat) (d : Die) : (s.setDie n d).usedImages = s.usedImages := rfl
@[simp] theorem State.setDie_linkIde (s : State) (n : Nat) (d : Die) : (s.setDie n d).linkIde = s.linkIde := rfl
@[simp] theorem State.setDie_secured (s : State) (n : Nat) (d : Die) : (s.setDie n d).secured = s.secured := rfl
@[simp] theorem State.setDie_bootKeys (s : State) (n : Nat) (d : Die) : (s.setDie n d).bootKeys = s.bootKeys := rfl
@[simp] theorem State.setDie_response (s : State) (n : Nat) (d : Die) : (s.setDie n d).response = s.response := rfl
@[simp] theorem State.setDie_slotA (s : State) (n : Nat) (d : Die) : (s.setDie n d).slotA = s.slotA := rfl
@[simp] theorem State.setDie_slotB (s : State) (n : Nat) (d : Die) : (s.setDie n d).slotB = s.slotB := rfl
@[simp] theorem State.setDie_slotSelect (s : State) (n : Nat) (d : Die) : (s.setDie n d).slotSelect = s.slotSelect := rfl
@[simp] theorem State.setDie_booted (s : State) (n : Nat) (d : Die) : (s.setDie n d).booted = s.booted := rfl
@[simp] theorem State.setDie_secCounter (s : State) (n : Nat) (d : Die) : (s.setDie n d).secCounter = s.secCounter := rfl
@[simp] theorem State.setDie_spareRoot (s : State) (n : Nat) (d : Die) : (s.setDie n d).spareRoot = s.spareRoot := rfl
@[simp] theorem State.setDie_retiredGens (s : State) (n : Nat) (d : Die) : (s.setDie n d).retiredGens = s.retiredGens := rfl
@[simp] theorem State.setDie_retireAsked (s : State) (n : Nat) (d : Die) : (s.setDie n d).retireAsked = s.retireAsked := rfl
@[simp] theorem State.setDie_retire (s : State) (n : Nat) (d : Die) : (s.setDie n d).retire = s.retire := rfl

/-! ### A context -/

@[simp] theorem State.setCtx_core (s : State) (n : Nat) (c : Context) : (s.setCtx n c).core = s.core := rfl
@[simp] theorem State.setCtx_frame (s : State) (n : Nat) (c : Context) : (s.setCtx n c).frame = s.frame := rfl
@[simp] theorem State.setCtx_agenda (s : State) (n : Nat) (c : Context) : (s.setCtx n c).agenda = s.agenda := rfl
@[simp] theorem State.setCtx_inflight (s : State) (n : Nat) (c : Context) : (s.setCtx n c).inflight = s.inflight := rfl
@[simp] theorem State.setCtx_arrived (s : State) (n : Nat) (c : Context) : (s.setCtx n c).arrived = s.arrived := rfl
@[simp] theorem State.setCtx_busWaits (s : State) (n : Nat) (c : Context) : (s.setCtx n c).busWaits = s.busWaits := rfl
@[simp] theorem State.setCtx_outbox (s : State) (n : Nat) (c : Context) : (s.setCtx n c).outbox = s.outbox := rfl
@[simp] theorem State.setCtx_engineTurn (s : State) (n : Nat) (c : Context) : (s.setCtx n c).engineTurn = s.engineTurn := rfl
@[simp] theorem State.setCtx_rotor (s : State) (n : Nat) (c : Context) : (s.setCtx n c).rotor = s.rotor := rfl
@[simp] theorem State.setCtx_steps (s : State) (n : Nat) (c : Context) : (s.setCtx n c).steps = s.steps := rfl
@[simp] theorem State.setCtx_fresh (s : State) (n : Nat) (c : Context) : (s.setCtx n c).fresh = s.fresh := rfl
@[simp] theorem State.setCtx_nextId (s : State) (n : Nat) (c : Context) : (s.setCtx n c).nextId = s.nextId := rfl
@[simp] theorem State.setCtx_kernelCode (s : State) (n : Nat) (c : Context) : (s.setCtx n c).kernelCode = s.kernelCode := rfl
@[simp] theorem State.setCtx_kernelVector (s : State) (n : Nat) (c : Context) : (s.setCtx n c).kernelVector = s.kernelVector := rfl
@[simp] theorem State.setCtx_pageOwner (s : State) (n : Nat) (c : Context) : (s.setCtx n c).pageOwner = s.pageOwner := rfl
@[simp] theorem State.setCtx_pos (s : State) (n : Nat) (c : Context) : (s.setCtx n c).pos = s.pos := rfl
@[simp] theorem State.setCtx_ftime (s : State) (n : Nat) (c : Context) : (s.setCtx n c).ftime = s.ftime := rfl
@[simp] theorem State.setCtx_ftimeErr (s : State) (n : Nat) (c : Context) : (s.setCtx n c).ftimeErr = s.ftimeErr := rfl
@[simp] theorem State.setCtx_cycles (s : State) (n : Nat) (c : Context) : (s.setCtx n c).cycles = s.cycles := rfl
@[simp] theorem State.setCtx_power (s : State) (n : Nat) (c : Context) : (s.setCtx n c).power = s.power := rfl
@[simp] theorem State.setCtx_mem (s : State) (n : Nat) (c : Context) : (s.setCtx n c).mem = s.mem := rfl
@[simp] theorem State.setCtx_tags (s : State) (n : Nat) (c : Context) : (s.setCtx n c).tags = s.tags := rfl
@[simp] theorem State.setCtx_keys (s : State) (n : Nat) (c : Context) : (s.setCtx n c).keys = s.keys := rfl
@[simp] theorem State.setCtx_bad (s : State) (n : Nat) (c : Context) : (s.setCtx n c).bad = s.bad := rfl
@[simp] theorem State.setCtx_badCode (s : State) (n : Nat) (c : Context) : (s.setCtx n c).badCode = s.badCode := rfl
@[simp] theorem State.setCtx_retired (s : State) (n : Nat) (c : Context) : (s.setCtx n c).retired = s.retired := rfl
@[simp] theorem State.setCtx_scrubAt (s : State) (n : Nat) (c : Context) : (s.setCtx n c).scrubAt = s.scrubAt := rfl
@[simp] theorem State.setCtx_corrected (s : State) (n : Nat) (c : Context) : (s.setCtx n c).corrected = s.corrected := rfl
@[simp] theorem State.setCtx_oscillators (s : State) (n : Nat) (c : Context) : (s.setCtx n c).oscillators = s.oscillators := rfl
@[simp] theorem State.setCtx_cores (s : State) (n : Nat) (c : Context) : (s.setCtx n c).cores = s.cores := rfl
@[simp] theorem State.setCtx_clusters (s : State) (n : Nat) (c : Context) : (s.setCtx n c).clusters = s.clusters := rfl
@[simp] theorem State.setCtx_dies (s : State) (n : Nat) (c : Context) : (s.setCtx n c).dies = s.dies := rfl
@[simp] theorem State.setCtx_contexts (s : State) (n : Nat) (c : Context) : (s.setCtx n c).contexts = put s.contexts n c := rfl
@[simp] theorem State.setCtx_vfs (s : State) (n : Nat) (c : Context) : (s.setCtx n c).vfs = s.vfs := rfl
@[simp] theorem State.setCtx_hbars (s : State) (n : Nat) (c : Context) : (s.setCtx n c).hbars = s.hbars := rfl
@[simp] theorem State.setCtx_groups (s : State) (n : Nat) (c : Context) : (s.setCtx n c).groups = s.groups := rfl
@[simp] theorem State.setCtx_claims (s : State) (n : Nat) (c : Context) : (s.setCtx n c).claims = s.claims := rfl
@[simp] theorem State.setCtx_early (s : State) (n : Nat) (c : Context) : (s.setCtx n c).early = s.early := rfl
@[simp] theorem State.setCtx_refused (s : State) (n : Nat) (c : Context) : (s.setCtx n c).refused = s.refused := rfl
@[simp] theorem State.setCtx_halyardLost (s : State) (n : Nat) (c : Context) : (s.setCtx n c).halyardLost = s.halyardLost := rfl
@[simp] theorem State.setCtx_declared (s : State) (n : Nat) (c : Context) : (s.setCtx n c).declared = s.declared := rfl
@[simp] theorem State.setCtx_unreachable (s : State) (n : Nat) (c : Context) : (s.setCtx n c).unreachable = s.unreachable := rfl
@[simp] theorem State.setCtx_barWaits (s : State) (n : Nat) (c : Context) : (s.setCtx n c).barWaits = s.barWaits := rfl
@[simp] theorem State.setCtx_discarded (s : State) (n : Nat) (c : Context) : (s.setCtx n c).discarded = s.discarded := rfl
@[simp] theorem State.setCtx_eventMsgs (s : State) (n : Nat) (c : Context) : (s.setCtx n c).eventMsgs = s.eventMsgs := rfl
@[simp] theorem State.setCtx_agroups (s : State) (n : Nat) (c : Context) : (s.setCtx n c).agroups = s.agroups := rfl
@[simp] theorem State.setCtx_colls (s : State) (n : Nat) (c : Context) : (s.setCtx n c).colls = s.colls := rfl
@[simp] theorem State.setCtx_links (s : State) (n : Nat) (c : Context) : (s.setCtx n c).links = s.links := rfl
@[simp] theorem State.setCtx_txbuf (s : State) (n : Nat) (c : Context) : (s.setCtx n c).txbuf = s.txbuf := rfl
@[simp] theorem State.setCtx_peers (s : State) (n : Nat) (c : Context) : (s.setCtx n c).peers = s.peers := rfl
@[simp] theorem State.setCtx_pod (s : State) (n : Nat) (c : Context) : (s.setCtx n c).pod = s.pod := rfl
@[simp] theorem State.setCtx_pageReqs (s : State) (n : Nat) (c : Context) : (s.setCtx n c).pageReqs = s.pageReqs := rfl
@[simp] theorem State.setCtx_routes (s : State) (n : Nat) (c : Context) : (s.setCtx n c).routes = s.routes := rfl
@[simp] theorem State.setCtx_moves (s : State) (n : Nat) (c : Context) : (s.setCtx n c).moves = s.moves := rfl
@[simp] theorem State.setCtx_met (s : State) (n : Nat) (c : Context) : (s.setCtx n c).met = s.met := rfl
@[simp] theorem State.setCtx_tainted (s : State) (n : Nat) (c : Context) : (s.setCtx n c).tainted = s.tainted := rfl
@[simp] theorem State.setCtx_framed (s : State) (n : Nat) (c : Context) : (s.setCtx n c).framed = s.framed := rfl
@[simp] theorem State.setCtx_pageDone (s : State) (n : Nat) (c : Context) : (s.setCtx n c).pageDone = s.pageDone := rfl
@[simp] theorem State.setCtx_pageLate (s : State) (n : Nat) (c : Context) : (s.setCtx n c).pageLate = s.pageLate := rfl
@[simp] theorem State.setCtx_mbcmd (s : State) (n : Nat) (c : Context) : (s.setCtx n c).mbcmd = s.mbcmd := rfl
@[simp] theorem State.setCtx_command (s : State) (n : Nat) (c : Context) : (s.setCtx n c).command = s.command := rfl
@[simp] theorem State.setCtx_busy (s : State) (n : Nat) (c : Context) : (s.setCtx n c).busy = s.busy := rfl
@[simp] theorem State.setCtx_usedImages (s : State) (n : Nat) (c : Context) : (s.setCtx n c).usedImages = s.usedImages := rfl
@[simp] theorem State.setCtx_linkIde (s : State) (n : Nat) (c : Context) : (s.setCtx n c).linkIde = s.linkIde := rfl
@[simp] theorem State.setCtx_secured (s : State) (n : Nat) (c : Context) : (s.setCtx n c).secured = s.secured := rfl
@[simp] theorem State.setCtx_bootKeys (s : State) (n : Nat) (c : Context) : (s.setCtx n c).bootKeys = s.bootKeys := rfl
@[simp] theorem State.setCtx_response (s : State) (n : Nat) (c : Context) : (s.setCtx n c).response = s.response := rfl
@[simp] theorem State.setCtx_slotA (s : State) (n : Nat) (c : Context) : (s.setCtx n c).slotA = s.slotA := rfl
@[simp] theorem State.setCtx_slotB (s : State) (n : Nat) (c : Context) : (s.setCtx n c).slotB = s.slotB := rfl
@[simp] theorem State.setCtx_slotSelect (s : State) (n : Nat) (c : Context) : (s.setCtx n c).slotSelect = s.slotSelect := rfl
@[simp] theorem State.setCtx_booted (s : State) (n : Nat) (c : Context) : (s.setCtx n c).booted = s.booted := rfl
@[simp] theorem State.setCtx_secCounter (s : State) (n : Nat) (c : Context) : (s.setCtx n c).secCounter = s.secCounter := rfl
@[simp] theorem State.setCtx_spareRoot (s : State) (n : Nat) (c : Context) : (s.setCtx n c).spareRoot = s.spareRoot := rfl
@[simp] theorem State.setCtx_retiredGens (s : State) (n : Nat) (c : Context) : (s.setCtx n c).retiredGens = s.retiredGens := rfl
@[simp] theorem State.setCtx_retireAsked (s : State) (n : Nat) (c : Context) : (s.setCtx n c).retireAsked = s.retireAsked := rfl
@[simp] theorem State.setCtx_retire (s : State) (n : Nat) (c : Context) : (s.setCtx n c).retire = s.retire := rfl

/-! ### A virtual function -/

@[simp] theorem State.setVf_core (s : State) (n : Nat) (v : Vf) : (s.setVf n v).core = s.core := rfl
@[simp] theorem State.setVf_frame (s : State) (n : Nat) (v : Vf) : (s.setVf n v).frame = s.frame := rfl
@[simp] theorem State.setVf_agenda (s : State) (n : Nat) (v : Vf) : (s.setVf n v).agenda = s.agenda := rfl
@[simp] theorem State.setVf_inflight (s : State) (n : Nat) (v : Vf) : (s.setVf n v).inflight = s.inflight := rfl
@[simp] theorem State.setVf_arrived (s : State) (n : Nat) (v : Vf) : (s.setVf n v).arrived = s.arrived := rfl
@[simp] theorem State.setVf_busWaits (s : State) (n : Nat) (v : Vf) : (s.setVf n v).busWaits = s.busWaits := rfl
@[simp] theorem State.setVf_outbox (s : State) (n : Nat) (v : Vf) : (s.setVf n v).outbox = s.outbox := rfl
@[simp] theorem State.setVf_engineTurn (s : State) (n : Nat) (v : Vf) : (s.setVf n v).engineTurn = s.engineTurn := rfl
@[simp] theorem State.setVf_rotor (s : State) (n : Nat) (v : Vf) : (s.setVf n v).rotor = s.rotor := rfl
@[simp] theorem State.setVf_steps (s : State) (n : Nat) (v : Vf) : (s.setVf n v).steps = s.steps := rfl
@[simp] theorem State.setVf_fresh (s : State) (n : Nat) (v : Vf) : (s.setVf n v).fresh = s.fresh := rfl
@[simp] theorem State.setVf_nextId (s : State) (n : Nat) (v : Vf) : (s.setVf n v).nextId = s.nextId := rfl
@[simp] theorem State.setVf_kernelCode (s : State) (n : Nat) (v : Vf) : (s.setVf n v).kernelCode = s.kernelCode := rfl
@[simp] theorem State.setVf_kernelVector (s : State) (n : Nat) (v : Vf) : (s.setVf n v).kernelVector = s.kernelVector := rfl
@[simp] theorem State.setVf_pageOwner (s : State) (n : Nat) (v : Vf) : (s.setVf n v).pageOwner = s.pageOwner := rfl
@[simp] theorem State.setVf_pos (s : State) (n : Nat) (v : Vf) : (s.setVf n v).pos = s.pos := rfl
@[simp] theorem State.setVf_ftime (s : State) (n : Nat) (v : Vf) : (s.setVf n v).ftime = s.ftime := rfl
@[simp] theorem State.setVf_ftimeErr (s : State) (n : Nat) (v : Vf) : (s.setVf n v).ftimeErr = s.ftimeErr := rfl
@[simp] theorem State.setVf_cycles (s : State) (n : Nat) (v : Vf) : (s.setVf n v).cycles = s.cycles := rfl
@[simp] theorem State.setVf_power (s : State) (n : Nat) (v : Vf) : (s.setVf n v).power = s.power := rfl
@[simp] theorem State.setVf_mem (s : State) (n : Nat) (v : Vf) : (s.setVf n v).mem = s.mem := rfl
@[simp] theorem State.setVf_tags (s : State) (n : Nat) (v : Vf) : (s.setVf n v).tags = s.tags := rfl
@[simp] theorem State.setVf_keys (s : State) (n : Nat) (v : Vf) : (s.setVf n v).keys = s.keys := rfl
@[simp] theorem State.setVf_bad (s : State) (n : Nat) (v : Vf) : (s.setVf n v).bad = s.bad := rfl
@[simp] theorem State.setVf_badCode (s : State) (n : Nat) (v : Vf) : (s.setVf n v).badCode = s.badCode := rfl
@[simp] theorem State.setVf_retired (s : State) (n : Nat) (v : Vf) : (s.setVf n v).retired = s.retired := rfl
@[simp] theorem State.setVf_scrubAt (s : State) (n : Nat) (v : Vf) : (s.setVf n v).scrubAt = s.scrubAt := rfl
@[simp] theorem State.setVf_corrected (s : State) (n : Nat) (v : Vf) : (s.setVf n v).corrected = s.corrected := rfl
@[simp] theorem State.setVf_oscillators (s : State) (n : Nat) (v : Vf) : (s.setVf n v).oscillators = s.oscillators := rfl
@[simp] theorem State.setVf_cores (s : State) (n : Nat) (v : Vf) : (s.setVf n v).cores = s.cores := rfl
@[simp] theorem State.setVf_clusters (s : State) (n : Nat) (v : Vf) : (s.setVf n v).clusters = s.clusters := rfl
@[simp] theorem State.setVf_dies (s : State) (n : Nat) (v : Vf) : (s.setVf n v).dies = s.dies := rfl
@[simp] theorem State.setVf_contexts (s : State) (n : Nat) (v : Vf) : (s.setVf n v).contexts = s.contexts := rfl
@[simp] theorem State.setVf_vfs (s : State) (n : Nat) (v : Vf) : (s.setVf n v).vfs = put s.vfs n v := rfl
@[simp] theorem State.setVf_hbars (s : State) (n : Nat) (v : Vf) : (s.setVf n v).hbars = s.hbars := rfl
@[simp] theorem State.setVf_groups (s : State) (n : Nat) (v : Vf) : (s.setVf n v).groups = s.groups := rfl
@[simp] theorem State.setVf_claims (s : State) (n : Nat) (v : Vf) : (s.setVf n v).claims = s.claims := rfl
@[simp] theorem State.setVf_early (s : State) (n : Nat) (v : Vf) : (s.setVf n v).early = s.early := rfl
@[simp] theorem State.setVf_refused (s : State) (n : Nat) (v : Vf) : (s.setVf n v).refused = s.refused := rfl
@[simp] theorem State.setVf_halyardLost (s : State) (n : Nat) (v : Vf) : (s.setVf n v).halyardLost = s.halyardLost := rfl
@[simp] theorem State.setVf_declared (s : State) (n : Nat) (v : Vf) : (s.setVf n v).declared = s.declared := rfl
@[simp] theorem State.setVf_unreachable (s : State) (n : Nat) (v : Vf) : (s.setVf n v).unreachable = s.unreachable := rfl
@[simp] theorem State.setVf_barWaits (s : State) (n : Nat) (v : Vf) : (s.setVf n v).barWaits = s.barWaits := rfl
@[simp] theorem State.setVf_discarded (s : State) (n : Nat) (v : Vf) : (s.setVf n v).discarded = s.discarded := rfl
@[simp] theorem State.setVf_eventMsgs (s : State) (n : Nat) (v : Vf) : (s.setVf n v).eventMsgs = s.eventMsgs := rfl
@[simp] theorem State.setVf_agroups (s : State) (n : Nat) (v : Vf) : (s.setVf n v).agroups = s.agroups := rfl
@[simp] theorem State.setVf_colls (s : State) (n : Nat) (v : Vf) : (s.setVf n v).colls = s.colls := rfl
@[simp] theorem State.setVf_links (s : State) (n : Nat) (v : Vf) : (s.setVf n v).links = s.links := rfl
@[simp] theorem State.setVf_txbuf (s : State) (n : Nat) (v : Vf) : (s.setVf n v).txbuf = s.txbuf := rfl
@[simp] theorem State.setVf_peers (s : State) (n : Nat) (v : Vf) : (s.setVf n v).peers = s.peers := rfl
@[simp] theorem State.setVf_pod (s : State) (n : Nat) (v : Vf) : (s.setVf n v).pod = s.pod := rfl
@[simp] theorem State.setVf_pageReqs (s : State) (n : Nat) (v : Vf) : (s.setVf n v).pageReqs = s.pageReqs := rfl
@[simp] theorem State.setVf_routes (s : State) (n : Nat) (v : Vf) : (s.setVf n v).routes = s.routes := rfl
@[simp] theorem State.setVf_moves (s : State) (n : Nat) (v : Vf) : (s.setVf n v).moves = s.moves := rfl
@[simp] theorem State.setVf_met (s : State) (n : Nat) (v : Vf) : (s.setVf n v).met = s.met := rfl
@[simp] theorem State.setVf_tainted (s : State) (n : Nat) (v : Vf) : (s.setVf n v).tainted = s.tainted := rfl
@[simp] theorem State.setVf_framed (s : State) (n : Nat) (v : Vf) : (s.setVf n v).framed = s.framed := rfl
@[simp] theorem State.setVf_pageDone (s : State) (n : Nat) (v : Vf) : (s.setVf n v).pageDone = s.pageDone := rfl
@[simp] theorem State.setVf_pageLate (s : State) (n : Nat) (v : Vf) : (s.setVf n v).pageLate = s.pageLate := rfl
@[simp] theorem State.setVf_mbcmd (s : State) (n : Nat) (v : Vf) : (s.setVf n v).mbcmd = s.mbcmd := rfl
@[simp] theorem State.setVf_command (s : State) (n : Nat) (v : Vf) : (s.setVf n v).command = s.command := rfl
@[simp] theorem State.setVf_busy (s : State) (n : Nat) (v : Vf) : (s.setVf n v).busy = s.busy := rfl
@[simp] theorem State.setVf_usedImages (s : State) (n : Nat) (v : Vf) : (s.setVf n v).usedImages = s.usedImages := rfl
@[simp] theorem State.setVf_linkIde (s : State) (n : Nat) (v : Vf) : (s.setVf n v).linkIde = s.linkIde := rfl
@[simp] theorem State.setVf_secured (s : State) (n : Nat) (v : Vf) : (s.setVf n v).secured = s.secured := rfl
@[simp] theorem State.setVf_bootKeys (s : State) (n : Nat) (v : Vf) : (s.setVf n v).bootKeys = s.bootKeys := rfl
@[simp] theorem State.setVf_response (s : State) (n : Nat) (v : Vf) : (s.setVf n v).response = s.response := rfl
@[simp] theorem State.setVf_slotA (s : State) (n : Nat) (v : Vf) : (s.setVf n v).slotA = s.slotA := rfl
@[simp] theorem State.setVf_slotB (s : State) (n : Nat) (v : Vf) : (s.setVf n v).slotB = s.slotB := rfl
@[simp] theorem State.setVf_slotSelect (s : State) (n : Nat) (v : Vf) : (s.setVf n v).slotSelect = s.slotSelect := rfl
@[simp] theorem State.setVf_booted (s : State) (n : Nat) (v : Vf) : (s.setVf n v).booted = s.booted := rfl
@[simp] theorem State.setVf_secCounter (s : State) (n : Nat) (v : Vf) : (s.setVf n v).secCounter = s.secCounter := rfl
@[simp] theorem State.setVf_spareRoot (s : State) (n : Nat) (v : Vf) : (s.setVf n v).spareRoot = s.spareRoot := rfl
@[simp] theorem State.setVf_retiredGens (s : State) (n : Nat) (v : Vf) : (s.setVf n v).retiredGens = s.retiredGens := rfl
@[simp] theorem State.setVf_retireAsked (s : State) (n : Nat) (v : Vf) : (s.setVf n v).retireAsked = s.retireAsked := rfl
@[simp] theorem State.setVf_retire (s : State) (n : Nat) (v : Vf) : (s.setVf n v).retire = s.retire := rfl

/-! ### A claim slot -/

@[simp] theorem State.setClaim_core (s : State) (n : Nat) (x : ClaimSlot) : (s.setClaim n x).core = s.core := rfl
@[simp] theorem State.setClaim_frame (s : State) (n : Nat) (x : ClaimSlot) : (s.setClaim n x).frame = s.frame := rfl
@[simp] theorem State.setClaim_agenda (s : State) (n : Nat) (x : ClaimSlot) : (s.setClaim n x).agenda = s.agenda := rfl
@[simp] theorem State.setClaim_inflight (s : State) (n : Nat) (x : ClaimSlot) : (s.setClaim n x).inflight = s.inflight := rfl
@[simp] theorem State.setClaim_arrived (s : State) (n : Nat) (x : ClaimSlot) : (s.setClaim n x).arrived = s.arrived := rfl
@[simp] theorem State.setClaim_busWaits (s : State) (n : Nat) (x : ClaimSlot) : (s.setClaim n x).busWaits = s.busWaits := rfl
@[simp] theorem State.setClaim_outbox (s : State) (n : Nat) (x : ClaimSlot) : (s.setClaim n x).outbox = s.outbox := rfl
@[simp] theorem State.setClaim_engineTurn (s : State) (n : Nat) (x : ClaimSlot) : (s.setClaim n x).engineTurn = s.engineTurn := rfl
@[simp] theorem State.setClaim_rotor (s : State) (n : Nat) (x : ClaimSlot) : (s.setClaim n x).rotor = s.rotor := rfl
@[simp] theorem State.setClaim_steps (s : State) (n : Nat) (x : ClaimSlot) : (s.setClaim n x).steps = s.steps := rfl
@[simp] theorem State.setClaim_fresh (s : State) (n : Nat) (x : ClaimSlot) : (s.setClaim n x).fresh = s.fresh := rfl
@[simp] theorem State.setClaim_nextId (s : State) (n : Nat) (x : ClaimSlot) : (s.setClaim n x).nextId = s.nextId := rfl
@[simp] theorem State.setClaim_kernelCode (s : State) (n : Nat) (x : ClaimSlot) : (s.setClaim n x).kernelCode = s.kernelCode := rfl
@[simp] theorem State.setClaim_kernelVector (s : State) (n : Nat) (x : ClaimSlot) : (s.setClaim n x).kernelVector = s.kernelVector := rfl
@[simp] theorem State.setClaim_pageOwner (s : State) (n : Nat) (x : ClaimSlot) : (s.setClaim n x).pageOwner = s.pageOwner := rfl
@[simp] theorem State.setClaim_pos (s : State) (n : Nat) (x : ClaimSlot) : (s.setClaim n x).pos = s.pos := rfl
@[simp] theorem State.setClaim_ftime (s : State) (n : Nat) (x : ClaimSlot) : (s.setClaim n x).ftime = s.ftime := rfl
@[simp] theorem State.setClaim_ftimeErr (s : State) (n : Nat) (x : ClaimSlot) : (s.setClaim n x).ftimeErr = s.ftimeErr := rfl
@[simp] theorem State.setClaim_cycles (s : State) (n : Nat) (x : ClaimSlot) : (s.setClaim n x).cycles = s.cycles := rfl
@[simp] theorem State.setClaim_power (s : State) (n : Nat) (x : ClaimSlot) : (s.setClaim n x).power = s.power := rfl
@[simp] theorem State.setClaim_mem (s : State) (n : Nat) (x : ClaimSlot) : (s.setClaim n x).mem = s.mem := rfl
@[simp] theorem State.setClaim_tags (s : State) (n : Nat) (x : ClaimSlot) : (s.setClaim n x).tags = s.tags := rfl
@[simp] theorem State.setClaim_keys (s : State) (n : Nat) (x : ClaimSlot) : (s.setClaim n x).keys = s.keys := rfl
@[simp] theorem State.setClaim_bad (s : State) (n : Nat) (x : ClaimSlot) : (s.setClaim n x).bad = s.bad := rfl
@[simp] theorem State.setClaim_badCode (s : State) (n : Nat) (x : ClaimSlot) : (s.setClaim n x).badCode = s.badCode := rfl
@[simp] theorem State.setClaim_retired (s : State) (n : Nat) (x : ClaimSlot) : (s.setClaim n x).retired = s.retired := rfl
@[simp] theorem State.setClaim_scrubAt (s : State) (n : Nat) (x : ClaimSlot) : (s.setClaim n x).scrubAt = s.scrubAt := rfl
@[simp] theorem State.setClaim_corrected (s : State) (n : Nat) (x : ClaimSlot) : (s.setClaim n x).corrected = s.corrected := rfl
@[simp] theorem State.setClaim_oscillators (s : State) (n : Nat) (x : ClaimSlot) : (s.setClaim n x).oscillators = s.oscillators := rfl
@[simp] theorem State.setClaim_cores (s : State) (n : Nat) (x : ClaimSlot) : (s.setClaim n x).cores = s.cores := rfl
@[simp] theorem State.setClaim_clusters (s : State) (n : Nat) (x : ClaimSlot) : (s.setClaim n x).clusters = s.clusters := rfl
@[simp] theorem State.setClaim_dies (s : State) (n : Nat) (x : ClaimSlot) : (s.setClaim n x).dies = s.dies := rfl
@[simp] theorem State.setClaim_contexts (s : State) (n : Nat) (x : ClaimSlot) : (s.setClaim n x).contexts = s.contexts := rfl
@[simp] theorem State.setClaim_vfs (s : State) (n : Nat) (x : ClaimSlot) : (s.setClaim n x).vfs = s.vfs := rfl
@[simp] theorem State.setClaim_hbars (s : State) (n : Nat) (x : ClaimSlot) : (s.setClaim n x).hbars = s.hbars := rfl
@[simp] theorem State.setClaim_groups (s : State) (n : Nat) (x : ClaimSlot) : (s.setClaim n x).groups = s.groups := rfl
@[simp] theorem State.setClaim_claims (s : State) (n : Nat) (x : ClaimSlot) : (s.setClaim n x).claims = put s.claims n x := rfl
@[simp] theorem State.setClaim_early (s : State) (n : Nat) (x : ClaimSlot) : (s.setClaim n x).early = s.early := rfl
@[simp] theorem State.setClaim_refused (s : State) (n : Nat) (x : ClaimSlot) : (s.setClaim n x).refused = s.refused := rfl
@[simp] theorem State.setClaim_halyardLost (s : State) (n : Nat) (x : ClaimSlot) : (s.setClaim n x).halyardLost = s.halyardLost := rfl
@[simp] theorem State.setClaim_declared (s : State) (n : Nat) (x : ClaimSlot) : (s.setClaim n x).declared = s.declared := rfl
@[simp] theorem State.setClaim_unreachable (s : State) (n : Nat) (x : ClaimSlot) : (s.setClaim n x).unreachable = s.unreachable := rfl
@[simp] theorem State.setClaim_barWaits (s : State) (n : Nat) (x : ClaimSlot) : (s.setClaim n x).barWaits = s.barWaits := rfl
@[simp] theorem State.setClaim_discarded (s : State) (n : Nat) (x : ClaimSlot) : (s.setClaim n x).discarded = s.discarded := rfl
@[simp] theorem State.setClaim_eventMsgs (s : State) (n : Nat) (x : ClaimSlot) : (s.setClaim n x).eventMsgs = s.eventMsgs := rfl
@[simp] theorem State.setClaim_agroups (s : State) (n : Nat) (x : ClaimSlot) : (s.setClaim n x).agroups = s.agroups := rfl
@[simp] theorem State.setClaim_colls (s : State) (n : Nat) (x : ClaimSlot) : (s.setClaim n x).colls = s.colls := rfl
@[simp] theorem State.setClaim_links (s : State) (n : Nat) (x : ClaimSlot) : (s.setClaim n x).links = s.links := rfl
@[simp] theorem State.setClaim_txbuf (s : State) (n : Nat) (x : ClaimSlot) : (s.setClaim n x).txbuf = s.txbuf := rfl
@[simp] theorem State.setClaim_peers (s : State) (n : Nat) (x : ClaimSlot) : (s.setClaim n x).peers = s.peers := rfl
@[simp] theorem State.setClaim_pod (s : State) (n : Nat) (x : ClaimSlot) : (s.setClaim n x).pod = s.pod := rfl
@[simp] theorem State.setClaim_pageReqs (s : State) (n : Nat) (x : ClaimSlot) : (s.setClaim n x).pageReqs = s.pageReqs := rfl
@[simp] theorem State.setClaim_routes (s : State) (n : Nat) (x : ClaimSlot) : (s.setClaim n x).routes = s.routes := rfl
@[simp] theorem State.setClaim_moves (s : State) (n : Nat) (x : ClaimSlot) : (s.setClaim n x).moves = s.moves := rfl
@[simp] theorem State.setClaim_met (s : State) (n : Nat) (x : ClaimSlot) : (s.setClaim n x).met = s.met := rfl
@[simp] theorem State.setClaim_tainted (s : State) (n : Nat) (x : ClaimSlot) : (s.setClaim n x).tainted = s.tainted := rfl
@[simp] theorem State.setClaim_framed (s : State) (n : Nat) (x : ClaimSlot) : (s.setClaim n x).framed = s.framed := rfl
@[simp] theorem State.setClaim_pageDone (s : State) (n : Nat) (x : ClaimSlot) : (s.setClaim n x).pageDone = s.pageDone := rfl
@[simp] theorem State.setClaim_pageLate (s : State) (n : Nat) (x : ClaimSlot) : (s.setClaim n x).pageLate = s.pageLate := rfl
@[simp] theorem State.setClaim_mbcmd (s : State) (n : Nat) (x : ClaimSlot) : (s.setClaim n x).mbcmd = s.mbcmd := rfl
@[simp] theorem State.setClaim_command (s : State) (n : Nat) (x : ClaimSlot) : (s.setClaim n x).command = s.command := rfl
@[simp] theorem State.setClaim_busy (s : State) (n : Nat) (x : ClaimSlot) : (s.setClaim n x).busy = s.busy := rfl
@[simp] theorem State.setClaim_usedImages (s : State) (n : Nat) (x : ClaimSlot) : (s.setClaim n x).usedImages = s.usedImages := rfl
@[simp] theorem State.setClaim_linkIde (s : State) (n : Nat) (x : ClaimSlot) : (s.setClaim n x).linkIde = s.linkIde := rfl
@[simp] theorem State.setClaim_secured (s : State) (n : Nat) (x : ClaimSlot) : (s.setClaim n x).secured = s.secured := rfl
@[simp] theorem State.setClaim_bootKeys (s : State) (n : Nat) (x : ClaimSlot) : (s.setClaim n x).bootKeys = s.bootKeys := rfl
@[simp] theorem State.setClaim_response (s : State) (n : Nat) (x : ClaimSlot) : (s.setClaim n x).response = s.response := rfl
@[simp] theorem State.setClaim_slotA (s : State) (n : Nat) (x : ClaimSlot) : (s.setClaim n x).slotA = s.slotA := rfl
@[simp] theorem State.setClaim_slotB (s : State) (n : Nat) (x : ClaimSlot) : (s.setClaim n x).slotB = s.slotB := rfl
@[simp] theorem State.setClaim_slotSelect (s : State) (n : Nat) (x : ClaimSlot) : (s.setClaim n x).slotSelect = s.slotSelect := rfl
@[simp] theorem State.setClaim_booted (s : State) (n : Nat) (x : ClaimSlot) : (s.setClaim n x).booted = s.booted := rfl
@[simp] theorem State.setClaim_secCounter (s : State) (n : Nat) (x : ClaimSlot) : (s.setClaim n x).secCounter = s.secCounter := rfl
@[simp] theorem State.setClaim_spareRoot (s : State) (n : Nat) (x : ClaimSlot) : (s.setClaim n x).spareRoot = s.spareRoot := rfl
@[simp] theorem State.setClaim_retiredGens (s : State) (n : Nat) (x : ClaimSlot) : (s.setClaim n x).retiredGens = s.retiredGens := rfl
@[simp] theorem State.setClaim_retireAsked (s : State) (n : Nat) (x : ClaimSlot) : (s.setClaim n x).retireAsked = s.retireAsked := rfl
@[simp] theorem State.setClaim_retire (s : State) (n : Nat) (x : ClaimSlot) : (s.setClaim n x).retire = s.retire := rfl

/-! ### A link -/

@[simp] theorem State.setLink_core (s : State) (n : Nat) (x : Link) : (s.setLink n x).core = s.core := rfl
@[simp] theorem State.setLink_frame (s : State) (n : Nat) (x : Link) : (s.setLink n x).frame = s.frame := rfl
@[simp] theorem State.setLink_agenda (s : State) (n : Nat) (x : Link) : (s.setLink n x).agenda = s.agenda := rfl
@[simp] theorem State.setLink_inflight (s : State) (n : Nat) (x : Link) : (s.setLink n x).inflight = s.inflight := rfl
@[simp] theorem State.setLink_arrived (s : State) (n : Nat) (x : Link) : (s.setLink n x).arrived = s.arrived := rfl
@[simp] theorem State.setLink_busWaits (s : State) (n : Nat) (x : Link) : (s.setLink n x).busWaits = s.busWaits := rfl
@[simp] theorem State.setLink_outbox (s : State) (n : Nat) (x : Link) : (s.setLink n x).outbox = s.outbox := rfl
@[simp] theorem State.setLink_engineTurn (s : State) (n : Nat) (x : Link) : (s.setLink n x).engineTurn = s.engineTurn := rfl
@[simp] theorem State.setLink_rotor (s : State) (n : Nat) (x : Link) : (s.setLink n x).rotor = s.rotor := rfl
@[simp] theorem State.setLink_steps (s : State) (n : Nat) (x : Link) : (s.setLink n x).steps = s.steps := rfl
@[simp] theorem State.setLink_fresh (s : State) (n : Nat) (x : Link) : (s.setLink n x).fresh = s.fresh := rfl
@[simp] theorem State.setLink_nextId (s : State) (n : Nat) (x : Link) : (s.setLink n x).nextId = s.nextId := rfl
@[simp] theorem State.setLink_kernelCode (s : State) (n : Nat) (x : Link) : (s.setLink n x).kernelCode = s.kernelCode := rfl
@[simp] theorem State.setLink_kernelVector (s : State) (n : Nat) (x : Link) : (s.setLink n x).kernelVector = s.kernelVector := rfl
@[simp] theorem State.setLink_pageOwner (s : State) (n : Nat) (x : Link) : (s.setLink n x).pageOwner = s.pageOwner := rfl
@[simp] theorem State.setLink_pos (s : State) (n : Nat) (x : Link) : (s.setLink n x).pos = s.pos := rfl
@[simp] theorem State.setLink_ftime (s : State) (n : Nat) (x : Link) : (s.setLink n x).ftime = s.ftime := rfl
@[simp] theorem State.setLink_ftimeErr (s : State) (n : Nat) (x : Link) : (s.setLink n x).ftimeErr = s.ftimeErr := rfl
@[simp] theorem State.setLink_cycles (s : State) (n : Nat) (x : Link) : (s.setLink n x).cycles = s.cycles := rfl
@[simp] theorem State.setLink_power (s : State) (n : Nat) (x : Link) : (s.setLink n x).power = s.power := rfl
@[simp] theorem State.setLink_mem (s : State) (n : Nat) (x : Link) : (s.setLink n x).mem = s.mem := rfl
@[simp] theorem State.setLink_tags (s : State) (n : Nat) (x : Link) : (s.setLink n x).tags = s.tags := rfl
@[simp] theorem State.setLink_keys (s : State) (n : Nat) (x : Link) : (s.setLink n x).keys = s.keys := rfl
@[simp] theorem State.setLink_bad (s : State) (n : Nat) (x : Link) : (s.setLink n x).bad = s.bad := rfl
@[simp] theorem State.setLink_badCode (s : State) (n : Nat) (x : Link) : (s.setLink n x).badCode = s.badCode := rfl
@[simp] theorem State.setLink_retired (s : State) (n : Nat) (x : Link) : (s.setLink n x).retired = s.retired := rfl
@[simp] theorem State.setLink_scrubAt (s : State) (n : Nat) (x : Link) : (s.setLink n x).scrubAt = s.scrubAt := rfl
@[simp] theorem State.setLink_corrected (s : State) (n : Nat) (x : Link) : (s.setLink n x).corrected = s.corrected := rfl
@[simp] theorem State.setLink_oscillators (s : State) (n : Nat) (x : Link) : (s.setLink n x).oscillators = s.oscillators := rfl
@[simp] theorem State.setLink_cores (s : State) (n : Nat) (x : Link) : (s.setLink n x).cores = s.cores := rfl
@[simp] theorem State.setLink_clusters (s : State) (n : Nat) (x : Link) : (s.setLink n x).clusters = s.clusters := rfl
@[simp] theorem State.setLink_dies (s : State) (n : Nat) (x : Link) : (s.setLink n x).dies = s.dies := rfl
@[simp] theorem State.setLink_contexts (s : State) (n : Nat) (x : Link) : (s.setLink n x).contexts = s.contexts := rfl
@[simp] theorem State.setLink_vfs (s : State) (n : Nat) (x : Link) : (s.setLink n x).vfs = s.vfs := rfl
@[simp] theorem State.setLink_hbars (s : State) (n : Nat) (x : Link) : (s.setLink n x).hbars = s.hbars := rfl
@[simp] theorem State.setLink_groups (s : State) (n : Nat) (x : Link) : (s.setLink n x).groups = s.groups := rfl
@[simp] theorem State.setLink_claims (s : State) (n : Nat) (x : Link) : (s.setLink n x).claims = s.claims := rfl
@[simp] theorem State.setLink_early (s : State) (n : Nat) (x : Link) : (s.setLink n x).early = s.early := rfl
@[simp] theorem State.setLink_refused (s : State) (n : Nat) (x : Link) : (s.setLink n x).refused = s.refused := rfl
@[simp] theorem State.setLink_halyardLost (s : State) (n : Nat) (x : Link) : (s.setLink n x).halyardLost = s.halyardLost := rfl
@[simp] theorem State.setLink_declared (s : State) (n : Nat) (x : Link) : (s.setLink n x).declared = s.declared := rfl
@[simp] theorem State.setLink_unreachable (s : State) (n : Nat) (x : Link) : (s.setLink n x).unreachable = s.unreachable := rfl
@[simp] theorem State.setLink_barWaits (s : State) (n : Nat) (x : Link) : (s.setLink n x).barWaits = s.barWaits := rfl
@[simp] theorem State.setLink_discarded (s : State) (n : Nat) (x : Link) : (s.setLink n x).discarded = s.discarded := rfl
@[simp] theorem State.setLink_eventMsgs (s : State) (n : Nat) (x : Link) : (s.setLink n x).eventMsgs = s.eventMsgs := rfl
@[simp] theorem State.setLink_agroups (s : State) (n : Nat) (x : Link) : (s.setLink n x).agroups = s.agroups := rfl
@[simp] theorem State.setLink_colls (s : State) (n : Nat) (x : Link) : (s.setLink n x).colls = s.colls := rfl
@[simp] theorem State.setLink_links (s : State) (n : Nat) (x : Link) : (s.setLink n x).links = put s.links n x := rfl
@[simp] theorem State.setLink_txbuf (s : State) (n : Nat) (x : Link) : (s.setLink n x).txbuf = s.txbuf := rfl
@[simp] theorem State.setLink_peers (s : State) (n : Nat) (x : Link) : (s.setLink n x).peers = s.peers := rfl
@[simp] theorem State.setLink_pod (s : State) (n : Nat) (x : Link) : (s.setLink n x).pod = s.pod := rfl
@[simp] theorem State.setLink_pageReqs (s : State) (n : Nat) (x : Link) : (s.setLink n x).pageReqs = s.pageReqs := rfl
@[simp] theorem State.setLink_routes (s : State) (n : Nat) (x : Link) : (s.setLink n x).routes = s.routes := rfl
@[simp] theorem State.setLink_moves (s : State) (n : Nat) (x : Link) : (s.setLink n x).moves = s.moves := rfl
@[simp] theorem State.setLink_met (s : State) (n : Nat) (x : Link) : (s.setLink n x).met = s.met := rfl
@[simp] theorem State.setLink_tainted (s : State) (n : Nat) (x : Link) : (s.setLink n x).tainted = s.tainted := rfl
@[simp] theorem State.setLink_framed (s : State) (n : Nat) (x : Link) : (s.setLink n x).framed = s.framed := rfl
@[simp] theorem State.setLink_pageDone (s : State) (n : Nat) (x : Link) : (s.setLink n x).pageDone = s.pageDone := rfl
@[simp] theorem State.setLink_pageLate (s : State) (n : Nat) (x : Link) : (s.setLink n x).pageLate = s.pageLate := rfl
@[simp] theorem State.setLink_mbcmd (s : State) (n : Nat) (x : Link) : (s.setLink n x).mbcmd = s.mbcmd := rfl
@[simp] theorem State.setLink_command (s : State) (n : Nat) (x : Link) : (s.setLink n x).command = s.command := rfl
@[simp] theorem State.setLink_busy (s : State) (n : Nat) (x : Link) : (s.setLink n x).busy = s.busy := rfl
@[simp] theorem State.setLink_usedImages (s : State) (n : Nat) (x : Link) : (s.setLink n x).usedImages = s.usedImages := rfl
@[simp] theorem State.setLink_linkIde (s : State) (n : Nat) (x : Link) : (s.setLink n x).linkIde = s.linkIde := rfl
@[simp] theorem State.setLink_secured (s : State) (n : Nat) (x : Link) : (s.setLink n x).secured = s.secured := rfl
@[simp] theorem State.setLink_bootKeys (s : State) (n : Nat) (x : Link) : (s.setLink n x).bootKeys = s.bootKeys := rfl
@[simp] theorem State.setLink_response (s : State) (n : Nat) (x : Link) : (s.setLink n x).response = s.response := rfl
@[simp] theorem State.setLink_slotA (s : State) (n : Nat) (x : Link) : (s.setLink n x).slotA = s.slotA := rfl
@[simp] theorem State.setLink_slotB (s : State) (n : Nat) (x : Link) : (s.setLink n x).slotB = s.slotB := rfl
@[simp] theorem State.setLink_slotSelect (s : State) (n : Nat) (x : Link) : (s.setLink n x).slotSelect = s.slotSelect := rfl
@[simp] theorem State.setLink_booted (s : State) (n : Nat) (x : Link) : (s.setLink n x).booted = s.booted := rfl
@[simp] theorem State.setLink_secCounter (s : State) (n : Nat) (x : Link) : (s.setLink n x).secCounter = s.secCounter := rfl
@[simp] theorem State.setLink_spareRoot (s : State) (n : Nat) (x : Link) : (s.setLink n x).spareRoot = s.spareRoot := rfl
@[simp] theorem State.setLink_retiredGens (s : State) (n : Nat) (x : Link) : (s.setLink n x).retiredGens = s.retiredGens := rfl
@[simp] theorem State.setLink_retireAsked (s : State) (n : Nat) (x : Link) : (s.setLink n x).retireAsked = s.retireAsked := rfl
@[simp] theorem State.setLink_retire (s : State) (n : Nat) (x : Link) : (s.setLink n x).retire = s.retire := rfl

/-! ### A packet leaves -/

@[simp] theorem State.emit_core (s : State) (p : Packet) : (s.emit p).core = s.core := rfl
@[simp] theorem State.emit_frame (s : State) (p : Packet) : (s.emit p).frame = s.frame := rfl
@[simp] theorem State.emit_agenda (s : State) (p : Packet) : (s.emit p).agenda = s.agenda := rfl
@[simp] theorem State.emit_inflight (s : State) (p : Packet) : (s.emit p).inflight = s.inflight := rfl
@[simp] theorem State.emit_arrived (s : State) (p : Packet) : (s.emit p).arrived = s.arrived := rfl
@[simp] theorem State.emit_busWaits (s : State) (p : Packet) : (s.emit p).busWaits = s.busWaits := rfl
@[simp] theorem State.emit_outbox (s : State) (p : Packet) : (s.emit p).outbox = s.outbox ++ [p] := rfl
@[simp] theorem State.emit_engineTurn (s : State) (p : Packet) : (s.emit p).engineTurn = s.engineTurn := rfl
@[simp] theorem State.emit_rotor (s : State) (p : Packet) : (s.emit p).rotor = s.rotor := rfl
@[simp] theorem State.emit_steps (s : State) (p : Packet) : (s.emit p).steps = s.steps := rfl
@[simp] theorem State.emit_fresh (s : State) (p : Packet) : (s.emit p).fresh = s.fresh := rfl
@[simp] theorem State.emit_nextId (s : State) (p : Packet) : (s.emit p).nextId = s.nextId := rfl
@[simp] theorem State.emit_kernelCode (s : State) (p : Packet) : (s.emit p).kernelCode = s.kernelCode := rfl
@[simp] theorem State.emit_kernelVector (s : State) (p : Packet) : (s.emit p).kernelVector = s.kernelVector := rfl
@[simp] theorem State.emit_pageOwner (s : State) (p : Packet) : (s.emit p).pageOwner = s.pageOwner := rfl
@[simp] theorem State.emit_pos (s : State) (p : Packet) : (s.emit p).pos = s.pos := rfl
@[simp] theorem State.emit_ftime (s : State) (p : Packet) : (s.emit p).ftime = s.ftime := rfl
@[simp] theorem State.emit_ftimeErr (s : State) (p : Packet) : (s.emit p).ftimeErr = s.ftimeErr := rfl
@[simp] theorem State.emit_cycles (s : State) (p : Packet) : (s.emit p).cycles = s.cycles := rfl
@[simp] theorem State.emit_power (s : State) (p : Packet) : (s.emit p).power = s.power := rfl
@[simp] theorem State.emit_mem (s : State) (p : Packet) : (s.emit p).mem = s.mem := rfl
@[simp] theorem State.emit_tags (s : State) (p : Packet) : (s.emit p).tags = s.tags := rfl
@[simp] theorem State.emit_keys (s : State) (p : Packet) : (s.emit p).keys = s.keys := rfl
@[simp] theorem State.emit_bad (s : State) (p : Packet) : (s.emit p).bad = s.bad := rfl
@[simp] theorem State.emit_badCode (s : State) (p : Packet) : (s.emit p).badCode = s.badCode := rfl
@[simp] theorem State.emit_retired (s : State) (p : Packet) : (s.emit p).retired = s.retired := rfl
@[simp] theorem State.emit_scrubAt (s : State) (p : Packet) : (s.emit p).scrubAt = s.scrubAt := rfl
@[simp] theorem State.emit_corrected (s : State) (p : Packet) : (s.emit p).corrected = s.corrected := rfl
@[simp] theorem State.emit_oscillators (s : State) (p : Packet) : (s.emit p).oscillators = s.oscillators := rfl
@[simp] theorem State.emit_cores (s : State) (p : Packet) : (s.emit p).cores = s.cores := rfl
@[simp] theorem State.emit_clusters (s : State) (p : Packet) : (s.emit p).clusters = s.clusters := rfl
@[simp] theorem State.emit_dies (s : State) (p : Packet) : (s.emit p).dies = s.dies := rfl
@[simp] theorem State.emit_contexts (s : State) (p : Packet) : (s.emit p).contexts = s.contexts := rfl
@[simp] theorem State.emit_vfs (s : State) (p : Packet) : (s.emit p).vfs = s.vfs := rfl
@[simp] theorem State.emit_hbars (s : State) (p : Packet) : (s.emit p).hbars = s.hbars := rfl
@[simp] theorem State.emit_groups (s : State) (p : Packet) : (s.emit p).groups = s.groups := rfl
@[simp] theorem State.emit_claims (s : State) (p : Packet) : (s.emit p).claims = s.claims := rfl
@[simp] theorem State.emit_early (s : State) (p : Packet) : (s.emit p).early = s.early := rfl
@[simp] theorem State.emit_refused (s : State) (p : Packet) : (s.emit p).refused = s.refused := rfl
@[simp] theorem State.emit_halyardLost (s : State) (p : Packet) : (s.emit p).halyardLost = s.halyardLost := rfl
@[simp] theorem State.emit_declared (s : State) (p : Packet) : (s.emit p).declared = s.declared := rfl
@[simp] theorem State.emit_unreachable (s : State) (p : Packet) : (s.emit p).unreachable = s.unreachable := rfl
@[simp] theorem State.emit_barWaits (s : State) (p : Packet) : (s.emit p).barWaits = s.barWaits := rfl
@[simp] theorem State.emit_discarded (s : State) (p : Packet) : (s.emit p).discarded = s.discarded := rfl
@[simp] theorem State.emit_eventMsgs (s : State) (p : Packet) : (s.emit p).eventMsgs = s.eventMsgs := rfl
@[simp] theorem State.emit_agroups (s : State) (p : Packet) : (s.emit p).agroups = s.agroups := rfl
@[simp] theorem State.emit_colls (s : State) (p : Packet) : (s.emit p).colls = s.colls := rfl
@[simp] theorem State.emit_links (s : State) (p : Packet) : (s.emit p).links = s.links := rfl
@[simp] theorem State.emit_txbuf (s : State) (p : Packet) : (s.emit p).txbuf = s.txbuf := rfl
@[simp] theorem State.emit_peers (s : State) (p : Packet) : (s.emit p).peers = s.peers := rfl
@[simp] theorem State.emit_pod (s : State) (p : Packet) : (s.emit p).pod = s.pod := rfl
@[simp] theorem State.emit_pageReqs (s : State) (p : Packet) : (s.emit p).pageReqs = s.pageReqs := rfl
@[simp] theorem State.emit_routes (s : State) (p : Packet) : (s.emit p).routes = s.routes := rfl
@[simp] theorem State.emit_moves (s : State) (p : Packet) : (s.emit p).moves = s.moves := rfl
@[simp] theorem State.emit_met (s : State) (p : Packet) : (s.emit p).met = s.met := rfl
@[simp] theorem State.emit_tainted (s : State) (p : Packet) : (s.emit p).tainted = s.tainted := rfl
@[simp] theorem State.emit_framed (s : State) (p : Packet) : (s.emit p).framed = s.framed := rfl
@[simp] theorem State.emit_pageDone (s : State) (p : Packet) : (s.emit p).pageDone = s.pageDone := rfl
@[simp] theorem State.emit_pageLate (s : State) (p : Packet) : (s.emit p).pageLate = s.pageLate := rfl
@[simp] theorem State.emit_mbcmd (s : State) (p : Packet) : (s.emit p).mbcmd = s.mbcmd := rfl
@[simp] theorem State.emit_command (s : State) (p : Packet) : (s.emit p).command = s.command := rfl
@[simp] theorem State.emit_busy (s : State) (p : Packet) : (s.emit p).busy = s.busy := rfl
@[simp] theorem State.emit_usedImages (s : State) (p : Packet) : (s.emit p).usedImages = s.usedImages := rfl
@[simp] theorem State.emit_linkIde (s : State) (p : Packet) : (s.emit p).linkIde = s.linkIde := rfl
@[simp] theorem State.emit_secured (s : State) (p : Packet) : (s.emit p).secured = s.secured := rfl
@[simp] theorem State.emit_bootKeys (s : State) (p : Packet) : (s.emit p).bootKeys = s.bootKeys := rfl
@[simp] theorem State.emit_response (s : State) (p : Packet) : (s.emit p).response = s.response := rfl
@[simp] theorem State.emit_slotA (s : State) (p : Packet) : (s.emit p).slotA = s.slotA := rfl
@[simp] theorem State.emit_slotB (s : State) (p : Packet) : (s.emit p).slotB = s.slotB := rfl
@[simp] theorem State.emit_slotSelect (s : State) (p : Packet) : (s.emit p).slotSelect = s.slotSelect := rfl
@[simp] theorem State.emit_booted (s : State) (p : Packet) : (s.emit p).booted = s.booted := rfl
@[simp] theorem State.emit_secCounter (s : State) (p : Packet) : (s.emit p).secCounter = s.secCounter := rfl
@[simp] theorem State.emit_spareRoot (s : State) (p : Packet) : (s.emit p).spareRoot = s.spareRoot := rfl
@[simp] theorem State.emit_retiredGens (s : State) (p : Packet) : (s.emit p).retiredGens = s.retiredGens := rfl
@[simp] theorem State.emit_retireAsked (s : State) (p : Packet) : (s.emit p).retireAsked = s.retireAsked := rfl
@[simp] theorem State.emit_retire (s : State) (p : Packet) : (s.emit p).retire = s.retire := rfl

/-! ### A message gets under way -/

@[simp] theorem State.post_core (s : State) (i : Instr) : (s.post i).core = s.core := rfl
@[simp] theorem State.post_frame (s : State) (i : Instr) : (s.post i).frame = s.frame := rfl
@[simp] theorem State.post_agenda (s : State) (i : Instr) : (s.post i).agenda = s.agenda := rfl
@[simp] theorem State.post_inflight (s : State) (i : Instr) : (s.post i).inflight = s.inflight ++ [i] := rfl
@[simp] theorem State.post_arrived (s : State) (i : Instr) : (s.post i).arrived = s.arrived := rfl
@[simp] theorem State.post_busWaits (s : State) (i : Instr) : (s.post i).busWaits = s.busWaits := rfl
@[simp] theorem State.post_outbox (s : State) (i : Instr) : (s.post i).outbox = s.outbox := rfl
@[simp] theorem State.post_engineTurn (s : State) (i : Instr) : (s.post i).engineTurn = s.engineTurn := rfl
@[simp] theorem State.post_rotor (s : State) (i : Instr) : (s.post i).rotor = s.rotor := rfl
@[simp] theorem State.post_steps (s : State) (i : Instr) : (s.post i).steps = s.steps := rfl
@[simp] theorem State.post_fresh (s : State) (i : Instr) : (s.post i).fresh = s.fresh := rfl
@[simp] theorem State.post_nextId (s : State) (i : Instr) : (s.post i).nextId = s.nextId := rfl
@[simp] theorem State.post_kernelCode (s : State) (i : Instr) : (s.post i).kernelCode = s.kernelCode := rfl
@[simp] theorem State.post_kernelVector (s : State) (i : Instr) : (s.post i).kernelVector = s.kernelVector := rfl
@[simp] theorem State.post_pageOwner (s : State) (i : Instr) : (s.post i).pageOwner = s.pageOwner := rfl
@[simp] theorem State.post_pos (s : State) (i : Instr) : (s.post i).pos = s.pos := rfl
@[simp] theorem State.post_ftime (s : State) (i : Instr) : (s.post i).ftime = s.ftime := rfl
@[simp] theorem State.post_ftimeErr (s : State) (i : Instr) : (s.post i).ftimeErr = s.ftimeErr := rfl
@[simp] theorem State.post_cycles (s : State) (i : Instr) : (s.post i).cycles = s.cycles := rfl
@[simp] theorem State.post_power (s : State) (i : Instr) : (s.post i).power = s.power := rfl
@[simp] theorem State.post_mem (s : State) (i : Instr) : (s.post i).mem = s.mem := rfl
@[simp] theorem State.post_tags (s : State) (i : Instr) : (s.post i).tags = s.tags := rfl
@[simp] theorem State.post_keys (s : State) (i : Instr) : (s.post i).keys = s.keys := rfl
@[simp] theorem State.post_bad (s : State) (i : Instr) : (s.post i).bad = s.bad := rfl
@[simp] theorem State.post_badCode (s : State) (i : Instr) : (s.post i).badCode = s.badCode := rfl
@[simp] theorem State.post_retired (s : State) (i : Instr) : (s.post i).retired = s.retired := rfl
@[simp] theorem State.post_scrubAt (s : State) (i : Instr) : (s.post i).scrubAt = s.scrubAt := rfl
@[simp] theorem State.post_corrected (s : State) (i : Instr) : (s.post i).corrected = s.corrected := rfl
@[simp] theorem State.post_oscillators (s : State) (i : Instr) : (s.post i).oscillators = s.oscillators := rfl
@[simp] theorem State.post_cores (s : State) (i : Instr) : (s.post i).cores = s.cores := rfl
@[simp] theorem State.post_clusters (s : State) (i : Instr) : (s.post i).clusters = s.clusters := rfl
@[simp] theorem State.post_dies (s : State) (i : Instr) : (s.post i).dies = s.dies := rfl
@[simp] theorem State.post_contexts (s : State) (i : Instr) : (s.post i).contexts = s.contexts := rfl
@[simp] theorem State.post_vfs (s : State) (i : Instr) : (s.post i).vfs = s.vfs := rfl
@[simp] theorem State.post_hbars (s : State) (i : Instr) : (s.post i).hbars = s.hbars := rfl
@[simp] theorem State.post_groups (s : State) (i : Instr) : (s.post i).groups = s.groups := rfl
@[simp] theorem State.post_claims (s : State) (i : Instr) : (s.post i).claims = s.claims := rfl
@[simp] theorem State.post_early (s : State) (i : Instr) : (s.post i).early = s.early := rfl
@[simp] theorem State.post_refused (s : State) (i : Instr) : (s.post i).refused = s.refused := rfl
@[simp] theorem State.post_halyardLost (s : State) (i : Instr) : (s.post i).halyardLost = s.halyardLost := rfl
@[simp] theorem State.post_declared (s : State) (i : Instr) : (s.post i).declared = s.declared := rfl
@[simp] theorem State.post_unreachable (s : State) (i : Instr) : (s.post i).unreachable = s.unreachable := rfl
@[simp] theorem State.post_barWaits (s : State) (i : Instr) : (s.post i).barWaits = s.barWaits := rfl
@[simp] theorem State.post_discarded (s : State) (i : Instr) : (s.post i).discarded = s.discarded := rfl
@[simp] theorem State.post_eventMsgs (s : State) (i : Instr) : (s.post i).eventMsgs = s.eventMsgs := rfl
@[simp] theorem State.post_agroups (s : State) (i : Instr) : (s.post i).agroups = s.agroups := rfl
@[simp] theorem State.post_colls (s : State) (i : Instr) : (s.post i).colls = s.colls := rfl
@[simp] theorem State.post_links (s : State) (i : Instr) : (s.post i).links = s.links := rfl
@[simp] theorem State.post_txbuf (s : State) (i : Instr) : (s.post i).txbuf = s.txbuf := rfl
@[simp] theorem State.post_peers (s : State) (i : Instr) : (s.post i).peers = s.peers := rfl
@[simp] theorem State.post_pod (s : State) (i : Instr) : (s.post i).pod = s.pod := rfl
@[simp] theorem State.post_pageReqs (s : State) (i : Instr) : (s.post i).pageReqs = s.pageReqs := rfl
@[simp] theorem State.post_routes (s : State) (i : Instr) : (s.post i).routes = s.routes := rfl
@[simp] theorem State.post_moves (s : State) (i : Instr) : (s.post i).moves = s.moves := rfl
@[simp] theorem State.post_met (s : State) (i : Instr) : (s.post i).met = s.met := rfl
@[simp] theorem State.post_tainted (s : State) (i : Instr) : (s.post i).tainted = s.tainted := rfl
@[simp] theorem State.post_framed (s : State) (i : Instr) : (s.post i).framed = s.framed := rfl
@[simp] theorem State.post_pageDone (s : State) (i : Instr) : (s.post i).pageDone = s.pageDone := rfl
@[simp] theorem State.post_pageLate (s : State) (i : Instr) : (s.post i).pageLate = s.pageLate := rfl
@[simp] theorem State.post_mbcmd (s : State) (i : Instr) : (s.post i).mbcmd = s.mbcmd := rfl
@[simp] theorem State.post_command (s : State) (i : Instr) : (s.post i).command = s.command := rfl
@[simp] theorem State.post_busy (s : State) (i : Instr) : (s.post i).busy = s.busy := rfl
@[simp] theorem State.post_usedImages (s : State) (i : Instr) : (s.post i).usedImages = s.usedImages := rfl
@[simp] theorem State.post_linkIde (s : State) (i : Instr) : (s.post i).linkIde = s.linkIde := rfl
@[simp] theorem State.post_secured (s : State) (i : Instr) : (s.post i).secured = s.secured := rfl
@[simp] theorem State.post_bootKeys (s : State) (i : Instr) : (s.post i).bootKeys = s.bootKeys := rfl
@[simp] theorem State.post_response (s : State) (i : Instr) : (s.post i).response = s.response := rfl
@[simp] theorem State.post_slotA (s : State) (i : Instr) : (s.post i).slotA = s.slotA := rfl
@[simp] theorem State.post_slotB (s : State) (i : Instr) : (s.post i).slotB = s.slotB := rfl
@[simp] theorem State.post_slotSelect (s : State) (i : Instr) : (s.post i).slotSelect = s.slotSelect := rfl
@[simp] theorem State.post_booted (s : State) (i : Instr) : (s.post i).booted = s.booted := rfl
@[simp] theorem State.post_secCounter (s : State) (i : Instr) : (s.post i).secCounter = s.secCounter := rfl
@[simp] theorem State.post_spareRoot (s : State) (i : Instr) : (s.post i).spareRoot = s.spareRoot := rfl
@[simp] theorem State.post_retiredGens (s : State) (i : Instr) : (s.post i).retiredGens = s.retiredGens := rfl
@[simp] theorem State.post_retireAsked (s : State) (i : Instr) : (s.post i).retireAsked = s.retireAsked := rfl
@[simp] theorem State.post_retire (s : State) (i : Instr) : (s.post i).retire = s.retire := rfl

/-! ### Bytes written -/

@[simp] theorem State.writeBytes_core (s : State) (a : Nat) (bs : List Byte) (c : Option Cap) : (s.writeBytes a bs c).core = s.core := rfl
@[simp] theorem State.writeBytes_frame (s : State) (a : Nat) (bs : List Byte) (c : Option Cap) : (s.writeBytes a bs c).frame = s.frame := rfl
@[simp] theorem State.writeBytes_agenda (s : State) (a : Nat) (bs : List Byte) (c : Option Cap) : (s.writeBytes a bs c).agenda = s.agenda := rfl
@[simp] theorem State.writeBytes_inflight (s : State) (a : Nat) (bs : List Byte) (c : Option Cap) : (s.writeBytes a bs c).inflight = s.inflight := rfl
@[simp] theorem State.writeBytes_arrived (s : State) (a : Nat) (bs : List Byte) (c : Option Cap) : (s.writeBytes a bs c).arrived = s.arrived := rfl
@[simp] theorem State.writeBytes_busWaits (s : State) (a : Nat) (bs : List Byte) (c : Option Cap) : (s.writeBytes a bs c).busWaits = s.busWaits := rfl
@[simp] theorem State.writeBytes_outbox (s : State) (a : Nat) (bs : List Byte) (c : Option Cap) : (s.writeBytes a bs c).outbox = s.outbox := rfl
@[simp] theorem State.writeBytes_engineTurn (s : State) (a : Nat) (bs : List Byte) (c : Option Cap) : (s.writeBytes a bs c).engineTurn = s.engineTurn := rfl
@[simp] theorem State.writeBytes_rotor (s : State) (a : Nat) (bs : List Byte) (c : Option Cap) : (s.writeBytes a bs c).rotor = s.rotor := rfl
@[simp] theorem State.writeBytes_steps (s : State) (a : Nat) (bs : List Byte) (c : Option Cap) : (s.writeBytes a bs c).steps = s.steps := rfl
@[simp] theorem State.writeBytes_fresh (s : State) (a : Nat) (bs : List Byte) (c : Option Cap) : (s.writeBytes a bs c).fresh = s.fresh := rfl
@[simp] theorem State.writeBytes_nextId (s : State) (a : Nat) (bs : List Byte) (c : Option Cap) : (s.writeBytes a bs c).nextId = s.nextId := rfl
@[simp] theorem State.writeBytes_kernelCode (s : State) (a : Nat) (bs : List Byte) (c : Option Cap) : (s.writeBytes a bs c).kernelCode = s.kernelCode := rfl
@[simp] theorem State.writeBytes_kernelVector (s : State) (a : Nat) (bs : List Byte) (c : Option Cap) : (s.writeBytes a bs c).kernelVector = s.kernelVector := rfl
@[simp] theorem State.writeBytes_pageOwner (s : State) (a : Nat) (bs : List Byte) (c : Option Cap) : (s.writeBytes a bs c).pageOwner = s.pageOwner := rfl
@[simp] theorem State.writeBytes_pos (s : State) (a : Nat) (bs : List Byte) (c : Option Cap) : (s.writeBytes a bs c).pos = s.pos := rfl
@[simp] theorem State.writeBytes_ftime (s : State) (a : Nat) (bs : List Byte) (c : Option Cap) : (s.writeBytes a bs c).ftime = s.ftime := rfl
@[simp] theorem State.writeBytes_ftimeErr (s : State) (a : Nat) (bs : List Byte) (c : Option Cap) : (s.writeBytes a bs c).ftimeErr = s.ftimeErr := rfl
@[simp] theorem State.writeBytes_cycles (s : State) (a : Nat) (bs : List Byte) (c : Option Cap) : (s.writeBytes a bs c).cycles = s.cycles := rfl
@[simp] theorem State.writeBytes_power (s : State) (a : Nat) (bs : List Byte) (c : Option Cap) : (s.writeBytes a bs c).power = s.power := rfl
@[simp] theorem State.writeBytes_mem (s : State) (a : Nat) (bs : List Byte) (c : Option Cap) : (s.writeBytes a bs c).mem = memPut s.mem a bs := rfl
@[simp] theorem State.writeBytes_keys (s : State) (a : Nat) (bs : List Byte) (c : Option Cap) : (s.writeBytes a bs c).keys = s.keys := rfl
@[simp] theorem State.writeBytes_bad (s : State) (a : Nat) (bs : List Byte) (c : Option Cap) : (s.writeBytes a bs c).bad = s.bad := rfl
@[simp] theorem State.writeBytes_badCode (s : State) (a : Nat) (bs : List Byte) (c : Option Cap) : (s.writeBytes a bs c).badCode = s.badCode := rfl
@[simp] theorem State.writeBytes_retired (s : State) (a : Nat) (bs : List Byte) (c : Option Cap) : (s.writeBytes a bs c).retired = s.retired := rfl
@[simp] theorem State.writeBytes_scrubAt (s : State) (a : Nat) (bs : List Byte) (c : Option Cap) : (s.writeBytes a bs c).scrubAt = s.scrubAt := rfl
@[simp] theorem State.writeBytes_corrected (s : State) (a : Nat) (bs : List Byte) (c : Option Cap) : (s.writeBytes a bs c).corrected = s.corrected := rfl
@[simp] theorem State.writeBytes_oscillators (s : State) (a : Nat) (bs : List Byte) (c : Option Cap) : (s.writeBytes a bs c).oscillators = s.oscillators := rfl
@[simp] theorem State.writeBytes_cores (s : State) (a : Nat) (bs : List Byte) (c : Option Cap) : (s.writeBytes a bs c).cores = s.cores := rfl
@[simp] theorem State.writeBytes_clusters (s : State) (a : Nat) (bs : List Byte) (c : Option Cap) : (s.writeBytes a bs c).clusters = s.clusters := rfl
@[simp] theorem State.writeBytes_dies (s : State) (a : Nat) (bs : List Byte) (c : Option Cap) : (s.writeBytes a bs c).dies = s.dies := rfl
@[simp] theorem State.writeBytes_contexts (s : State) (a : Nat) (bs : List Byte) (c : Option Cap) : (s.writeBytes a bs c).contexts = s.contexts := rfl
@[simp] theorem State.writeBytes_vfs (s : State) (a : Nat) (bs : List Byte) (c : Option Cap) : (s.writeBytes a bs c).vfs = s.vfs := rfl
@[simp] theorem State.writeBytes_hbars (s : State) (a : Nat) (bs : List Byte) (c : Option Cap) : (s.writeBytes a bs c).hbars = s.hbars := rfl
@[simp] theorem State.writeBytes_groups (s : State) (a : Nat) (bs : List Byte) (c : Option Cap) : (s.writeBytes a bs c).groups = s.groups := rfl
@[simp] theorem State.writeBytes_claims (s : State) (a : Nat) (bs : List Byte) (c : Option Cap) : (s.writeBytes a bs c).claims = s.claims := rfl
@[simp] theorem State.writeBytes_early (s : State) (a : Nat) (bs : List Byte) (c : Option Cap) : (s.writeBytes a bs c).early = s.early := rfl
@[simp] theorem State.writeBytes_refused (s : State) (a : Nat) (bs : List Byte) (c : Option Cap) : (s.writeBytes a bs c).refused = s.refused := rfl
@[simp] theorem State.writeBytes_halyardLost (s : State) (a : Nat) (bs : List Byte) (c : Option Cap) : (s.writeBytes a bs c).halyardLost = s.halyardLost := rfl
@[simp] theorem State.writeBytes_declared (s : State) (a : Nat) (bs : List Byte) (c : Option Cap) : (s.writeBytes a bs c).declared = s.declared := rfl
@[simp] theorem State.writeBytes_unreachable (s : State) (a : Nat) (bs : List Byte) (c : Option Cap) : (s.writeBytes a bs c).unreachable = s.unreachable := rfl
@[simp] theorem State.writeBytes_barWaits (s : State) (a : Nat) (bs : List Byte) (c : Option Cap) : (s.writeBytes a bs c).barWaits = s.barWaits := rfl
@[simp] theorem State.writeBytes_discarded (s : State) (a : Nat) (bs : List Byte) (c : Option Cap) : (s.writeBytes a bs c).discarded = s.discarded := rfl
@[simp] theorem State.writeBytes_eventMsgs (s : State) (a : Nat) (bs : List Byte) (c : Option Cap) : (s.writeBytes a bs c).eventMsgs = s.eventMsgs := rfl
@[simp] theorem State.writeBytes_agroups (s : State) (a : Nat) (bs : List Byte) (c : Option Cap) : (s.writeBytes a bs c).agroups = s.agroups := rfl
@[simp] theorem State.writeBytes_colls (s : State) (a : Nat) (bs : List Byte) (c : Option Cap) : (s.writeBytes a bs c).colls = s.colls := rfl
@[simp] theorem State.writeBytes_links (s : State) (a : Nat) (bs : List Byte) (c : Option Cap) : (s.writeBytes a bs c).links = s.links := rfl
@[simp] theorem State.writeBytes_txbuf (s : State) (a : Nat) (bs : List Byte) (c : Option Cap) : (s.writeBytes a bs c).txbuf = s.txbuf := rfl
@[simp] theorem State.writeBytes_peers (s : State) (a : Nat) (bs : List Byte) (c : Option Cap) : (s.writeBytes a bs c).peers = s.peers := rfl
@[simp] theorem State.writeBytes_pod (s : State) (a : Nat) (bs : List Byte) (c : Option Cap) : (s.writeBytes a bs c).pod = s.pod := rfl
@[simp] theorem State.writeBytes_pageReqs (s : State) (a : Nat) (bs : List Byte) (c : Option Cap) : (s.writeBytes a bs c).pageReqs = s.pageReqs := rfl
@[simp] theorem State.writeBytes_routes (s : State) (a : Nat) (bs : List Byte) (c : Option Cap) : (s.writeBytes a bs c).routes = s.routes := rfl
@[simp] theorem State.writeBytes_moves (s : State) (a : Nat) (bs : List Byte) (c : Option Cap) : (s.writeBytes a bs c).moves = s.moves := rfl
@[simp] theorem State.writeBytes_met (s : State) (a : Nat) (bs : List Byte) (c : Option Cap) : (s.writeBytes a bs c).met = s.met := rfl
@[simp] theorem State.writeBytes_tainted (s : State) (a : Nat) (bs : List Byte) (c : Option Cap) : (s.writeBytes a bs c).tainted = s.tainted := rfl
@[simp] theorem State.writeBytes_framed (s : State) (a : Nat) (bs : List Byte) (c : Option Cap) : (s.writeBytes a bs c).framed = s.framed := rfl
@[simp] theorem State.writeBytes_pageDone (s : State) (a : Nat) (bs : List Byte) (c : Option Cap) : (s.writeBytes a bs c).pageDone = s.pageDone := rfl
@[simp] theorem State.writeBytes_pageLate (s : State) (a : Nat) (bs : List Byte) (c : Option Cap) : (s.writeBytes a bs c).pageLate = s.pageLate := rfl
@[simp] theorem State.writeBytes_mbcmd (s : State) (a : Nat) (bs : List Byte) (c : Option Cap) : (s.writeBytes a bs c).mbcmd = s.mbcmd := rfl
@[simp] theorem State.writeBytes_command (s : State) (a : Nat) (bs : List Byte) (c : Option Cap) : (s.writeBytes a bs c).command = s.command := rfl
@[simp] theorem State.writeBytes_busy (s : State) (a : Nat) (bs : List Byte) (c : Option Cap) : (s.writeBytes a bs c).busy = s.busy := rfl
@[simp] theorem State.writeBytes_usedImages (s : State) (a : Nat) (bs : List Byte) (c : Option Cap) : (s.writeBytes a bs c).usedImages = s.usedImages := rfl
@[simp] theorem State.writeBytes_linkIde (s : State) (a : Nat) (bs : List Byte) (c : Option Cap) : (s.writeBytes a bs c).linkIde = s.linkIde := rfl
@[simp] theorem State.writeBytes_secured (s : State) (a : Nat) (bs : List Byte) (c : Option Cap) : (s.writeBytes a bs c).secured = s.secured := rfl
@[simp] theorem State.writeBytes_bootKeys (s : State) (a : Nat) (bs : List Byte) (c : Option Cap) : (s.writeBytes a bs c).bootKeys = s.bootKeys := rfl
@[simp] theorem State.writeBytes_response (s : State) (a : Nat) (bs : List Byte) (c : Option Cap) : (s.writeBytes a bs c).response = s.response := rfl
@[simp] theorem State.writeBytes_slotA (s : State) (a : Nat) (bs : List Byte) (c : Option Cap) : (s.writeBytes a bs c).slotA = s.slotA := rfl
@[simp] theorem State.writeBytes_slotB (s : State) (a : Nat) (bs : List Byte) (c : Option Cap) : (s.writeBytes a bs c).slotB = s.slotB := rfl
@[simp] theorem State.writeBytes_slotSelect (s : State) (a : Nat) (bs : List Byte) (c : Option Cap) : (s.writeBytes a bs c).slotSelect = s.slotSelect := rfl
@[simp] theorem State.writeBytes_booted (s : State) (a : Nat) (bs : List Byte) (c : Option Cap) : (s.writeBytes a bs c).booted = s.booted := rfl
@[simp] theorem State.writeBytes_secCounter (s : State) (a : Nat) (bs : List Byte) (c : Option Cap) : (s.writeBytes a bs c).secCounter = s.secCounter := rfl
@[simp] theorem State.writeBytes_spareRoot (s : State) (a : Nat) (bs : List Byte) (c : Option Cap) : (s.writeBytes a bs c).spareRoot = s.spareRoot := rfl
@[simp] theorem State.writeBytes_retiredGens (s : State) (a : Nat) (bs : List Byte) (c : Option Cap) : (s.writeBytes a bs c).retiredGens = s.retiredGens := rfl
@[simp] theorem State.writeBytes_retireAsked (s : State) (a : Nat) (bs : List Byte) (c : Option Cap) : (s.writeBytes a bs c).retireAsked = s.retireAsked := rfl
@[simp] theorem State.writeBytes_retire (s : State) (a : Nat) (bs : List Byte) (c : Option Cap) : (s.writeBytes a bs c).retire = s.retire := rfl

/-! ### A frame of a core -/

@[simp] theorem Core.setFrame_frames (c : Core) (f : Nat) (fr : Frame) : (c.setFrame f fr).frames = c.frames.setIfInBounds f fr := rfl
@[simp] theorem Core.setFrame_dslack (c : Core) (f : Nat) (fr : Frame) : (c.setFrame f fr).dslack = c.dslack := rfl
@[simp] theorem Core.setFrame_fupc (c : Core) (f : Nat) (fr : Frame) : (c.setFrame f fr).fupc = c.fupc := rfl
@[simp] theorem Core.setFrame_epc (c : Core) (f : Nat) (fr : Frame) : (c.setFrame f fr).epc = c.epc := rfl
@[simp] theorem Core.setFrame_ecause (c : Core) (f : Nat) (fr : Frame) : (c.setFrame f fr).ecause = c.ecause := rfl
@[simp] theorem Core.setFrame_eval (c : Core) (f : Nat) (fr : Frame) : (c.setFrame f fr).eval = c.eval := rfl
@[simp] theorem Core.setFrame_sstatus (c : Core) (f : Nat) (fr : Frame) : (c.setFrame f fr).sstatus = c.sstatus := rfl
@[simp] theorem Core.setFrame_uquota (c : Core) (f : Nat) (fr : Frame) : (c.setFrame f fr).uquota = c.uquota := rfl
@[simp] theorem Core.setFrame_uwin (c : Core) (f : Nat) (fr : Frame) : (c.setFrame f fr).uwin = c.uwin := rfl
@[simp] theorem Core.setFrame_t1 (c : Core) (f : Nat) (fr : Frame) : (c.setFrame f fr).t1 = c.t1 := rfl
@[simp] theorem Core.setFrame_t2 (c : Core) (f : Nat) (fr : Frame) : (c.setFrame f fr).t2 = c.t2 := rfl
@[simp] theorem Core.setFrame_t3 (c : Core) (f : Nat) (fr : Frame) : (c.setFrame f fr).t3 = c.t3 := rfl
@[simp] theorem Core.setFrame_normalQ (c : Core) (f : Nat) (fr : Frame) : (c.setFrame f fr).normalQ = c.normalQ := rfl
@[simp] theorem Core.setFrame_urgentQ (c : Core) (f : Nat) (fr : Frame) : (c.setFrame f fr).urgentQ = c.urgentQ := rfl
@[simp] theorem Core.setFrame_promised (c : Core) (f : Nat) (fr : Frame) : (c.setFrame f fr).promised = c.promised := rfl
@[simp] theorem Core.setFrame_serial (c : Core) (f : Nat) (fr : Frame) : (c.setFrame f fr).serial = c.serial := rfl
@[simp] theorem Core.setFrame_slots (c : Core) (f : Nat) (fr : Frame) : (c.setFrame f fr).slots = c.slots := rfl
@[simp] theorem Core.setFrame_buffer (c : Core) (f : Nat) (fr : Frame) : (c.setFrame f fr).buffer = c.buffer := rfl
@[simp] theorem Core.setFrame_deleting (c : Core) (f : Nat) (fr : Frame) : (c.setFrame f fr).deleting = c.deleting := rfl
@[simp] theorem Core.setFrame_outgoing (c : Core) (f : Nat) (fr : Frame) : (c.setFrame f fr).outgoing = c.outgoing := rfl
@[simp] theorem Core.setFrame_handling (c : Core) (f : Nat) (fr : Frame) : (c.setFrame f fr).handling = c.handling := rfl
@[simp] theorem Core.setFrame_kernelRuns (c : Core) (f : Nat) (fr : Frame) : (c.setFrame f fr).kernelRuns = c.kernelRuns := rfl
@[simp] theorem Core.setFrame_events (c : Core) (f : Nat) (fr : Frame) : (c.setFrame f fr).events = c.events := rfl
@[simp] theorem Core.setFrame_poison (c : Core) (f : Nat) (fr : Frame) : (c.setFrame f fr).poison = c.poison := rfl
@[simp] theorem Core.setFrame_starts (c : Core) (f : Nat) (fr : Frame) : (c.setFrame f fr).starts = c.starts := rfl
@[simp] theorem Core.setFrame_faultSeq (c : Core) (f : Nat) (fr : Frame) : (c.setFrame f fr).faultSeq = c.faultSeq := rfl
@[simp] theorem Core.setFrame_born (c : Core) (f : Nat) (fr : Frame) : (c.setFrame f fr).born = c.born := rfl
@[simp] theorem Core.setFrame_winStart (c : Core) (f : Nat) (fr : Frame) : (c.setFrame f fr).winStart = c.winStart := rfl
@[simp] theorem Core.setFrame_winCount (c : Core) (f : Nat) (fr : Frame) : (c.setFrame f fr).winCount = c.winCount := rfl
@[simp] theorem Core.setFrame_exhausted (c : Core) (f : Nat) (fr : Frame) : (c.setFrame f fr).exhausted = c.exhausted := rfl
@[simp] theorem Core.setFrame_nextJob (c : Core) (f : Nat) (fr : Frame) : (c.setFrame f fr).nextJob = c.nextJob := rfl
@[simp] theorem Core.setFrame_records (c : Core) (f : Nat) (fr : Frame) : (c.setFrame f fr).records = c.records := rfl
@[simp] theorem Core.setFrame_tiles (c : Core) (f : Nat) (fr : Frame) : (c.setFrame f fr).tiles = c.tiles := rfl
@[simp] theorem Core.setFrame_lut (c : Core) (f : Nat) (fr : Frame) : (c.setFrame f fr).lut = c.lut := rfl
@[simp] theorem Core.setFrame_fifo (c : Core) (f : Nat) (fr : Frame) : (c.setFrame f fr).fifo = c.fifo := rfl
@[simp] theorem Core.setFrame_balanceAt (c : Core) (f : Nat) (fr : Frame) : (c.setFrame f fr).balanceAt = c.balanceAt := rfl

/-! ### Registers of a frame -/

@[simp] theorem Frame.setCap_g (fr : Frame) (r : BitVec 4) (v : Cap) : (fr.setCap r v).g = fr.g := by
  unfold Frame.setCap; split <;> rfl
@[simp] theorem Frame.setMask_g (fr : Frame) (r : BitVec 3) (v : Lane) : (fr.setMask r v).g = fr.g := by
  unfold Frame.setMask; split <;> rfl
@[simp] theorem Frame.setVreg_g (fr : Frame) (r : BitVec 5) (v : VReg) : (fr.setVreg r v).g = fr.g := rfl
@[simp] theorem Frame.advance_g (fr : Frame) (n : Nat) : (fr.advance n).g = fr.g := rfl
@[simp] theorem Frame.setGpr_c (fr : Frame) (r : BitVec 5) (v : Word) : (fr.setGpr r v).c = fr.c := by
  unfold Frame.setGpr; split <;> rfl
@[simp] theorem Frame.setMask_c (fr : Frame) (r : BitVec 3) (v : Lane) : (fr.setMask r v).c = fr.c := by
  unfold Frame.setMask; split <;> rfl
@[simp] theorem Frame.setVreg_c (fr : Frame) (r : BitVec 5) (v : VReg) : (fr.setVreg r v).c = fr.c := rfl
@[simp] theorem Frame.advance_c (fr : Frame) (n : Nat) : (fr.advance n).c = fr.c := rfl
@[simp] theorem Frame.setGpr_v (fr : Frame) (r : BitVec 5) (v : Word) : (fr.setGpr r v).v = fr.v := by
  unfold Frame.setGpr; split <;> rfl
@[simp] theorem Frame.setCap_v (fr : Frame) (r : BitVec 4) (v : Cap) : (fr.setCap r v).v = fr.v := by
  unfold Frame.setCap; split <;> rfl
@[simp] theorem Frame.setMask_v (fr : Frame) (r : BitVec 3) (v : Lane) : (fr.setMask r v).v = fr.v := by
  unfold Frame.setMask; split <;> rfl
@[simp] theorem Frame.advance_v (fr : Frame) (n : Nat) : (fr.advance n).v = fr.v := rfl
@[simp] theorem Frame.setGpr_k (fr : Frame) (r : BitVec 5) (v : Word) : (fr.setGpr r v).k = fr.k := by
  unfold Frame.setGpr; split <;> rfl
@[simp] theorem Frame.setCap_k (fr : Frame) (r : BitVec 4) (v : Cap) : (fr.setCap r v).k = fr.k := by
  unfold Frame.setCap; split <;> rfl
@[simp] theorem Frame.setVreg_k (fr : Frame) (r : BitVec 5) (v : VReg) : (fr.setVreg r v).k = fr.k := rfl
@[simp] theorem Frame.advance_k (fr : Frame) (n : Nat) : (fr.advance n).k = fr.k := rfl
@[simp] theorem Frame.setGpr_pc (fr : Frame) (r : BitVec 5) (v : Word) : (fr.setGpr r v).pc = fr.pc := by
  unfold Frame.setGpr; split <;> rfl
@[simp] theorem Frame.setCap_pc (fr : Frame) (r : BitVec 4) (v : Cap) : (fr.setCap r v).pc = fr.pc := by
  unfold Frame.setCap; split <;> rfl
@[simp] theorem Frame.setMask_pc (fr : Frame) (r : BitVec 3) (v : Lane) : (fr.setMask r v).pc = fr.pc := by
  unfold Frame.setMask; split <;> rfl
@[simp] theorem Frame.setVreg_pc (fr : Frame) (r : BitVec 5) (v : VReg) : (fr.setVreg r v).pc = fr.pc := rfl
@[simp] theorem Frame.advance_pc (fr : Frame) (n : Nat) : (fr.advance n).pc = fr.pc + BitVec.ofNat 32 n := rfl
@[simp] theorem Frame.setGpr_ver (fr : Frame) (r : BitVec 5) (v : Word) : (fr.setGpr r v).ver = fr.ver := by
  unfold Frame.setGpr; split <;> rfl
@[simp] theorem Frame.setCap_ver (fr : Frame) (r : BitVec 4) (v : Cap) : (fr.setCap r v).ver = fr.ver := by
  unfold Frame.setCap; split <;> rfl
@[simp] theorem Frame.setMask_ver (fr : Frame) (r : BitVec 3) (v : Lane) : (fr.setMask r v).ver = fr.ver := by
  unfold Frame.setMask; split <;> rfl
@[simp] theorem Frame.setVreg_ver (fr : Frame) (r : BitVec 5) (v : VReg) : (fr.setVreg r v).ver = fr.ver := rfl
@[simp] theorem Frame.advance_ver (fr : Frame) (n : Nat) : (fr.advance n).ver = fr.ver := rfl
@[simp] theorem Frame.setGpr_modid (fr : Frame) (r : BitVec 5) (v : Word) : (fr.setGpr r v).modid = fr.modid := by
  unfold Frame.setGpr; split <;> rfl
@[simp] theorem Frame.setCap_modid (fr : Frame) (r : BitVec 4) (v : Cap) : (fr.setCap r v).modid = fr.modid := by
  unfold Frame.setCap; split <;> rfl
@[simp] theorem Frame.setMask_modid (fr : Frame) (r : BitVec 3) (v : Lane) : (fr.setMask r v).modid = fr.modid := by
  unfold Frame.setMask; split <;> rfl
@[simp] theorem Frame.setVreg_modid (fr : Frame) (r : BitVec 5) (v : VReg) : (fr.setVreg r v).modid = fr.modid := rfl
@[simp] theorem Frame.advance_modid (fr : Frame) (n : Nat) : (fr.advance n).modid = fr.modid := rfl
@[simp] theorem Frame.setGpr_cvt (fr : Frame) (r : BitVec 5) (v : Word) : (fr.setGpr r v).cvt = fr.cvt := by
  unfold Frame.setGpr; split <;> rfl
@[simp] theorem Frame.setCap_cvt (fr : Frame) (r : BitVec 4) (v : Cap) : (fr.setCap r v).cvt = fr.cvt := by
  unfold Frame.setCap; split <;> rfl
@[simp] theorem Frame.setMask_cvt (fr : Frame) (r : BitVec 3) (v : Lane) : (fr.setMask r v).cvt = fr.cvt := by
  unfold Frame.setMask; split <;> rfl
@[simp] theorem Frame.setVreg_cvt (fr : Frame) (r : BitVec 5) (v : VReg) : (fr.setVreg r v).cvt = fr.cvt := rfl
@[simp] theorem Frame.advance_cvt (fr : Frame) (n : Nat) : (fr.advance n).cvt = fr.cvt := rfl
@[simp] theorem Frame.setGpr_status (fr : Frame) (r : BitVec 5) (v : Word) : (fr.setGpr r v).status = fr.status := by
  unfold Frame.setGpr; split <;> rfl
@[simp] theorem Frame.setCap_status (fr : Frame) (r : BitVec 4) (v : Cap) : (fr.setCap r v).status = fr.status := by
  unfold Frame.setCap; split <;> rfl
@[simp] theorem Frame.setMask_status (fr : Frame) (r : BitVec 3) (v : Lane) : (fr.setMask r v).status = fr.status := by
  unfold Frame.setMask; split <;> rfl
@[simp] theorem Frame.setVreg_status (fr : Frame) (r : BitVec 5) (v : VReg) : (fr.setVreg r v).status = fr.status := rfl
@[simp] theorem Frame.advance_status (fr : Frame) (n : Nat) : (fr.advance n).status = fr.status := rfl
@[simp] theorem Frame.setGpr_dlnext (fr : Frame) (r : BitVec 5) (v : Word) : (fr.setGpr r v).dlnext = fr.dlnext := by
  unfold Frame.setGpr; split <;> rfl
@[simp] theorem Frame.setCap_dlnext (fr : Frame) (r : BitVec 4) (v : Cap) : (fr.setCap r v).dlnext = fr.dlnext := by
  unfold Frame.setCap; split <;> rfl
@[simp] theorem Frame.setMask_dlnext (fr : Frame) (r : BitVec 3) (v : Lane) : (fr.setMask r v).dlnext = fr.dlnext := by
  unfold Frame.setMask; split <;> rfl
@[simp] theorem Frame.setVreg_dlnext (fr : Frame) (r : BitVec 5) (v : VReg) : (fr.setVreg r v).dlnext = fr.dlnext := rfl
@[simp] theorem Frame.advance_dlnext (fr : Frame) (n : Nat) : (fr.advance n).dlnext = fr.dlnext := rfl
@[simp] theorem Frame.setGpr_clprio (fr : Frame) (r : BitVec 5) (v : Word) : (fr.setGpr r v).clprio = fr.clprio := by
  unfold Frame.setGpr; split <;> rfl
@[simp] theorem Frame.setCap_clprio (fr : Frame) (r : BitVec 4) (v : Cap) : (fr.setCap r v).clprio = fr.clprio := by
  unfold Frame.setCap; split <;> rfl
@[simp] theorem Frame.setMask_clprio (fr : Frame) (r : BitVec 3) (v : Lane) : (fr.setMask r v).clprio = fr.clprio := by
  unfold Frame.setMask; split <;> rfl
@[simp] theorem Frame.setVreg_clprio (fr : Frame) (r : BitVec 5) (v : VReg) : (fr.setVreg r v).clprio = fr.clprio := rfl
@[simp] theorem Frame.advance_clprio (fr : Frame) (n : Nat) : (fr.advance n).clprio = fr.clprio := rfl
@[simp] theorem Frame.setGpr_qrowlen (fr : Frame) (r : BitVec 5) (v : Word) : (fr.setGpr r v).qrowlen = fr.qrowlen := by
  unfold Frame.setGpr; split <;> rfl
@[simp] theorem Frame.setCap_qrowlen (fr : Frame) (r : BitVec 4) (v : Cap) : (fr.setCap r v).qrowlen = fr.qrowlen := by
  unfold Frame.setCap; split <;> rfl
@[simp] theorem Frame.setMask_qrowlen (fr : Frame) (r : BitVec 3) (v : Lane) : (fr.setMask r v).qrowlen = fr.qrowlen := by
  unfold Frame.setMask; split <;> rfl
@[simp] theorem Frame.setVreg_qrowlen (fr : Frame) (r : BitVec 5) (v : VReg) : (fr.setVreg r v).qrowlen = fr.qrowlen := rfl
@[simp] theorem Frame.advance_qrowlen (fr : Frame) (n : Nat) : (fr.advance n).qrowlen = fr.qrowlen := rfl
@[simp] theorem Frame.setGpr_barrot (fr : Frame) (r : BitVec 5) (v : Word) : (fr.setGpr r v).barrot = fr.barrot := by
  unfold Frame.setGpr; split <;> rfl
@[simp] theorem Frame.setCap_barrot (fr : Frame) (r : BitVec 4) (v : Cap) : (fr.setCap r v).barrot = fr.barrot := by
  unfold Frame.setCap; split <;> rfl
@[simp] theorem Frame.setMask_barrot (fr : Frame) (r : BitVec 3) (v : Lane) : (fr.setMask r v).barrot = fr.barrot := by
  unfold Frame.setMask; split <;> rfl
@[simp] theorem Frame.setVreg_barrot (fr : Frame) (r : BitVec 5) (v : VReg) : (fr.setVreg r v).barrot = fr.barrot := rfl
@[simp] theorem Frame.advance_barrot (fr : Frame) (n : Nat) : (fr.advance n).barrot = fr.barrot := rfl
@[simp] theorem Frame.setGpr_rstat (fr : Frame) (r : BitVec 5) (v : Word) : (fr.setGpr r v).rstat = fr.rstat := by
  unfold Frame.setGpr; split <;> rfl
@[simp] theorem Frame.setCap_rstat (fr : Frame) (r : BitVec 4) (v : Cap) : (fr.setCap r v).rstat = fr.rstat := by
  unfold Frame.setCap; split <;> rfl
@[simp] theorem Frame.setMask_rstat (fr : Frame) (r : BitVec 3) (v : Lane) : (fr.setMask r v).rstat = fr.rstat := by
  unfold Frame.setMask; split <;> rfl
@[simp] theorem Frame.setVreg_rstat (fr : Frame) (r : BitVec 5) (v : VReg) : (fr.setVreg r v).rstat = fr.rstat := rfl
@[simp] theorem Frame.advance_rstat (fr : Frame) (n : Nat) : (fr.advance n).rstat = fr.rstat := rfl
@[simp] theorem Frame.setGpr_clstat (fr : Frame) (r : BitVec 5) (v : Word) : (fr.setGpr r v).clstat = fr.clstat := by
  unfold Frame.setGpr; split <;> rfl
@[simp] theorem Frame.setCap_clstat (fr : Frame) (r : BitVec 4) (v : Cap) : (fr.setCap r v).clstat = fr.clstat := by
  unfold Frame.setCap; split <;> rfl
@[simp] theorem Frame.setMask_clstat (fr : Frame) (r : BitVec 3) (v : Lane) : (fr.setMask r v).clstat = fr.clstat := by
  unfold Frame.setMask; split <;> rfl
@[simp] theorem Frame.setVreg_clstat (fr : Frame) (r : BitVec 5) (v : VReg) : (fr.setVreg r v).clstat = fr.clstat := rfl
@[simp] theorem Frame.advance_clstat (fr : Frame) (n : Nat) : (fr.advance n).clstat = fr.clstat := rfl
@[simp] theorem Frame.setGpr_amoerr (fr : Frame) (r : BitVec 5) (v : Word) : (fr.setGpr r v).amoerr = fr.amoerr := by
  unfold Frame.setGpr; split <;> rfl
@[simp] theorem Frame.setCap_amoerr (fr : Frame) (r : BitVec 4) (v : Cap) : (fr.setCap r v).amoerr = fr.amoerr := by
  unfold Frame.setCap; split <;> rfl
@[simp] theorem Frame.setMask_amoerr (fr : Frame) (r : BitVec 3) (v : Lane) : (fr.setMask r v).amoerr = fr.amoerr := by
  unfold Frame.setMask; split <;> rfl
@[simp] theorem Frame.setVreg_amoerr (fr : Frame) (r : BitVec 5) (v : VReg) : (fr.setVreg r v).amoerr = fr.amoerr := rfl
@[simp] theorem Frame.advance_amoerr (fr : Frame) (n : Nat) : (fr.advance n).amoerr = fr.amoerr := rfl
@[simp] theorem Frame.setGpr_frec (fr : Frame) (r : BitVec 5) (v : Word) : (fr.setGpr r v).frec = fr.frec := by
  unfold Frame.setGpr; split <;> rfl
@[simp] theorem Frame.setCap_frec (fr : Frame) (r : BitVec 4) (v : Cap) : (fr.setCap r v).frec = fr.frec := by
  unfold Frame.setCap; split <;> rfl
@[simp] theorem Frame.setMask_frec (fr : Frame) (r : BitVec 3) (v : Lane) : (fr.setMask r v).frec = fr.frec := by
  unfold Frame.setMask; split <;> rfl
@[simp] theorem Frame.setVreg_frec (fr : Frame) (r : BitVec 5) (v : VReg) : (fr.setVreg r v).frec = fr.frec := rfl
@[simp] theorem Frame.advance_frec (fr : Frame) (n : Nat) : (fr.advance n).frec = fr.frec := rfl
@[simp] theorem Frame.setGpr_fctx0 (fr : Frame) (r : BitVec 5) (v : Word) : (fr.setGpr r v).fctx0 = fr.fctx0 := by
  unfold Frame.setGpr; split <;> rfl
@[simp] theorem Frame.setCap_fctx0 (fr : Frame) (r : BitVec 4) (v : Cap) : (fr.setCap r v).fctx0 = fr.fctx0 := by
  unfold Frame.setCap; split <;> rfl
@[simp] theorem Frame.setMask_fctx0 (fr : Frame) (r : BitVec 3) (v : Lane) : (fr.setMask r v).fctx0 = fr.fctx0 := by
  unfold Frame.setMask; split <;> rfl
@[simp] theorem Frame.setVreg_fctx0 (fr : Frame) (r : BitVec 5) (v : VReg) : (fr.setVreg r v).fctx0 = fr.fctx0 := rfl
@[simp] theorem Frame.advance_fctx0 (fr : Frame) (n : Nat) : (fr.advance n).fctx0 = fr.fctx0 := rfl
@[simp] theorem Frame.setGpr_fctx1 (fr : Frame) (r : BitVec 5) (v : Word) : (fr.setGpr r v).fctx1 = fr.fctx1 := by
  unfold Frame.setGpr; split <;> rfl
@[simp] theorem Frame.setCap_fctx1 (fr : Frame) (r : BitVec 4) (v : Cap) : (fr.setCap r v).fctx1 = fr.fctx1 := by
  unfold Frame.setCap; split <;> rfl
@[simp] theorem Frame.setMask_fctx1 (fr : Frame) (r : BitVec 3) (v : Lane) : (fr.setMask r v).fctx1 = fr.fctx1 := by
  unfold Frame.setMask; split <;> rfl
@[simp] theorem Frame.setVreg_fctx1 (fr : Frame) (r : BitVec 5) (v : VReg) : (fr.setVreg r v).fctx1 = fr.fctx1 := rfl
@[simp] theorem Frame.advance_fctx1 (fr : Frame) (n : Nat) : (fr.advance n).fctx1 = fr.fctx1 := rfl
@[simp] theorem Frame.setGpr_state (fr : Frame) (r : BitVec 5) (v : Word) : (fr.setGpr r v).state = fr.state := by
  unfold Frame.setGpr; split <;> rfl
@[simp] theorem Frame.setCap_state (fr : Frame) (r : BitVec 4) (v : Cap) : (fr.setCap r v).state = fr.state := by
  unfold Frame.setCap; split <;> rfl
@[simp] theorem Frame.setMask_state (fr : Frame) (r : BitVec 3) (v : Lane) : (fr.setMask r v).state = fr.state := by
  unfold Frame.setMask; split <;> rfl
@[simp] theorem Frame.setVreg_state (fr : Frame) (r : BitVec 5) (v : VReg) : (fr.setVreg r v).state = fr.state := rfl
@[simp] theorem Frame.advance_state (fr : Frame) (n : Nat) : (fr.advance n).state = fr.state := rfl
@[simp] theorem Frame.setGpr_ready (fr : Frame) (r : BitVec 5) (v : Word) : (fr.setGpr r v).ready = fr.ready := by
  unfold Frame.setGpr; split <;> rfl
@[simp] theorem Frame.setCap_ready (fr : Frame) (r : BitVec 4) (v : Cap) : (fr.setCap r v).ready = fr.ready := by
  unfold Frame.setCap; split <;> rfl
@[simp] theorem Frame.setMask_ready (fr : Frame) (r : BitVec 3) (v : Lane) : (fr.setMask r v).ready = fr.ready := by
  unfold Frame.setMask; split <;> rfl
@[simp] theorem Frame.setVreg_ready (fr : Frame) (r : BitVec 5) (v : VReg) : (fr.setVreg r v).ready = fr.ready := rfl
@[simp] theorem Frame.advance_ready (fr : Frame) (n : Nat) : (fr.advance n).ready = fr.ready := rfl
@[simp] theorem Frame.setGpr_park (fr : Frame) (r : BitVec 5) (v : Word) : (fr.setGpr r v).park = fr.park := by
  unfold Frame.setGpr; split <;> rfl
@[simp] theorem Frame.setCap_park (fr : Frame) (r : BitVec 4) (v : Cap) : (fr.setCap r v).park = fr.park := by
  unfold Frame.setCap; split <;> rfl
@[simp] theorem Frame.setMask_park (fr : Frame) (r : BitVec 3) (v : Lane) : (fr.setMask r v).park = fr.park := by
  unfold Frame.setMask; split <;> rfl
@[simp] theorem Frame.setVreg_park (fr : Frame) (r : BitVec 5) (v : VReg) : (fr.setVreg r v).park = fr.park := rfl
@[simp] theorem Frame.advance_park (fr : Frame) (n : Nat) : (fr.advance n).park = fr.park := rfl
@[simp] theorem Frame.setGpr_wait (fr : Frame) (r : BitVec 5) (v : Word) : (fr.setGpr r v).wait = fr.wait := by
  unfold Frame.setGpr; split <;> rfl
@[simp] theorem Frame.setCap_wait (fr : Frame) (r : BitVec 4) (v : Cap) : (fr.setCap r v).wait = fr.wait := by
  unfold Frame.setCap; split <;> rfl
@[simp] theorem Frame.setMask_wait (fr : Frame) (r : BitVec 3) (v : Lane) : (fr.setMask r v).wait = fr.wait := by
  unfold Frame.setMask; split <;> rfl
@[simp] theorem Frame.setVreg_wait (fr : Frame) (r : BitVec 5) (v : VReg) : (fr.setVreg r v).wait = fr.wait := rfl
@[simp] theorem Frame.advance_wait (fr : Frame) (n : Nat) : (fr.advance n).wait = fr.wait := rfl
@[simp] theorem Frame.setGpr_entering (fr : Frame) (r : BitVec 5) (v : Word) : (fr.setGpr r v).entering = fr.entering := by
  unfold Frame.setGpr; split <;> rfl
@[simp] theorem Frame.setCap_entering (fr : Frame) (r : BitVec 4) (v : Cap) : (fr.setCap r v).entering = fr.entering := by
  unfold Frame.setCap; split <;> rfl
@[simp] theorem Frame.setMask_entering (fr : Frame) (r : BitVec 3) (v : Lane) : (fr.setMask r v).entering = fr.entering := by
  unfold Frame.setMask; split <;> rfl
@[simp] theorem Frame.setVreg_entering (fr : Frame) (r : BitVec 5) (v : VReg) : (fr.setVreg r v).entering = fr.entering := rfl
@[simp] theorem Frame.advance_entering (fr : Frame) (n : Nat) : (fr.advance n).entering = fr.entering := rfl
@[simp] theorem Frame.setGpr_txSlot (fr : Frame) (r : BitVec 5) (v : Word) : (fr.setGpr r v).txSlot = fr.txSlot := by
  unfold Frame.setGpr; split <;> rfl
@[simp] theorem Frame.setCap_txSlot (fr : Frame) (r : BitVec 4) (v : Cap) : (fr.setCap r v).txSlot = fr.txSlot := by
  unfold Frame.setCap; split <;> rfl
@[simp] theorem Frame.setMask_txSlot (fr : Frame) (r : BitVec 3) (v : Lane) : (fr.setMask r v).txSlot = fr.txSlot := by
  unfold Frame.setMask; split <;> rfl
@[simp] theorem Frame.setVreg_txSlot (fr : Frame) (r : BitVec 5) (v : VReg) : (fr.setVreg r v).txSlot = fr.txSlot := rfl
@[simp] theorem Frame.advance_txSlot (fr : Frame) (n : Nat) : (fr.advance n).txSlot = fr.txSlot := rfl
@[simp] theorem Frame.setGpr_txEntry (fr : Frame) (r : BitVec 5) (v : Word) : (fr.setGpr r v).txEntry = fr.txEntry := by
  unfold Frame.setGpr; split <;> rfl
@[simp] theorem Frame.setCap_txEntry (fr : Frame) (r : BitVec 4) (v : Cap) : (fr.setCap r v).txEntry = fr.txEntry := by
  unfold Frame.setCap; split <;> rfl
@[simp] theorem Frame.setMask_txEntry (fr : Frame) (r : BitVec 3) (v : Lane) : (fr.setMask r v).txEntry = fr.txEntry := by
  unfold Frame.setMask; split <;> rfl
@[simp] theorem Frame.setVreg_txEntry (fr : Frame) (r : BitVec 5) (v : VReg) : (fr.setVreg r v).txEntry = fr.txEntry := rfl
@[simp] theorem Frame.advance_txEntry (fr : Frame) (n : Nat) : (fr.advance n).txEntry = fr.txEntry := rfl
@[simp] theorem Frame.setGpr_relStores (fr : Frame) (r : BitVec 5) (v : Word) : (fr.setGpr r v).relStores = fr.relStores := by
  unfold Frame.setGpr; split <;> rfl
@[simp] theorem Frame.setCap_relStores (fr : Frame) (r : BitVec 4) (v : Cap) : (fr.setCap r v).relStores = fr.relStores := by
  unfold Frame.setCap; split <;> rfl
@[simp] theorem Frame.setMask_relStores (fr : Frame) (r : BitVec 3) (v : Lane) : (fr.setMask r v).relStores = fr.relStores := by
  unfold Frame.setMask; split <;> rfl
@[simp] theorem Frame.setVreg_relStores (fr : Frame) (r : BitVec 5) (v : VReg) : (fr.setVreg r v).relStores = fr.relStores := rfl
@[simp] theorem Frame.advance_relStores (fr : Frame) (n : Nat) : (fr.advance n).relStores = fr.relStores := rfl
@[simp] theorem Frame.setGpr_posted (fr : Frame) (r : BitVec 5) (v : Word) : (fr.setGpr r v).posted = fr.posted := by
  unfold Frame.setGpr; split <;> rfl
@[simp] theorem Frame.setCap_posted (fr : Frame) (r : BitVec 4) (v : Cap) : (fr.setCap r v).posted = fr.posted := by
  unfold Frame.setCap; split <;> rfl
@[simp] theorem Frame.setMask_posted (fr : Frame) (r : BitVec 3) (v : Lane) : (fr.setMask r v).posted = fr.posted := by
  unfold Frame.setMask; split <;> rfl
@[simp] theorem Frame.setVreg_posted (fr : Frame) (r : BitVec 5) (v : VReg) : (fr.setVreg r v).posted = fr.posted := rfl
@[simp] theorem Frame.advance_posted (fr : Frame) (n : Nat) : (fr.advance n).posted = fr.posted := rfl
@[simp] theorem Frame.setGpr_act (fr : Frame) (r : BitVec 5) (v : Word) : (fr.setGpr r v).act = fr.act := by
  unfold Frame.setGpr; split <;> rfl
@[simp] theorem Frame.setCap_act (fr : Frame) (r : BitVec 4) (v : Cap) : (fr.setCap r v).act = fr.act := by
  unfold Frame.setCap; split <;> rfl
@[simp] theorem Frame.setMask_act (fr : Frame) (r : BitVec 3) (v : Lane) : (fr.setMask r v).act = fr.act := by
  unfold Frame.setMask; split <;> rfl
@[simp] theorem Frame.setVreg_act (fr : Frame) (r : BitVec 5) (v : VReg) : (fr.setVreg r v).act = fr.act := rfl
@[simp] theorem Frame.advance_act (fr : Frame) (n : Nat) : (fr.advance n).act = fr.act := rfl
@[simp] theorem Frame.setGpr_trap (fr : Frame) (r : BitVec 5) (v : Word) : (fr.setGpr r v).trap = fr.trap := by
  unfold Frame.setGpr; split <;> rfl
@[simp] theorem Frame.setCap_trap (fr : Frame) (r : BitVec 4) (v : Cap) : (fr.setCap r v).trap = fr.trap := by
  unfold Frame.setCap; split <;> rfl
@[simp] theorem Frame.setMask_trap (fr : Frame) (r : BitVec 3) (v : Lane) : (fr.setMask r v).trap = fr.trap := by
  unfold Frame.setMask; split <;> rfl
@[simp] theorem Frame.setVreg_trap (fr : Frame) (r : BitVec 5) (v : VReg) : (fr.setVreg r v).trap = fr.trap := rfl
@[simp] theorem Frame.advance_trap (fr : Frame) (n : Nat) : (fr.advance n).trap = fr.trap := rfl
@[simp] theorem Frame.setGpr_saved (fr : Frame) (r : BitVec 5) (v : Word) : (fr.setGpr r v).saved = fr.saved := by
  unfold Frame.setGpr; split <;> rfl
@[simp] theorem Frame.setCap_saved (fr : Frame) (r : BitVec 4) (v : Cap) : (fr.setCap r v).saved = fr.saved := by
  unfold Frame.setCap; split <;> rfl
@[simp] theorem Frame.setMask_saved (fr : Frame) (r : BitVec 3) (v : Lane) : (fr.setMask r v).saved = fr.saved := by
  unfold Frame.setMask; split <;> rfl
@[simp] theorem Frame.setVreg_saved (fr : Frame) (r : BitVec 5) (v : VReg) : (fr.setVreg r v).saved = fr.saved := rfl
@[simp] theorem Frame.advance_saved (fr : Frame) (n : Nat) : (fr.advance n).saved = fr.saved := rfl
@[simp] theorem Frame.setGpr_faultSeq (fr : Frame) (r : BitVec 5) (v : Word) : (fr.setGpr r v).faultSeq = fr.faultSeq := by
  unfold Frame.setGpr; split <;> rfl
@[simp] theorem Frame.setCap_faultSeq (fr : Frame) (r : BitVec 4) (v : Cap) : (fr.setCap r v).faultSeq = fr.faultSeq := by
  unfold Frame.setCap; split <;> rfl
@[simp] theorem Frame.setMask_faultSeq (fr : Frame) (r : BitVec 3) (v : Lane) : (fr.setMask r v).faultSeq = fr.faultSeq := by
  unfold Frame.setMask; split <;> rfl
@[simp] theorem Frame.setVreg_faultSeq (fr : Frame) (r : BitVec 5) (v : VReg) : (fr.setVreg r v).faultSeq = fr.faultSeq := rfl
@[simp] theorem Frame.advance_faultSeq (fr : Frame) (n : Nat) : (fr.advance n).faultSeq = fr.faultSeq := rfl
@[simp] theorem Frame.setGpr_pauseTo (fr : Frame) (r : BitVec 5) (v : Word) : (fr.setGpr r v).pauseTo = fr.pauseTo := by
  unfold Frame.setGpr; split <;> rfl
@[simp] theorem Frame.setCap_pauseTo (fr : Frame) (r : BitVec 4) (v : Cap) : (fr.setCap r v).pauseTo = fr.pauseTo := by
  unfold Frame.setCap; split <;> rfl
@[simp] theorem Frame.setMask_pauseTo (fr : Frame) (r : BitVec 3) (v : Lane) : (fr.setMask r v).pauseTo = fr.pauseTo := by
  unfold Frame.setMask; split <;> rfl
@[simp] theorem Frame.setVreg_pauseTo (fr : Frame) (r : BitVec 5) (v : VReg) : (fr.setVreg r v).pauseTo = fr.pauseTo := rfl
@[simp] theorem Frame.advance_pauseTo (fr : Frame) (n : Nat) : (fr.advance n).pauseTo = fr.pauseTo := rfl

end Sys2Proof.Machine
end

