-- ==== Sys2Proof/Laws/Ops.lean ====
section
/-! SUPPORT. Laws of the named operations: maps, cores and frames, registers, and how an instruction's result reads back. -/
namespace Sys2Proof.Machine

/-! ### Maps -/

@[simp] theorem look_put_same {α : Type} (m : List (Nat × α)) (k : Nat) (v : α) : look (put m k v) k = some v := by
  induction m with
  | nil => simp [put, look]
  | cons p m ih =>
    obtain ⟨i, w⟩ := p
    by_cases h1 : k < i
    · simp [put, look, h1]
    · by_cases h2 : k = i
      · simp [put, look, h2]
      · simp [put, look, h1, h2, Ne.symm h2, ih]

theorem look_put_ne {α : Type} (m : List (Nat × α)) {k j : Nat} (v : α) (h : j ≠ k) : look (put m k v) j = look m j := by
  induction m with
  | nil => simp [put, look, Ne.symm h]
  | cons p m ih =>
    obtain ⟨i, w⟩ := p
    by_cases h1 : k < i
    · simp [put, look, h1, Ne.symm h]
    · by_cases h2 : k = i
      · subst h2; simp [put, look, Ne.symm h]
      · simp only [put, h1, h2, if_false, look, ih]

/-! ### Cores and frames -/

@[simp] theorem State.coreAt_setCore_same (s : State) (n : Nat) (c : Core) : (s.setCore n c).coreAt n = c := by
  simp [State.coreAt]

theorem State.coreAt_setCore_ne (s : State) {n k : Nat} (c : Core) (h : k ≠ n) : (s.setCore n c).coreAt k = s.coreAt k := by
  simp [State.coreAt, look_put_ne _ _ h]

@[simp] theorem Core.frameAt_setFrame_same (c : Core) (f : Nat) (fr : Frame) (h : f < 11) :
    (c.setFrame f fr).frameAt f = fr := by
  simp [Core.frameAt, h]

theorem Core.frameAt_setFrame_ne (c : Core) {f g : Nat} (fr : Frame) (h : g ≠ f) :
    (c.setFrame f fr).frameAt g = c.frameAt g := by
  simp [Core.frameAt, Ne.symm h]

@[simp] theorem State.frameAt_setFrame_same (s : State) (n f : Nat) (fr : Frame) (h : f < 11) :
    (s.setFrame n f fr).frameAt n f = fr := by
  simp [State.frameAt, State.coreAt, h]

theorem State.frameAt_setFrame_ne (s : State) {n f g : Nat} (fr : Frame) (h : g ≠ f) :
    (s.setFrame n f fr).frameAt n g = s.frameAt n g := by
  simp only [State.frameAt, State.coreAt, State.setFrame_cores, look_put_same, Option.getD_some]
  exact Core.frameAt_setFrame_ne _ fr h

theorem State.coreAt_setFrame_ne (s : State) {n k : Nat} (f : Nat) (fr : Frame) (h : k ≠ n) :
    (s.setFrame n f fr).coreAt k = s.coreAt k := by
  simp [State.coreAt, look_put_ne _ _ h]

@[simp] theorem State.coreAt_setFrame_same (s : State) (n f : Nat) (fr : Frame) :
    (s.setFrame n f fr).coreAt n = (s.coreAt n).setFrame f fr := by
  simp [State.coreAt]

@[simp] theorem State.cur_setCur (s : State) (fr : Frame) (h : s.frame < 11) : (s.setCur fr).cur = fr := by
  simp [State.cur, State.frameAt, State.setCur, h]

theorem State.coreAt_setCur_ne (s : State) (fr : Frame) {k : Nat} (h : k ≠ s.core) :
    (s.setCur fr).coreAt k = s.coreAt k := State.coreAt_setFrame_ne s _ fr h

theorem State.frameAt_setCur_ne (s : State) (fr : Frame) {g : Nat} (h : g ≠ s.frame) :
    (s.setCur fr).frameAt s.core g = s.frameAt s.core g := State.frameAt_setFrame_ne s fr h

/-! ### Registers -/

@[simp] theorem Frame.gpr_zero (fr : Frame) : fr.gpr 0 = 0 := by simp [Frame.gpr]

theorem Frame.gpr_setGpr_same (fr : Frame) (r : BitVec 5) (v : Word) : (fr.setGpr r v).gpr r = if r = 0 then 0 else v := by
  unfold Frame.gpr Frame.setGpr
  split <;> simp_all

theorem Frame.gpr_setGpr_ne (fr : Frame) {r q : BitVec 5} (v : Word) (h : q ≠ r) : (fr.setGpr r v).gpr q = fr.gpr q := by
  have hn : r.toNat ≠ q.toNat := fun e => h (BitVec.eq_of_toNat_eq e.symm)
  unfold Frame.gpr Frame.setGpr
  split
  · rfl
  · split
    · rfl
    · rw [Vector.getElem_set_ne]; exact hn

@[simp] theorem Frame.gpr_advance (fr : Frame) (n : Nat) (r : BitVec 5) : (fr.advance n).gpr r = fr.gpr r := rfl

@[simp] theorem Frame.cap_zero (fr : Frame) : fr.cap 0 = Cap.null := by simp [Frame.cap]

theorem Frame.cap_setCap_same (fr : Frame) (r : BitVec 4) (v : Cap) :
    (fr.setCap r v).cap r = if r = 0 then Cap.null else v := by
  unfold Frame.cap Frame.setCap
  split <;> simp_all

theorem Frame.cap_setCap_ne (fr : Frame) {r q : BitVec 4} (v : Cap) (h : q ≠ r) : (fr.setCap r v).cap q = fr.cap q := by
  have hn : r.toNat ≠ q.toNat := fun e => h (BitVec.eq_of_toNat_eq e.symm)
  unfold Frame.cap Frame.setCap
  split
  · rfl
  · split
    · rfl
    · rw [Vector.getElem_set_ne]; exact hn

@[simp] theorem Frame.vreg_setVreg_same (fr : Frame) (r : BitVec 5) (v : VReg) : (fr.setVreg r v).vreg r = v := by
  simp [Frame.vreg, Frame.setVreg]

theorem Frame.vreg_setVreg_ne (fr : Frame) {r q : BitVec 5} (v : VReg) (h : q ≠ r) : (fr.setVreg r v).vreg q = fr.vreg q := by
  have hn : r.toNat ≠ q.toNat := fun e => h (BitVec.eq_of_toNat_eq e.symm)
  unfold Frame.vreg Frame.setVreg
  rw [Vector.getElem_set_ne]; exact hn

/-- The lane of a guarded result. -/
theorem Frame.lanewise_lane (fr : Frame) (k : BitVec 3) (old : VReg) (f : Nat → Lane) (l : Nat) (h : l < 32) :
    lane (fr.lanewise k old f) l = if fr.guards k l then f l else lane old l := by
  simp [lane, Frame.lanewise, h]

/-! ### Link values (R141) -/

@[simp] theorem linkValue_off (v : BitVec 8) (m : BitVec 24) (o : BitVec 32) : (linkValue v m o).extractLsb' 0 32 = o := by
  unfold linkValue
  apply BitVec.eq_of_toNat_eq
  simp only [BitVec.extractLsb'_toNat, BitVec.toNat_append, Nat.shiftRight_zero]
  have := o.isLt
  rw [← Nat.shiftLeft_add_eq_or_of_lt o.isLt, Nat.shiftLeft_eq]
  omega

@[simp] theorem linkValue_mod (v : BitVec 8) (m : BitVec 24) (o : BitVec 32) : (linkValue v m o).extractLsb' 32 24 = m := by
  unfold linkValue
  apply BitVec.eq_of_toNat_eq
  simp only [BitVec.extractLsb'_toNat, BitVec.toNat_append]
  have := o.isLt; have := m.isLt
  rw [← Nat.shiftLeft_add_eq_or_of_lt o.isLt, ← Nat.shiftLeft_add_eq_or_of_lt m.isLt, Nat.shiftLeft_eq, Nat.shiftLeft_eq,
    Nat.shiftRight_eq_div_pow]
  omega

@[simp] theorem linkValue_ver (v : BitVec 8) (m : BitVec 24) (o : BitVec 32) : (linkValue v m o).extractLsb' 56 8 = v := by
  unfold linkValue
  apply BitVec.eq_of_toNat_eq
  simp only [BitVec.extractLsb'_toNat, BitVec.toNat_append]
  have := o.isLt; have := m.isLt; have := v.isLt
  rw [← Nat.shiftLeft_add_eq_or_of_lt o.isLt, ← Nat.shiftLeft_add_eq_or_of_lt m.isLt, Nat.shiftLeft_eq, Nat.shiftLeft_eq,
    Nat.shiftRight_eq_div_pow]
  omega

/-! ### Results -/

@[simp] theorem State.cur_writeG (s : State) (d : BitVec 5) (v : Word) (n : Nat) (h : s.frame < 11) :
    (s.writeG d v n).cur = (s.cur.setGpr d v).advance n := by
  simp [State.writeG, h]

@[simp] theorem State.cur_writeC (s : State) (d : BitVec 4) (v : Cap) (n : Nat) (h : s.frame < 11) :
    (s.writeC d v n).cur = (s.cur.setCap d v).advance n := by
  simp [State.writeC, h]

@[simp] theorem State.cur_writeV (s : State) (d : BitVec 5) (v : VReg) (n : Nat) (h : s.frame < 11) :
    (s.writeV d v n).cur = (s.cur.setVreg d v).advance n := by
  simp [State.writeV, h]

@[simp] theorem State.cur_skip (s : State) (n : Nat) (h : s.frame < 11) : (s.skip n).cur = s.cur.advance n := by
  simp [State.skip, h]

@[simp] theorem State.cur_jump (s : State) (pc : BitVec 32) (h : s.frame < 11) :
    (s.jump pc).cur = { s.cur with pc := pc } := by
  simp [State.jump, h]

@[simp] theorem State.finish_ok (s t : State) : s.finish (.ok t) = .next t := rfl

@[simp] theorem State.finish_trap (s : State) (c : BitVec 8) (e : Word) :
    s.finish (.error (.trap c e)) = .next (s.raise s.core s.frame c e) := rfl

@[simp] theorem State.finish_park (s : State) (p : Park) :
    s.finish (.error (.park p)) = .next (s.parkFrame s.core s.frame p) := rfl

@[simp] theorem State.finish_wait (s : State) (w : Wait) :
    s.finish (.error (.wait w)) = .next (s.waitHere s.core s.frame w) := rfl

@[simp] theorem State.finish_page (s : State) (p : PageFault) :
    s.finish (.error (.page p)) = .next (s.pageFault s.core s.frame p) := rfl

/-- An instruction never refuses through finish, and its only fault is an address that does not exist. -/
theorem State.finish_cases (s : State) (r : Res State) :
    (∃ t, s.finish r = .next t) ∨ (∃ a, s.finish r = .fault (.hole a)) := by
  rcases r with e | t
  · cases e <;> simp [State.finish, State.stop]
  · simp

end Sys2Proof.Machine
end

