-- ==== Sys2Proof/Laws/Memory.lean ====
section
/-! SUPPORT. Laws of the memory: a byte written reads back, every other byte stands, and every operation keeps the
canonical form, in which equal memories are equal lists. -/
namespace Sys2Proof.Machine

/-- Every listed address lies above a bound. -/
def above (a : Nat) (m : List Host.Cell) : Prop := ∀ c ∈ m, a < c.1

theorem memWf_cons (a : Nat) (b : Byte) (m : List Host.Cell) :
    memWf ((a, b) :: m) = true ↔ b ≠ unlisted ∧ above a m ∧ memWf m = true := by
  induction m generalizing a b with
  | nil => simp [memWf, above]
  | cons p m ih =>
    obtain ⟨i, w⟩ := p
    have h := ih i w
    simp only [memWf, Bool.and_eq_true, decide_eq_true_eq] at h ⊢
    constructor
    · rintro ⟨⟨h1, h2⟩, h3⟩
      refine ⟨h1, ?_, h3⟩
      have hi := (h.1 h3).2.1
      intro c hc
      rcases List.mem_cons.1 hc with rfl | hc
      · exact h2
      · exact Nat.lt_trans h2 (hi c hc)
    · rintro ⟨h1, h2, h3⟩
      exact ⟨⟨h1, h2 (i, w) (by simp)⟩, h3⟩

theorem memGet_above {a : Nat} {m : List Host.Cell} (h : above a m) {x : Nat} (hx : x ≤ a) : memGet m x = unlisted := by
  cases m with
  | nil => rfl
  | cons p m =>
    have := h p (by simp)
    simp only [memGet]
    rw [if_neg (by omega), if_pos (by omega)]

theorem memSet_above {a x : Nat} {m : List Host.Cell} (v : Byte) (h : above a m) (hx : a < x) : above a (memSet m x v) := by
  induction m with
  | nil => intro c hc; simp only [memSet] at hc; split at hc <;> simp_all
  | cons p m ih =>
    obtain ⟨i, w⟩ := p
    have hm : above a m := fun c hc => h c (by simp [hc])
    have hi : a < i := h (i, w) (by simp)
    intro c hc
    simp only [memSet] at hc
    split at hc
    · split at hc
      · exact h c hc
      · rcases List.mem_cons.1 hc with rfl | hc
        · exact hx
        · exact h c hc
    · split at hc
      · split at hc
        · exact hm c hc
        · rcases List.mem_cons.1 hc with rfl | hc
          · exact hi
          · exact hm c hc
      · rcases List.mem_cons.1 hc with rfl | hc
        · exact hi
        · exact ih hm c hc

/-- Writing one byte keeps the canonical form. -/
theorem memSet_wf {m : List Host.Cell} (h : memWf m = true) (a : Nat) (v : Byte) : memWf (memSet m a v) = true := by
  induction m with
  | nil => simp only [memSet]; split <;> simp_all [memWf]
  | cons p m ih =>
    obtain ⟨i, w⟩ := p
    obtain ⟨hw, ha, hm⟩ := (memWf_cons i w m).1 h
    simp only [memSet]
    split
    · split
      · exact h
      · refine (memWf_cons _ _ _).2 ⟨‹_›, ?_, h⟩
        intro c hc
        rcases List.mem_cons.1 hc with rfl | hc
        · assumption
        · exact Nat.lt_trans ‹a < i› (ha c hc)
    · split
      · split
        · exact hm
        · exact (memWf_cons _ _ _).2 ⟨‹_›, ha, hm⟩
      · exact (memWf_cons _ _ _).2 ⟨hw, memSet_above v ha (by omega), ih hm⟩

/-- A byte written reads back. -/
theorem memGet_memSet_same {m : List Host.Cell} (h : memWf m = true) (a : Nat) (v : Byte) : memGet (memSet m a v) a = v := by
  induction m with
  | nil => simp only [memSet]; split <;> simp_all [memGet]
  | cons p m ih =>
    obtain ⟨i, w⟩ := p
    obtain ⟨hw, ha, hm⟩ := (memWf_cons i w m).1 h
    simp only [memSet]
    split
    · split
      · rw [memGet, if_neg (by omega), if_pos (by omega)]; exact ‹v = unlisted›.symm
      · simp [memGet]
    · split
      · subst ‹a = i›
        split
        · rw [memGet_above ha (Nat.le_refl _)]; exact ‹v = unlisted›.symm
        · simp [memGet]
      · rw [memGet, if_neg (by omega), if_neg (by omega)]
        exact ih hm

/-- Every other byte stands. -/
theorem memGet_memSet_ne {m : List Host.Cell} (h : memWf m = true) {a x : Nat} (v : Byte) (hx : x ≠ a) :
    memGet (memSet m a v) x = memGet m x := by
  induction m with
  | nil => simp only [memSet]; split <;> simp [memGet, hx]
  | cons p m ih =>
    obtain ⟨i, w⟩ := p
    obtain ⟨hw, ha, hm⟩ := (memWf_cons i w m).1 h
    simp only [memSet]
    split
    · split
      · rfl
      · simp only [memGet, if_neg hx]
        split
        · rw [if_neg (by omega), if_pos (by omega)]
        · rfl
    · split
      · subst ‹a = i›
        split
        · simp only [memGet, if_neg hx]
          split
          · rw [memGet_above ha (by omega)]
          · rfl
        · simp only [memGet, if_neg hx]
      · simp only [memGet, ih hm]

/-- Writing bytes keeps the canonical form. -/
theorem memPut_wf (bs : List Byte) : ∀ {m : List Host.Cell}, memWf m = true → ∀ a, memWf (memPut m a bs) = true := by
  induction bs with
  | nil => intro m h a; exact h
  | cons b bs ih => intro m h a; exact ih (memSet_wf h a b) (a + 1)

/-- Bytes outside those written stand. -/
theorem memGet_memPut_ne (bs : List Byte) : ∀ {m : List Host.Cell}, memWf m = true → ∀ {a x : Nat},
    (x < a ∨ a + bs.length ≤ x) → memGet (memPut m a bs) x = memGet m x := by
  induction bs with
  | nil => intros; rfl
  | cons b bs ih =>
    intro m h a x hx
    simp only [List.length_cons] at hx
    rw [memPut, ih (memSet_wf h a b) (by omega), memGet_memSet_ne h _ (by omega)]

/-- Bytes written read back. -/
theorem memGet_memPut_same (bs : List Byte) : ∀ {m : List Host.Cell}, memWf m = true → ∀ {a i : Nat} (hi : i < bs.length),
    memGet (memPut m a bs) (a + i) = bs[i] := by
  induction bs with
  | nil => intro m h a i hi; simp at hi
  | cons b bs ih =>
    intro m h a i hi
    cases i with
    | zero => rw [memPut, memGet_memPut_ne bs (memSet_wf h a b) (by omega)]; simpa using memGet_memSet_same h a b
    | succ i =>
      have := ih (memSet_wf h a b) (a := a + 1) (i := i) (by simpa using hi)
      rw [memPut, List.getElem_cons_succ, ← this]
      congr 1; omega

/-- Taking entries away keeps the canonical form. -/
theorem memFilter_wf (p : Host.Cell → Bool) {m : List Host.Cell} (h : memWf m = true) : memWf (m.filter p) = true := by
  induction m with
  | nil => rfl
  | cons c m ih =>
    obtain ⟨i, w⟩ := c
    obtain ⟨hw, ha, hm⟩ := (memWf_cons i w m).1 h
    simp only [List.filter_cons]
    split
    · exact (memWf_cons _ _ _).2 ⟨hw, fun c hc => ha c (List.mem_filter.1 hc).1, ih hm⟩
    · exact ih hm

/-- Two memories in canonical form that read alike everywhere are equal. -/
theorem mem_ext : ∀ {m n : List Host.Cell}, memWf m = true → memWf n = true → (∀ a, memGet m a = memGet n a) → m = n
  | [], [], _, _, _ => rfl
  | [], (i, w) :: n, _, hn, h => by
    obtain ⟨hw, _, _⟩ := (memWf_cons i w n).1 hn
    exact absurd (by simpa [memGet] using (h i).symm) hw
  | (i, w) :: m, [], hm, _, h => by
    obtain ⟨hw, _, _⟩ := (memWf_cons i w m).1 hm
    exact absurd (by simpa [memGet] using h i) hw
  | (i, w) :: m, (j, x) :: n, hm, hn, h => by
    obtain ⟨hw, ha, hm'⟩ := (memWf_cons i w m).1 hm
    obtain ⟨hx, hb, hn'⟩ := (memWf_cons j x n).1 hn
    have hij : i = j := by
      rcases Nat.lt_trichotomy i j with hl | he | hg
      · have := h i
        rw [memGet, if_pos rfl, memGet, if_neg (by omega), if_pos hl] at this
        exact absurd this hw
      · exact he
      · have := h j
        rw [memGet, if_neg (by omega), if_pos hg, memGet, if_pos rfl] at this
        exact absurd this.symm hx
    subst hij
    have hwx : w = x := by simpa [memGet] using h i
    subst hwx
    have : m = n := mem_ext hm' hn' (fun a => by
      by_cases h1 : a ≤ i
      · rw [memGet_above ha h1, memGet_above hb h1]
      · have := h a
        rw [memGet, if_neg (by omega), if_neg (by omega), memGet, if_neg (by omega), if_neg (by omega)] at this
        exact this)
    rw [this]

/-- Writing bytes through the state keeps the canonical form. -/
theorem State.writeBytes_wf (s : State) (h : memWf s.mem = true) (a : Nat) (bs : List Byte) (c : Option Cap) :
    memWf (s.writeBytes a bs c).mem = true := by
  simpa using memPut_wf bs h a

end Sys2Proof.Machine
end

