-- ==== Sys2Proof/Laws/Frames.lean ====
section
/-! SUPPORT. What an instruction that ends in one of the common ways leaves as it was. -/
namespace Sys2Proof.Machine

/-- A new current frame changes nothing else. -/
theorem elsewhere_setCur (s : State) (fr : Frame) : Elsewhere s (s.setCur fr) where
  rest := rfl
  cores := fun _ h => State.coreAt_setCur_ne s fr h
  frames := fun _ h => State.frameAt_setCur_ne s fr h
  core := by simp [State.setCur, Core.setFrame]
  bytes := fun _ => rfl

theorem pcPast_of (s t : State) (n : Nat) (h : t.cur.pc = s.cur.pc + BitVec.ofNat 32 n) : PcPast n s t := by
  simp [PcPast, h, BitVec.toNat_add]

theorem onlyG_writeG (s : State) (h : s.frame < 11) (d : BitVec 5) (v : Word) (n : Nat) : OnlyG d s (s.writeG d v n) := by
  refine ⟨elsewhere_setCur s _, ?_, fun r hr => ?_⟩
  · rw [State.cur_writeG s d v n h]
    unfold Frame.setGpr Frame.advance
    split <;> rfl
  · rw [State.cur_writeG s d v n h]
    exact Frame.gpr_setGpr_ne _ v hr

/-- An instruction that ends by writing a general register. -/
theorem writesG_of {i : Instr} {s : State} {d : BitVec 5} {v : Word} {n : Nat} (h : s.frame < 11)
    (he : exec i s = .next (s.writeG d v n)) : WritesG i s d v n := by
  refine ⟨_, he, onlyG_writeG s h d v n, ?_, pcPast_of _ _ _ ?_⟩
  · rw [State.cur_writeG s d v n h, Frame.gpr_advance, Frame.gpr_setGpr_same]
  · simp [h]

theorem onlyC_writeC (s : State) (h : s.frame < 11) (d : BitVec 4) (v : Cap) (n : Nat) : OnlyC d s (s.writeC d v n) := by
  refine ⟨elsewhere_setCur s _, ?_, fun r hr => ?_⟩
  · rw [State.cur_writeC s d v n h]
    unfold Frame.setCap Frame.advance
    split <;> rfl
  · rw [State.cur_writeC s d v n h]
    exact Frame.cap_setCap_ne _ v hr

/-- An instruction that ends by writing a capability register. -/
theorem writesC_of {i : Instr} {s : State} {d : BitVec 4} {v : Cap} {n : Nat} (h : s.frame < 11)
    (he : exec i s = .next (s.writeC d v n)) : WritesC i s d v n := by
  refine ⟨_, he, onlyC_writeC s h d v n, ?_, pcPast_of _ _ _ ?_⟩
  · rw [State.cur_writeC s d v n h]
    exact Frame.cap_setCap_same _ d v
  · simp [h]

theorem onlyV_writeV (s : State) (h : s.frame < 11) (d : BitVec 5) (v : VReg) (n : Nat) : OnlyV d s (s.writeV d v n) := by
  refine ⟨elsewhere_setCur s _, ?_, fun r hr => ?_⟩
  · rw [State.cur_writeV s d v n h]
    rfl
  · rw [State.cur_writeV s d v n h]
    exact Frame.vreg_setVreg_ne _ v hr

/-- An instruction that ends by writing a vector register. -/
theorem writesV_of {i : Instr} {s : State} {d : BitVec 5} {v : VReg} {f : Nat → Lane} {n : Nat} (h : s.frame < 11)
    (he : exec i s = .next (s.writeV d v n)) (hf : ∀ l, l < 32 → lane v l = f l) : WritesV i s d f n := by
  refine ⟨_, he, onlyV_writeV s h d v n, fun l hl => ?_, pcPast_of _ _ _ ?_⟩
  · rw [State.cur_writeV s d v n h]
    exact (congrArg (lane · l) (Frame.vreg_setVreg_same s.cur d v)).trans (hf l hl)
  · simp [h]

theorem onlyPc_setPc (s : State) (h : s.frame < 11) (pc : BitVec 32) : OnlyPc s (s.setCur { s.cur with pc := pc }) := by
  refine ⟨elsewhere_setCur s _, ?_⟩
  rw [State.cur_setCur s _ h]

/-- An instruction that changes the pc alone. -/
theorem passes_of {i : Instr} {s : State} {n : Nat} (h : s.frame < 11) (he : exec i s = .next (s.skip n)) :
    Passes i s n :=
  ⟨_, he, onlyPc_setPc s h _, pcPast_of _ _ _ (by simp [h])⟩

end Sys2Proof.Machine
end

