-- ==== Sys2Proof/Laws/Keys.lean ====
section
/-! SUPPORT. What the memory port keeps (R107, R118, R119): every way in which a tenant's bytes reach memory keeps the canonical form of
memory, and reading through a tenant's key changes nothing. -/
namespace Sys2Proof.Machine

/-- A property that every step of a fold keeps holds at its end. -/
theorem foldl_keeps {α β : Type} (P : β → Prop) (g : β → α → β) (h : ∀ b a, P b → P (g b a)) (l : List α) :
    ∀ b, P b → P (l.foldl g b) := by
  induction l with
  | nil => exact fun b hb => hb
  | cons x l ih => exact fun b hb => ih _ (h b x hb)

theorem memWf_ite {c : Prop} [Decidable c] {s t : State} (hs : memWf s.mem = true) (ht : memWf t.mem = true) :
    memWf (if c then s else t).mem = true := by
  split <;> assumption

@[simp] theorem State.takeNext_mem (s : State) (n : Nat) : (s.takeNext n).mem = s.mem := by
  unfold State.takeNext
  simp only
  split
  · rfl
  · split
    · rfl
    · split <;> rfl

@[simp] theorem State.wakeTrap_mem (s : State) (n f : Nat) (cause : BitVec 8) (eval : Word) : (s.wakeTrap n f cause eval).mem = s.mem := by
  simp [State.wakeTrap]

@[simp] theorem State.sendNotice_mem (s : State) (r : Request) (x : Notice) : (s.sendNotice r x).mem = s.mem := by
  unfold State.sendNotice
  split <;> rfl

@[simp] theorem State.markDirty_mem (s : State) (a : Nat) : (s.markDirty a).mem = s.mem := by
  unfold State.markDirty
  split
  · rfl
  · simp only
    split
    · split <;> rfl
    · rfl

theorem State.takeFrame_wf {s : State} (h : memWf s.mem = true) (k : Nat) (e : PageEntry) : memWf (s.takeFrame k e).mem = true := by
  unfold State.takeFrame
  exact h

theorem State.takePages_wf {s : State} (h : memWf s.mem = true) (k : Nat) (d : Desc) : memWf (s.takePages k d).mem = true := by
  have page : ∀ (s : State) (i : Nat), memWf s.mem = true →
      memWf (if (s.pageEntry (s.ctxAt k) d i).v then s.takeFrame k (s.pageEntry (s.ctxAt k) d i) else s).mem = true := by
    intro s i hs
    exact memWf_ite (State.takeFrame_wf hs _ _) hs
  unfold State.takePages
  split
  · exact h
  · generalize List.range _ = l
    exact foldl_keeps (fun (t : State) => memWf t.mem = true) _ page l s h

theorem State.putMem_wf {s : State} (h : memWf s.mem = true) (a : Nat) (bs : List Byte) :
    memWf ({ s with mem := memPut s.mem a bs } : State).mem = true := memPut_wf bs h a

theorem State.rekey_wf {s : State} (h : memWf s.mem = true) (x : Context) (a n b : Nat) : memWf (s.rekey x a n b).mem = true := by
  unfold State.rekey
  split
  · exact h
  · exact State.putMem_wf h _ _

@[simp] theorem State.keyRange_mem (s : State) (key a n : Nat) : (s.keyRange key a n).mem = s.mem := by
  unfold State.keyRange
  simp only
  split <;> rfl

/-- The blocks under a write come under the writer's key, and memory keeps its form (R118). -/
theorem State.encrypt_wf {s : State} (h : memWf s.mem = true) (k a n : Nat) : memWf (s.encrypt k a n).mem = true := by
  unfold State.encrypt
  refine memWf_ite h ?_
  rw [State.keyRange_mem]
  exact foldl_keeps (fun (t : State) => memWf t.mem = true) _ (fun t b ht => State.rekey_wf ht _ _ _ b) _ s h

theorem State.setDie_wf {s : State} (h : memWf s.mem = true) (die : Nat) (d : Die) : memWf (s.setDie die d).mem = true := h

theorem hotSections_wf {m : List Host.Cell} (h : memWf m = true) (a : Nat) : memWf (hotSections m a) = true := by
  unfold hotSections
  exact memPut_wf _ (memPut_wf _ (memPut_wf _ (memFilter_wf _ h) _) _) _

theorem State.layHot_wf {s : State} (h : memWf s.mem = true) (a : Nat) : memWf (s.layHot a).mem = true := hotSections_wf h a

@[simp] theorem State.dropHot_mem (s : State) (k : Nat) (oid : BitVec 40) : (s.dropHot k oid).mem = s.mem := rfl

theorem State.hotReset_wf {s : State} (h : memWf s.mem = true) (k : Nat) (d : Desc) : memWf (s.hotReset k d).mem = true := by
  unfold State.hotReset
  split
  · exact State.layHot_wf (State.encrypt_wf h _ _ _) _
  · exact h

/-- The store of a page-map entry has its effects and memory keeps its form (R119). -/
theorem State.entryStored_wf {s : State} (h : memWf s.mem = true) (k : Nat) (d : Desc) (page : Nat) (old : PageEntry) :
    memWf (s.entryStored k d page old).mem = true := by
  have owned : ∀ (o : List (Nat × Nat)), memWf ({ s with pageOwner := o } : State).mem = true := fun _ => h
  have rest : ∀ (t : State) (l : List (Nat × Die)), memWf t.mem = true → memWf ({ t with dies := l } : State).mem = true := fun _ _ h => h
  have taken : ∀ (b c : Bool) (new : PageEntry), memWf (if b then s.takeFrame k new else
      if c then { s with pageOwner := put s.pageOwner (frameNo new) k } else s).mem = true :=
    fun _ _ _ => memWf_ite (State.takeFrame_wf h _ _) (memWf_ite (owned _) h)
  unfold State.entryStored
  exact memWf_ite (rest _ _ (memWf_ite (State.hotReset_wf (taken _ _ _) k d) (taken _ _ _)))
    (memWf_ite (State.hotReset_wf (taken _ _ _) k d) (taken _ _ _))

/-- The store of a descriptor has its effects and memory keeps its form (R115, R119, R334). -/
theorem State.descStored_wf {s : State} (h : memWf s.mem = true) (k i : Nat) (wasLive : Bool) :
    memWf (s.descStored k i wasLive).mem = true := by
  have first : ∀ (b : Bool) (x : Context) (d : Desc), memWf (if b then (s.setCtx k x).takePages k d else s).mem = true := by
    exact fun b x d => memWf_ite (State.takePages_wf (s := s.setCtx k x) h k d) h
  have waits : ∀ (t : State) (l : List Request), memWf t.mem = true → memWf ({ t with barWaits := l } : State).mem = true := fun _ _ h => h
  unfold State.descStored
  simp only
  split
  · exact State.hotReset_wf (State.setDie_wf (first _ _ _) _ _) _ _
  · split
    · refine foldl_keeps (fun (t : State) => memWf t.mem = true) _ (fun t p ht => ?_) _ _ ?_
      · split
        · split
          · rw [State.wakeTrap_mem]
            exact ht
          · exact ht
        · exact ht
      · refine foldl_keeps (fun (t : State) => memWf t.mem = true) _ (fun t r ht => ?_) _ _ (waits _ _ (first _ _ _))
        rw [State.sendNotice_mem]
        exact ht
    · exact first _ _ _

theorem State.rootWrite_wf {s : State} (h : memWf s.mem = true) (x : Context) (b : Nat) : memWf (s.rootWrite x b).mem = true := by
  unfold State.rootWrite
  exact memWf_ite h (s.writeBytes_wf h _ _ _)

/-- Every store of software keeps the form of memory (R99, R107). -/
theorem State.performBytes_wf {s : State} (h : memWf s.mem = true) (a : Nat) (bs : List Byte) (cap : Option Cap) :
    memWf (s.performBytes a bs cap).mem = true := by
  unfold State.performBytes
  split
  · rw [State.markDirty_mem]
    exact s.writeBytes_wf h a bs cap
  · split
    · have w := s.writeBytes_wf h a bs cap
      refine memWf_ite ?_ ?_ <;> rw [State.markDirty_mem]
      · exact w
      · exact State.descStored_wf (State.rootWrite_wf w _ _) _ _ _
    · refine foldl_keeps (fun (t : State) => memWf t.mem = true) _ (fun t q ht => State.entryStored_wf ht _ _ _ _) _ _ ?_
      rw [State.markDirty_mem]
      exact s.writeBytes_wf h a bs cap

theorem State.performFor_wf {s : State} (h : memWf s.mem = true) (k a : Nat) (bs : List Byte) (cap : Option Cap) :
    memWf (s.performFor k a bs cap).mem = true := State.performBytes_wf (State.encrypt_wf h k a bs.length) a bs cap

/-- An atomic keeps the form of memory (R328). -/
theorem State.atomicAt_wf {s : State} (h : memWf s.mem = true) (k a : Nat) (op : BitVec 5) (wide : Bool) (e x : Word) :
    memWf (s.atomicAt k a op wide e x).2.mem = true := by
  unfold State.atomicAt
  simp only
  split
  · exact h
  · exact State.performFor_wf h k a _ none

/-- Where no key stands between a tenant and some bytes it reads what memory holds (R118): outside the encrypted tiers, and in blocks
that stand under its own key. -/
theorem State.ctxBytes_open (s : State) (x : Context) (a n : Nat) (h : ∀ i, i < n → 2 ^ 42 ≤ a + i ∨ s.mine x ((a + i) / 64) = true) :
    s.ctxBytes x a n = memBytes s.mem a n := by
  unfold State.ctxBytes memBytes
  refine List.map_congr_left (fun i hi => ?_)
  unfold State.ctxByte
  rw [if_pos (by simpa using h i (List.mem_range.1 hi))]

theorem State.plain_open (s : State) (k a n : Nat) (h : ∀ i, i < n → 2 ^ 42 ≤ a + i ∨ s.mine (s.ctxAt k) ((a + i) / 64) = true) :
    s.plain k a n = memBytes s.mem a n := s.ctxBytes_open _ a n h

end Sys2Proof.Machine
end

