-- ==== Sys2Proof/Laws/PerInstr.lean ====
section
/-! SUPPORT. The decoder reads back every word the encoder makes: one lemma for each constructor. -/
namespace Sys2Proof.Laws.RoundTrip

/-- A well-formed instruction that has an encoding is what the decoder reads from its bytes. -/
def Statement (i : Instr) : Prop :=
  i.wf = true → i.size ≠ 0 → decodeBytes (leBytes i.size (encode i)) = .ok (i, i.size)

theorem add (w : BitVec 1) (b : BitVec 5) (a : BitVec 5) (d : BitVec 5) : Statement (.add w b a d) := by
  intro hwf _
  have hw := w.isLt
  have hb := b.isLt
  have ha := a.isLt
  have hd := d.isLt
  refine decodes32 (Instr.add w b a d) _ _ _ rfl rfl ?_ rfl (by decide) ?_ hwf
  · simp only [layInt, fits, and_true]; omega
  · rw [raw32, (op_join 3 _ (by omega)).1, (op_join 3 _ (by omega)).2]
    simp only []
    rw [fields_join _ _ (by simp only [layInt, fits, and_true]; omega)]
    simp [decInt]

theorem sub (w : BitVec 1) (b : BitVec 5) (a : BitVec 5) (d : BitVec 5) : Statement (.sub w b a d) := by
  intro hwf _
  have hw := w.isLt
  have hb := b.isLt
  have ha := a.isLt
  have hd := d.isLt
  refine decodes32 (Instr.sub w b a d) _ _ _ rfl rfl ?_ rfl (by decide) ?_ hwf
  · simp only [layInt, fits, and_true]; omega
  · rw [raw32, (op_join 3 _ (by omega)).1, (op_join 3 _ (by omega)).2]
    simp only []
    rw [fields_join _ _ (by simp only [layInt, fits, and_true]; omega)]
    simp [decInt]

theorem mul (w : BitVec 1) (b : BitVec 5) (a : BitVec 5) (d : BitVec 5) : Statement (.mul w b a d) := by
  intro hwf _
  have hw := w.isLt
  have hb := b.isLt
  have ha := a.isLt
  have hd := d.isLt
  refine decodes32 (Instr.mul w b a d) _ _ _ rfl rfl ?_ rfl (by decide) ?_ hwf
  · simp only [layInt, fits, and_true]; omega
  · rw [raw32, (op_join 3 _ (by omega)).1, (op_join 3 _ (by omega)).2]
    simp only []
    rw [fields_join _ _ (by simp only [layInt, fits, and_true]; omega)]
    simp [decInt]

theorem mulh (w : BitVec 1) (b : BitVec 5) (a : BitVec 5) (d : BitVec 5) : Statement (.mulh w b a d) := by
  intro hwf _
  have hw := w.isLt
  have hb := b.isLt
  have ha := a.isLt
  have hd := d.isLt
  refine decodes32 (Instr.mulh w b a d) _ _ _ rfl rfl ?_ rfl (by decide) ?_ hwf
  · simp only [layInt, fits, and_true]; omega
  · rw [raw32, (op_join 3 _ (by omega)).1, (op_join 3 _ (by omega)).2]
    simp only []
    rw [fields_join _ _ (by simp only [layInt, fits, and_true]; omega)]
    simp [decInt]

theorem mulhn (w : BitVec 1) (b : BitVec 5) (a : BitVec 5) (d : BitVec 5) : Statement (.mulhn w b a d) := by
  intro hwf _
  have hw := w.isLt
  have hb := b.isLt
  have ha := a.isLt
  have hd := d.isLt
  refine decodes32 (Instr.mulhn w b a d) _ _ _ rfl rfl ?_ rfl (by decide) ?_ hwf
  · simp only [layInt, fits, and_true]; omega
  · rw [raw32, (op_join 3 _ (by omega)).1, (op_join 3 _ (by omega)).2]
    simp only []
    rw [fields_join _ _ (by simp only [layInt, fits, and_true]; omega)]
    simp [decInt]

theorem div (w : BitVec 1) (b : BitVec 5) (a : BitVec 5) (d : BitVec 5) : Statement (.div w b a d) := by
  intro hwf _
  have hw := w.isLt
  have hb := b.isLt
  have ha := a.isLt
  have hd := d.isLt
  refine decodes32 (Instr.div w b a d) _ _ _ rfl rfl ?_ rfl (by decide) ?_ hwf
  · simp only [layInt, fits, and_true]; omega
  · rw [raw32, (op_join 3 _ (by omega)).1, (op_join 3 _ (by omega)).2]
    simp only []
    rw [fields_join _ _ (by simp only [layInt, fits, and_true]; omega)]
    simp [decInt]

theorem divn (w : BitVec 1) (b : BitVec 5) (a : BitVec 5) (d : BitVec 5) : Statement (.divn w b a d) := by
  intro hwf _
  have hw := w.isLt
  have hb := b.isLt
  have ha := a.isLt
  have hd := d.isLt
  refine decodes32 (Instr.divn w b a d) _ _ _ rfl rfl ?_ rfl (by decide) ?_ hwf
  · simp only [layInt, fits, and_true]; omega
  · rw [raw32, (op_join 3 _ (by omega)).1, (op_join 3 _ (by omega)).2]
    simp only []
    rw [fields_join _ _ (by simp only [layInt, fits, and_true]; omega)]
    simp [decInt]

theorem rem (w : BitVec 1) (b : BitVec 5) (a : BitVec 5) (d : BitVec 5) : Statement (.rem w b a d) := by
  intro hwf _
  have hw := w.isLt
  have hb := b.isLt
  have ha := a.isLt
  have hd := d.isLt
  refine decodes32 (Instr.rem w b a d) _ _ _ rfl rfl ?_ rfl (by decide) ?_ hwf
  · simp only [layInt, fits, and_true]; omega
  · rw [raw32, (op_join 3 _ (by omega)).1, (op_join 3 _ (by omega)).2]
    simp only []
    rw [fields_join _ _ (by simp only [layInt, fits, and_true]; omega)]
    simp [decInt]

theorem remn (w : BitVec 1) (b : BitVec 5) (a : BitVec 5) (d : BitVec 5) : Statement (.remn w b a d) := by
  intro hwf _
  have hw := w.isLt
  have hb := b.isLt
  have ha := a.isLt
  have hd := d.isLt
  refine decodes32 (Instr.remn w b a d) _ _ _ rfl rfl ?_ rfl (by decide) ?_ hwf
  · simp only [layInt, fits, and_true]; omega
  · rw [raw32, (op_join 3 _ (by omega)).1, (op_join 3 _ (by omega)).2]
    simp only []
    rw [fields_join _ _ (by simp only [layInt, fits, and_true]; omega)]
    simp [decInt]

theorem and (w : BitVec 1) (b : BitVec 5) (a : BitVec 5) (d : BitVec 5) : Statement (.and w b a d) := by
  intro hwf _
  have hw := w.isLt
  have hb := b.isLt
  have ha := a.isLt
  have hd := d.isLt
  refine decodes32 (Instr.and w b a d) _ _ _ rfl rfl ?_ rfl (by decide) ?_ hwf
  · simp only [layInt, fits, and_true]; omega
  · rw [raw32, (op_join 3 _ (by omega)).1, (op_join 3 _ (by omega)).2]
    simp only []
    rw [fields_join _ _ (by simp only [layInt, fits, and_true]; omega)]
    simp [decInt]

theorem or (w : BitVec 1) (b : BitVec 5) (a : BitVec 5) (d : BitVec 5) : Statement (.or w b a d) := by
  intro hwf _
  have hw := w.isLt
  have hb := b.isLt
  have ha := a.isLt
  have hd := d.isLt
  refine decodes32 (Instr.or w b a d) _ _ _ rfl rfl ?_ rfl (by decide) ?_ hwf
  · simp only [layInt, fits, and_true]; omega
  · rw [raw32, (op_join 3 _ (by omega)).1, (op_join 3 _ (by omega)).2]
    simp only []
    rw [fields_join _ _ (by simp only [layInt, fits, and_true]; omega)]
    simp [decInt]

theorem xor (w : BitVec 1) (b : BitVec 5) (a : BitVec 5) (d : BitVec 5) : Statement (.xor w b a d) := by
  intro hwf _
  have hw := w.isLt
  have hb := b.isLt
  have ha := a.isLt
  have hd := d.isLt
  refine decodes32 (Instr.xor w b a d) _ _ _ rfl rfl ?_ rfl (by decide) ?_ hwf
  · simp only [layInt, fits, and_true]; omega
  · rw [raw32, (op_join 3 _ (by omega)).1, (op_join 3 _ (by omega)).2]
    simp only []
    rw [fields_join _ _ (by simp only [layInt, fits, and_true]; omega)]
    simp [decInt]

theorem andn (w : BitVec 1) (b : BitVec 5) (a : BitVec 5) (d : BitVec 5) : Statement (.andn w b a d) := by
  intro hwf _
  have hw := w.isLt
  have hb := b.isLt
  have ha := a.isLt
  have hd := d.isLt
  refine decodes32 (Instr.andn w b a d) _ _ _ rfl rfl ?_ rfl (by decide) ?_ hwf
  · simp only [layInt, fits, and_true]; omega
  · rw [raw32, (op_join 3 _ (by omega)).1, (op_join 3 _ (by omega)).2]
    simp only []
    rw [fields_join _ _ (by simp only [layInt, fits, and_true]; omega)]
    simp [decInt]

theorem shl (w : BitVec 1) (b : BitVec 5) (a : BitVec 5) (d : BitVec 5) : Statement (.shl w b a d) := by
  intro hwf _
  have hw := w.isLt
  have hb := b.isLt
  have ha := a.isLt
  have hd := d.isLt
  refine decodes32 (Instr.shl w b a d) _ _ _ rfl rfl ?_ rfl (by decide) ?_ hwf
  · simp only [layInt, fits, and_true]; omega
  · rw [raw32, (op_join 3 _ (by omega)).1, (op_join 3 _ (by omega)).2]
    simp only []
    rw [fields_join _ _ (by simp only [layInt, fits, and_true]; omega)]
    simp [decInt]

theorem shr (w : BitVec 1) (b : BitVec 5) (a : BitVec 5) (d : BitVec 5) : Statement (.shr w b a d) := by
  intro hwf _
  have hw := w.isLt
  have hb := b.isLt
  have ha := a.isLt
  have hd := d.isLt
  refine decodes32 (Instr.shr w b a d) _ _ _ rfl rfl ?_ rfl (by decide) ?_ hwf
  · simp only [layInt, fits, and_true]; omega
  · rw [raw32, (op_join 3 _ (by omega)).1, (op_join 3 _ (by omega)).2]
    simp only []
    rw [fields_join _ _ (by simp only [layInt, fits, and_true]; omega)]
    simp [decInt]

theorem shra (w : BitVec 1) (b : BitVec 5) (a : BitVec 5) (d : BitVec 5) : Statement (.shra w b a d) := by
  intro hwf _
  have hw := w.isLt
  have hb := b.isLt
  have ha := a.isLt
  have hd := d.isLt
  refine decodes32 (Instr.shra w b a d) _ _ _ rfl rfl ?_ rfl (by decide) ?_ hwf
  · simp only [layInt, fits, and_true]; omega
  · rw [raw32, (op_join 3 _ (by omega)).1, (op_join 3 _ (by omega)).2]
    simp only []
    rw [fields_join _ _ (by simp only [layInt, fits, and_true]; omega)]
    simp [decInt]

theorem rot (w : BitVec 1) (b : BitVec 5) (a : BitVec 5) (d : BitVec 5) : Statement (.rot w b a d) := by
  intro hwf _
  have hw := w.isLt
  have hb := b.isLt
  have ha := a.isLt
  have hd := d.isLt
  refine decodes32 (Instr.rot w b a d) _ _ _ rfl rfl ?_ rfl (by decide) ?_ hwf
  · simp only [layInt, fits, and_true]; omega
  · rw [raw32, (op_join 3 _ (by omega)).1, (op_join 3 _ (by omega)).2]
    simp only []
    rw [fields_join _ _ (by simp only [layInt, fits, and_true]; omega)]
    simp [decInt]

theorem min (w : BitVec 1) (b : BitVec 5) (a : BitVec 5) (d : BitVec 5) : Statement (.min w b a d) := by
  intro hwf _
  have hw := w.isLt
  have hb := b.isLt
  have ha := a.isLt
  have hd := d.isLt
  refine decodes32 (Instr.min w b a d) _ _ _ rfl rfl ?_ rfl (by decide) ?_ hwf
  · simp only [layInt, fits, and_true]; omega
  · rw [raw32, (op_join 3 _ (by omega)).1, (op_join 3 _ (by omega)).2]
    simp only []
    rw [fields_join _ _ (by simp only [layInt, fits, and_true]; omega)]
    simp [decInt]

theorem max (w : BitVec 1) (b : BitVec 5) (a : BitVec 5) (d : BitVec 5) : Statement (.max w b a d) := by
  intro hwf _
  have hw := w.isLt
  have hb := b.isLt
  have ha := a.isLt
  have hd := d.isLt
  refine decodes32 (Instr.max w b a d) _ _ _ rfl rfl ?_ rfl (by decide) ?_ hwf
  · simp only [layInt, fits, and_true]; omega
  · rw [raw32, (op_join 3 _ (by omega)).1, (op_join 3 _ (by omega)).2]
    simp only []
    rw [fields_join _ _ (by simp only [layInt, fits, and_true]; omega)]
    simp [decInt]

theorem minn (w : BitVec 1) (b : BitVec 5) (a : BitVec 5) (d : BitVec 5) : Statement (.minn w b a d) := by
  intro hwf _
  have hw := w.isLt
  have hb := b.isLt
  have ha := a.isLt
  have hd := d.isLt
  refine decodes32 (Instr.minn w b a d) _ _ _ rfl rfl ?_ rfl (by decide) ?_ hwf
  · simp only [layInt, fits, and_true]; omega
  · rw [raw32, (op_join 3 _ (by omega)).1, (op_join 3 _ (by omega)).2]
    simp only []
    rw [fields_join _ _ (by simp only [layInt, fits, and_true]; omega)]
    simp [decInt]

theorem maxn (w : BitVec 1) (b : BitVec 5) (a : BitVec 5) (d : BitVec 5) : Statement (.maxn w b a d) := by
  intro hwf _
  have hw := w.isLt
  have hb := b.isLt
  have ha := a.isLt
  have hd := d.isLt
  refine decodes32 (Instr.maxn w b a d) _ _ _ rfl rfl ?_ rfl (by decide) ?_ hwf
  · simp only [layInt, fits, and_true]; omega
  · rw [raw32, (op_join 3 _ (by omega)).1, (op_join 3 _ (by omega)).2]
    simp only []
    rw [fields_join _ _ (by simp only [layInt, fits, and_true]; omega)]
    simp [decInt]

theorem slt (w : BitVec 1) (b : BitVec 5) (a : BitVec 5) (d : BitVec 5) : Statement (.slt w b a d) := by
  intro hwf _
  have hw := w.isLt
  have hb := b.isLt
  have ha := a.isLt
  have hd := d.isLt
  refine decodes32 (Instr.slt w b a d) _ _ _ rfl rfl ?_ rfl (by decide) ?_ hwf
  · simp only [layInt, fits, and_true]; omega
  · rw [raw32, (op_join 3 _ (by omega)).1, (op_join 3 _ (by omega)).2]
    simp only []
    rw [fields_join _ _ (by simp only [layInt, fits, and_true]; omega)]
    simp [decInt]

theorem sltn (w : BitVec 1) (b : BitVec 5) (a : BitVec 5) (d : BitVec 5) : Statement (.sltn w b a d) := by
  intro hwf _
  have hw := w.isLt
  have hb := b.isLt
  have ha := a.isLt
  have hd := d.isLt
  refine decodes32 (Instr.sltn w b a d) _ _ _ rfl rfl ?_ rfl (by decide) ?_ hwf
  · simp only [layInt, fits, and_true]; omega
  · rw [raw32, (op_join 3 _ (by omega)).1, (op_join 3 _ (by omega)).2]
    simp only []
    rw [fields_join _ _ (by simp only [layInt, fits, and_true]; omega)]
    simp [decInt]

theorem seq (w : BitVec 1) (b : BitVec 5) (a : BitVec 5) (d : BitVec 5) : Statement (.seq w b a d) := by
  intro hwf _
  have hw := w.isLt
  have hb := b.isLt
  have ha := a.isLt
  have hd := d.isLt
  refine decodes32 (Instr.seq w b a d) _ _ _ rfl rfl ?_ rfl (by decide) ?_ hwf
  · simp only [layInt, fits, and_true]; omega
  · rw [raw32, (op_join 3 _ (by omega)).1, (op_join 3 _ (by omega)).2]
    simp only []
    rw [fields_join _ _ (by simp only [layInt, fits, and_true]; omega)]
    simp [decInt]

theorem clz (w : BitVec 1) (a : BitVec 5) (d : BitVec 5) : Statement (.clz w a d) := by
  intro hwf _
  have hw := w.isLt
  have ha := a.isLt
  have hd := d.isLt
  refine decodes32 (Instr.clz w a d) _ _ _ rfl rfl ?_ rfl (by decide) ?_ hwf
  · simp only [layInt, fits, and_true]; omega
  · rw [raw32, (op_join 3 _ (by omega)).1, (op_join 3 _ (by omega)).2]
    simp only []
    rw [fields_join _ _ (by simp only [layInt, fits, and_true]; omega)]
    simp [decInt]

theorem popc (w : BitVec 1) (a : BitVec 5) (d : BitVec 5) : Statement (.popc w a d) := by
  intro hwf _
  have hw := w.isLt
  have ha := a.isLt
  have hd := d.isLt
  refine decodes32 (Instr.popc w a d) _ _ _ rfl rfl ?_ rfl (by decide) ?_ hwf
  · simp only [layInt, fits, and_true]; omega
  · rw [raw32, (op_join 3 _ (by omega)).1, (op_join 3 _ (by omega)).2]
    simp only []
    rw [fields_join _ _ (by simp only [layInt, fits, and_true]; omega)]
    simp [decInt]

theorem sext (b : BitVec 5) (a : BitVec 5) (d : BitVec 5) : Statement (.sext b a d) := by
  intro hwf _
  have hb := b.isLt
  have ha := a.isLt
  have hd := d.isLt
  refine decodes32 (Instr.sext b a d) _ _ _ rfl rfl ?_ rfl (by decide) ?_ hwf
  · simp only [layInt, fits, and_true]; omega
  · rw [raw32, (op_join 3 _ (by omega)).1, (op_join 3 _ (by omega)).2]
    simp only []
    rw [fields_join _ _ (by simp only [layInt, fits, and_true]; omega)]
    simp [decInt]

theorem zext (b : BitVec 5) (a : BitVec 5) (d : BitVec 5) : Statement (.zext b a d) := by
  intro hwf _
  have hb := b.isLt
  have ha := a.isLt
  have hd := d.isLt
  refine decodes32 (Instr.zext b a d) _ _ _ rfl rfl ?_ rfl (by decide) ?_ hwf
  · simp only [layInt, fits, and_true]; omega
  · rw [raw32, (op_join 3 _ (by omega)).1, (op_join 3 _ (by omega)).2]
    simp only []
    rw [fields_join _ _ (by simp only [layInt, fits, and_true]; omega)]
    simp [decInt]

theorem addImm (i : BitVec 12) (a : BitVec 5) (d : BitVec 5) : Statement (.addImm i a d) := by
  intro hwf _
  have hi := i.isLt
  have ha := a.isLt
  have hd := d.isLt
  refine decodes32 (Instr.addImm i a d) _ _ _ rfl rfl ?_ rfl (by decide) ?_ hwf
  · simp only [layIntImm, fits, and_true]; omega
  · rw [raw32, (op_join 5 _ (by omega)).1]
    simp only []
    rw [if_neg (by simp only [layIntImm, join]; omega), (op_join 5 _ (by omega)).2, fields_join _ _ (by simp only [layIntImm, fits, and_true]; omega)]
    simp [decIntImm]

theorem andImm (i : BitVec 12) (a : BitVec 5) (d : BitVec 5) : Statement (.andImm i a d) := by
  intro hwf _
  have hi := i.isLt
  have ha := a.isLt
  have hd := d.isLt
  refine decodes32 (Instr.andImm i a d) _ _ _ rfl rfl ?_ rfl (by decide) ?_ hwf
  · simp only [layIntImm, fits, and_true]; omega
  · rw [raw32, (op_join 5 _ (by omega)).1]
    simp only []
    rw [if_neg (by simp only [layIntImm, join]; omega), (op_join 5 _ (by omega)).2, fields_join _ _ (by simp only [layIntImm, fits, and_true]; omega)]
    simp [decIntImm]

theorem orImm (i : BitVec 12) (a : BitVec 5) (d : BitVec 5) : Statement (.orImm i a d) := by
  intro hwf _
  have hi := i.isLt
  have ha := a.isLt
  have hd := d.isLt
  refine decodes32 (Instr.orImm i a d) _ _ _ rfl rfl ?_ rfl (by decide) ?_ hwf
  · simp only [layIntImm, fits, and_true]; omega
  · rw [raw32, (op_join 5 _ (by omega)).1]
    simp only []
    rw [if_neg (by simp only [layIntImm, join]; omega), (op_join 5 _ (by omega)).2, fields_join _ _ (by simp only [layIntImm, fits, and_true]; omega)]
    simp [decIntImm]

theorem xorImm (i : BitVec 12) (a : BitVec 5) (d : BitVec 5) : Statement (.xorImm i a d) := by
  intro hwf _
  have hi := i.isLt
  have ha := a.isLt
  have hd := d.isLt
  refine decodes32 (Instr.xorImm i a d) _ _ _ rfl rfl ?_ rfl (by decide) ?_ hwf
  · simp only [layIntImm, fits, and_true]; omega
  · rw [raw32, (op_join 5 _ (by omega)).1]
    simp only []
    rw [if_neg (by simp only [layIntImm, join]; omega), (op_join 5 _ (by omega)).2, fields_join _ _ (by simp only [layIntImm, fits, and_true]; omega)]
    simp [decIntImm]

theorem sltImm (i : BitVec 12) (a : BitVec 5) (d : BitVec 5) : Statement (.sltImm i a d) := by
  intro hwf _
  have hi := i.isLt
  have ha := a.isLt
  have hd := d.isLt
  refine decodes32 (Instr.sltImm i a d) _ _ _ rfl rfl ?_ rfl (by decide) ?_ hwf
  · simp only [layIntImm, fits, and_true]; omega
  · rw [raw32, (op_join 5 _ (by omega)).1]
    simp only []
    rw [if_neg (by simp only [layIntImm, join]; omega), (op_join 5 _ (by omega)).2, fields_join _ _ (by simp only [layIntImm, fits, and_true]; omega)]
    simp [decIntImm]

theorem sltnImm (i : BitVec 12) (a : BitVec 5) (d : BitVec 5) : Statement (.sltnImm i a d) := by
  intro hwf _
  have hi := i.isLt
  have ha := a.isLt
  have hd := d.isLt
  refine decodes32 (Instr.sltnImm i a d) _ _ _ rfl rfl ?_ rfl (by decide) ?_ hwf
  · simp only [layIntImm, fits, and_true]; omega
  · rw [raw32, (op_join 5 _ (by omega)).1]
    simp only []
    rw [if_neg (by simp only [layIntImm, join]; omega), (op_join 5 _ (by omega)).2, fields_join _ _ (by simp only [layIntImm, fits, and_true]; omega)]
    simp [decIntImm]

theorem seqImm (i : BitVec 12) (a : BitVec 5) (d : BitVec 5) : Statement (.seqImm i a d) := by
  intro hwf _
  have hi := i.isLt
  have ha := a.isLt
  have hd := d.isLt
  refine decodes32 (Instr.seqImm i a d) _ _ _ rfl rfl ?_ rfl (by decide) ?_ hwf
  · simp only [layIntImm, fits, and_true]; omega
  · rw [raw32, (op_join 5 _ (by omega)).1]
    simp only []
    rw [if_neg (by simp only [layIntImm, join]; omega), (op_join 5 _ (by omega)).2, fields_join _ _ (by simp only [layIntImm, fits, and_true]; omega)]
    simp [decIntImm]

theorem shlImm (w : BitVec 1) (m : BitVec 6) (a : BitVec 5) (d : BitVec 5) : Statement (.shlImm w m a d) := by
  intro hwf _
  have hw := w.isLt
  have hm := m.isLt
  have ha := a.isLt
  have hd := d.isLt
  refine decodes32 (Instr.shlImm w m a d) _ _ _ rfl rfl ?_ rfl (by decide) ?_ hwf
  · simp only [layShift, fits, and_true]; omega
  · rw [raw32, (op_join 5 _ (by omega)).1]
    simp only []
    rw [if_pos (by simp only [layShift, join]; omega), (op_join 5 _ (by omega)).2, fields_join _ _ (by simp only [layShift, fits, and_true]; omega)]
    simp [decShift]

theorem shrImm (w : BitVec 1) (m : BitVec 6) (a : BitVec 5) (d : BitVec 5) : Statement (.shrImm w m a d) := by
  intro hwf _
  have hw := w.isLt
  have hm := m.isLt
  have ha := a.isLt
  have hd := d.isLt
  refine decodes32 (Instr.shrImm w m a d) _ _ _ rfl rfl ?_ rfl (by decide) ?_ hwf
  · simp only [layShift, fits, and_true]; omega
  · rw [raw32, (op_join 5 _ (by omega)).1]
    simp only []
    rw [if_pos (by simp only [layShift, join]; omega), (op_join 5 _ (by omega)).2, fields_join _ _ (by simp only [layShift, fits, and_true]; omega)]
    simp [decShift]

theorem shraImm (w : BitVec 1) (m : BitVec 6) (a : BitVec 5) (d : BitVec 5) : Statement (.shraImm w m a d) := by
  intro hwf _
  have hw := w.isLt
  have hm := m.isLt
  have ha := a.isLt
  have hd := d.isLt
  refine decodes32 (Instr.shraImm w m a d) _ _ _ rfl rfl ?_ rfl (by decide) ?_ hwf
  · simp only [layShift, fits, and_true]; omega
  · rw [raw32, (op_join 5 _ (by omega)).1]
    simp only []
    rw [if_pos (by simp only [layShift, join]; omega), (op_join 5 _ (by omega)).2, fields_join _ _ (by simp only [layShift, fits, and_true]; omega)]
    simp [decShift]

theorem rotImm (w : BitVec 1) (m : BitVec 6) (a : BitVec 5) (d : BitVec 5) : Statement (.rotImm w m a d) := by
  intro hwf _
  have hw := w.isLt
  have hm := m.isLt
  have ha := a.isLt
  have hd := d.isLt
  refine decodes32 (Instr.rotImm w m a d) _ _ _ rfl rfl ?_ rfl (by decide) ?_ hwf
  · simp only [layShift, fits, and_true]; omega
  · rw [raw32, (op_join 5 _ (by omega)).1]
    simp only []
    rw [if_pos (by simp only [layShift, join]; omega), (op_join 5 _ (by omega)).2, fields_join _ _ (by simp only [layShift, fits, and_true]; omega)]
    simp [decShift]

theorem li (i : BitVec 20) (d : BitVec 5) : Statement (.li i d) := by
  intro hwf _
  have hi := i.isLt
  have hd := d.isLt
  refine decodes32 (Instr.li i d) _ _ _ rfl rfl ?_ rfl (by decide) ?_ hwf
  · simp only [layLi, fits, and_true]; omega
  · rw [raw32, (op_join 7 _ (by omega)).1, (op_join 7 _ (by omega)).2]
    simp only []
    rw [fields_join _ _ (by simp only [layLi, fits, and_true]; omega)]
    simp [decLi]

theorem lis (i : BitVec 20) (d : BitVec 5) : Statement (.lis i d) := by
  intro hwf _
  have hi := i.isLt
  have hd := d.isLt
  refine decodes32 (Instr.lis i d) _ _ _ rfl rfl ?_ rfl (by decide) ?_ hwf
  · simp only [layLis, fits, and_true]; omega
  · rw [raw32, (op_join 9 _ (by omega)).1, (op_join 9 _ (by omega)).2]
    simp only []
    rw [fields_join _ _ (by simp only [layLis, fits, and_true]; omega)]
    simp [decLis]

theorem ld (o : BitVec 10) (s : BitVec 3) (z : BitVec 2) (c : BitVec 4) (d : BitVec 5) : Statement (.ld o s z c d) := by
  intro hwf _
  have ho := o.isLt
  have hs := s.isLt
  have hz := z.isLt
  have hc := c.isLt
  have hd := d.isLt
  refine decodes32 (Instr.ld o s z c d) _ _ _ rfl rfl ?_ rfl (by decide) ?_ hwf
  · simp only [layLd, fits, and_true]; omega
  · rw [raw32, (op_join 11 _ (by omega)).1, (op_join 11 _ (by omega)).2]
    simp only []
    rw [fields_join _ _ (by simp only [layLd, fits, and_true]; omega)]
    simp [decLd]

theorem lds (o : BitVec 10) (s : BitVec 3) (z : BitVec 2) (c : BitVec 4) (d : BitVec 5) : Statement (.lds o s z c d) := by
  intro hwf _
  have ho := o.isLt
  have hs := s.isLt
  have hz := z.isLt
  have hc := c.isLt
  have hd := d.isLt
  refine decodes32 (Instr.lds o s z c d) _ _ _ rfl rfl ?_ rfl (by decide) ?_ hwf
  · simp only [layLd, fits, and_true]; omega
  · rw [raw32, (op_join 11 _ (by omega)).1, (op_join 11 _ (by omega)).2]
    simp only []
    rw [fields_join _ _ (by simp only [layLd, fits, and_true]; omega)]
    simp [decLd]

theorem ldIndexed (g : BitVec 5) (s : BitVec 3) (z : BitVec 2) (c : BitVec 4) (d : BitVec 5) : Statement (.ldIndexed g s z c d) := by
  intro hwf _
  have hg := g.isLt
  have hs := s.isLt
  have hz := z.isLt
  have hc := c.isLt
  have hd := d.isLt
  refine decodes32 (Instr.ldIndexed g s z c d) _ _ _ rfl rfl ?_ rfl (by decide) ?_ hwf
  · simp only [layLdx, fits, and_true]; omega
  · rw [raw32, (op_join 13 _ (by omega)).1, (op_join 13 _ (by omega)).2]
    simp only []
    rw [fields_join _ _ (by simp only [layLdx, fits, and_true]; omega)]
    simp [decLdx]

theorem ldsIndexed (g : BitVec 5) (s : BitVec 3) (z : BitVec 2) (c : BitVec 4) (d : BitVec 5) : Statement (.ldsIndexed g s z c d) := by
  intro hwf _
  have hg := g.isLt
  have hs := s.isLt
  have hz := z.isLt
  have hc := c.isLt
  have hd := d.isLt
  refine decodes32 (Instr.ldsIndexed g s z c d) _ _ _ rfl rfl ?_ rfl (by decide) ?_ hwf
  · simp only [layLdx, fits, and_true]; omega
  · rw [raw32, (op_join 13 _ (by omega)).1, (op_join 13 _ (by omega)).2]
    simp only []
    rw [fields_join _ _ (by simp only [layLdx, fits, and_true]; omega)]
    simp [decLdx]

theorem st (o : BitVec 10) (s : BitVec 3) (z : BitVec 2) (c : BitVec 4) (d : BitVec 5) : Statement (.st o s z c d) := by
  intro hwf _
  have ho := o.isLt
  have hs := s.isLt
  have hz := z.isLt
  have hc := c.isLt
  have hd := d.isLt
  refine decodes32 (Instr.st o s z c d) _ _ _ rfl rfl ?_ rfl (by decide) ?_ hwf
  · simp only [laySt, fits, and_true]; omega
  · rw [raw32, (op_join 15 _ (by omega)).1, (op_join 15 _ (by omega)).2]
    simp only []
    rw [fields_join _ _ (by simp only [laySt, fits, and_true]; omega)]
    simp [decSt]

theorem stx (g : BitVec 5) (s : BitVec 3) (z : BitVec 2) (c : BitVec 4) (d : BitVec 5) : Statement (.stx g s z c d) := by
  intro hwf _
  have hg := g.isLt
  have hs := s.isLt
  have hz := z.isLt
  have hc := c.isLt
  have hd := d.isLt
  refine decodes32 (Instr.stx g s z c d) _ _ _ rfl rfl ?_ rfl (by decide) ?_ hwf
  · simp only [layStx, fits, and_true]; omega
  · rw [raw32, (op_join 17 _ (by omega)).1, (op_join 17 _ (by omega)).2]
    simp only []
    rw [fields_join _ _ (by simp only [layStx, fits, and_true]; omega)]
    simp [decStx]

theorem br (o : BitVec 25) : Statement (.br o) := by
  intro hwf _
  have ho := o.isLt
  refine decodes32 (Instr.br o) _ _ _ rfl rfl ?_ rfl (by decide) ?_ hwf
  · simp only [layBr, fits, and_true]; omega
  · rw [raw32, (op_join 19 _ (by omega)).1, (op_join 19 _ (by omega)).2]
    simp only []
    rw [fields_join _ _ (by simp only [layBr, fits, and_true]; omega)]
    simp [decBr]

theorem call (o : BitVec 25) : Statement (.call o) := by
  intro hwf _
  have ho := o.isLt
  refine decodes32 (Instr.call o) _ _ _ rfl rfl ?_ rfl (by decide) ?_ hwf
  · simp only [layCall, fits, and_true]; omega
  · rw [raw32, (op_join 21 _ (by omega)).1, (op_join 21 _ (by omega)).2]
    simp only []
    rw [fields_join _ _ (by simp only [layCall, fits, and_true]; omega)]
    simp [decCall]

theorem beq (o : BitVec 12) (b : BitVec 5) (a : BitVec 5) : Statement (.beq o b a) := by
  intro hwf _
  have ho := o.isLt
  have hb := b.isLt
  have ha := a.isLt
  refine decodes32 (Instr.beq o b a) _ _ _ rfl rfl ?_ rfl (by decide) ?_ hwf
  · simp only [layBcc, fits, and_true]; omega
  · rw [raw32, (op_join 23 _ (by omega)).1, (op_join 23 _ (by omega)).2]
    simp only []
    rw [fields_join _ _ (by simp only [layBcc, fits, and_true]; omega)]
    simp [decBcc]

theorem bne (o : BitVec 12) (b : BitVec 5) (a : BitVec 5) : Statement (.bne o b a) := by
  intro hwf _
  have ho := o.isLt
  have hb := b.isLt
  have ha := a.isLt
  refine decodes32 (Instr.bne o b a) _ _ _ rfl rfl ?_ rfl (by decide) ?_ hwf
  · simp only [layBcc, fits, and_true]; omega
  · rw [raw32, (op_join 23 _ (by omega)).1, (op_join 23 _ (by omega)).2]
    simp only []
    rw [fields_join _ _ (by simp only [layBcc, fits, and_true]; omega)]
    simp [decBcc]

theorem blt (o : BitVec 12) (b : BitVec 5) (a : BitVec 5) : Statement (.blt o b a) := by
  intro hwf _
  have ho := o.isLt
  have hb := b.isLt
  have ha := a.isLt
  refine decodes32 (Instr.blt o b a) _ _ _ rfl rfl ?_ rfl (by decide) ?_ hwf
  · simp only [layBcc, fits, and_true]; omega
  · rw [raw32, (op_join 23 _ (by omega)).1, (op_join 23 _ (by omega)).2]
    simp only []
    rw [fields_join _ _ (by simp only [layBcc, fits, and_true]; omega)]
    simp [decBcc]

theorem bge (o : BitVec 12) (b : BitVec 5) (a : BitVec 5) : Statement (.bge o b a) := by
  intro hwf _
  have ho := o.isLt
  have hb := b.isLt
  have ha := a.isLt
  refine decodes32 (Instr.bge o b a) _ _ _ rfl rfl ?_ rfl (by decide) ?_ hwf
  · simp only [layBcc, fits, and_true]; omega
  · rw [raw32, (op_join 23 _ (by omega)).1, (op_join 23 _ (by omega)).2]
    simp only []
    rw [fields_join _ _ (by simp only [layBcc, fits, and_true]; omega)]
    simp [decBcc]

theorem bltn (o : BitVec 12) (b : BitVec 5) (a : BitVec 5) : Statement (.bltn o b a) := by
  intro hwf _
  have ho := o.isLt
  have hb := b.isLt
  have ha := a.isLt
  refine decodes32 (Instr.bltn o b a) _ _ _ rfl rfl ?_ rfl (by decide) ?_ hwf
  · simp only [layBcc, fits, and_true]; omega
  · rw [raw32, (op_join 23 _ (by omega)).1, (op_join 23 _ (by omega)).2]
    simp only []
    rw [fields_join _ _ (by simp only [layBcc, fits, and_true]; omega)]
    simp [decBcc]

theorem bgen (o : BitVec 12) (b : BitVec 5) (a : BitVec 5) : Statement (.bgen o b a) := by
  intro hwf _
  have ho := o.isLt
  have hb := b.isLt
  have ha := a.isLt
  refine decodes32 (Instr.bgen o b a) _ _ _ rfl rfl ?_ rfl (by decide) ?_ hwf
  · simp only [layBcc, fits, and_true]; omega
  · rw [raw32, (op_join 23 _ (by omega)).1, (op_join 23 _ (by omega)).2]
    simp only []
    rw [fields_join _ _ (by simp only [layBcc, fits, and_true]; omega)]
    simp [decBcc]

theorem loop (o : BitVec 12) (a : BitVec 5) : Statement (.loop o a) := by
  intro hwf _
  have ho := o.isLt
  have ha := a.isLt
  refine decodes32 (Instr.loop o a) _ _ _ rfl rfl ?_ rfl (by decide) ?_ hwf
  · simp only [layLoop, fits, and_true]; omega
  · rw [raw32, (op_join 25 _ (by omega)).1, (op_join 25 _ (by omega)).2]
    simp only []
    rw [fields_join _ _ (by simp only [layLoop, fits, and_true]; omega)]
    simp [decLoop]

theorem jr (a : BitVec 5) : Statement (.jr a) := by
  intro hwf _
  have ha := a.isLt
  refine decodes32 (Instr.jr a) _ _ _ rfl rfl ?_ rfl (by decide) ?_ hwf
  · simp only [layJr, fits, and_true]; omega
  · rw [raw32, (op_join 27 _ (by omega)).1, (op_join 27 _ (by omega)).2]
    simp only []
    rw [fields_join _ _ (by simp only [layJr, fits, and_true]; omega)]
    simp [decJr]

theorem callr (a : BitVec 5) : Statement (.callr a) := by
  intro hwf _
  have ha := a.isLt
  refine decodes32 (Instr.callr a) _ _ _ rfl rfl ?_ rfl (by decide) ?_ hwf
  · simp only [layJr, fits, and_true]; omega
  · rw [raw32, (op_join 27 _ (by omega)).1, (op_join 27 _ (by omega)).2]
    simp only []
    rw [fields_join _ _ (by simp only [layJr, fits, and_true]; omega)]
    simp [decJr]

theorem ret (a : BitVec 5) : Statement (.ret a) := by
  intro hwf _
  have ha := a.isLt
  refine decodes32 (Instr.ret a) _ _ _ rfl rfl ?_ rfl (by decide) ?_ hwf
  · simp only [layJr, fits, and_true]; omega
  · rw [raw32, (op_join 27 _ (by omega)).1, (op_join 27 _ (by omega)).2]
    simp only []
    rw [fields_join _ _ (by simp only [layJr, fits, and_true]; omega)]
    simp [decJr]

theorem xcall (i : BitVec 16) (m : BitVec 4) : Statement (.xcall i m) := by
  intro hwf _
  have hi := i.isLt
  have hm := m.isLt
  refine decodes32 (Instr.xcall i m) _ _ _ rfl rfl ?_ rfl (by decide) ?_ hwf
  · simp only [layXcall, fits, and_true]; omega
  · rw [raw32, (op_join 29 _ (by omega)).1, (op_join 29 _ (by omega)).2]
    simp only []
    rw [fields_join _ _ (by simp only [layXcall, fits, and_true]; omega)]
    simp [decXcall]

theorem cmov (a : BitVec 4) (d : BitVec 4) : Statement (.cmov a d) := by
  intro hwf _
  have ha := a.isLt
  have hd := d.isLt
  refine decodes32 (Instr.cmov a d) _ _ _ rfl rfl ?_ rfl (by decide) ?_ hwf
  · simp only [layCap, fits, and_true]; omega
  · rw [raw32, (op_join 31 _ (by omega)).1, (op_join 31 _ (by omega)).2]
    simp only []
    rw [fields_join _ _ (by simp only [layCap, fits, and_true]; omega)]
    simp [decCap]
    omega

theorem cinc (b : BitVec 5) (a : BitVec 4) (d : BitVec 4) : Statement (.cinc b a d) := by
  intro hwf _
  have hb := b.isLt
  have ha := a.isLt
  have hd := d.isLt
  refine decodes32 (Instr.cinc b a d) _ _ _ rfl rfl ?_ rfl (by decide) ?_ hwf
  · simp only [layCap, fits, and_true]; omega
  · rw [raw32, (op_join 31 _ (by omega)).1, (op_join 31 _ (by omega)).2]
    simp only []
    rw [fields_join _ _ (by simp only [layCap, fits, and_true]; omega)]
    simp [decCap]
    omega

theorem cbnd (b : BitVec 5) (a : BitVec 4) (d : BitVec 4) : Statement (.cbnd b a d) := by
  intro hwf _
  have hb := b.isLt
  have ha := a.isLt
  have hd := d.isLt
  refine decodes32 (Instr.cbnd b a d) _ _ _ rfl rfl ?_ rfl (by decide) ?_ hwf
  · simp only [layCap, fits, and_true]; omega
  · rw [raw32, (op_join 31 _ (by omega)).1, (op_join 31 _ (by omega)).2]
    simp only []
    rw [fields_join _ _ (by simp only [layCap, fits, and_true]; omega)]
    simp [decCap]
    omega

theorem cperm (b : BitVec 5) (a : BitVec 4) (d : BitVec 4) : Statement (.cperm b a d) := by
  intro hwf _
  have hb := b.isLt
  have ha := a.isLt
  have hd := d.isLt
  refine decodes32 (Instr.cperm b a d) _ _ _ rfl rfl ?_ rfl (by decide) ?_ hwf
  · simp only [layCap, fits, and_true]; omega
  · rw [raw32, (op_join 31 _ (by omega)).1, (op_join 31 _ (by omega)).2]
    simp only []
    rw [fields_join _ _ (by simp only [layCap, fits, and_true]; omega)]
    simp [decCap]
    omega

theorem cget (s : BitVec 5) (a : BitVec 4) (d : BitVec 5) : Statement (.cget s a d) := by
  intro hwf _
  have hs := s.isLt
  have ha := a.isLt
  have hd := d.isLt
  refine decodes32 (Instr.cget s a d) _ _ _ rfl rfl ?_ rfl (by decide) ?_ hwf
  · simp only [layCap, fits, and_true]; omega
  · rw [raw32, (op_join 31 _ (by omega)).1, (op_join 31 _ (by omega)).2]
    simp only []
    rw [fields_join _ _ (by simp only [layCap, fits, and_true]; omega)]
    simp [decCap]
    omega

theorem ceq (b : BitVec 4) (a : BitVec 4) (d : BitVec 5) : Statement (.ceq b a d) := by
  intro hwf _
  have hb := b.isLt
  have ha := a.isLt
  have hd := d.isLt
  refine decodes32 (Instr.ceq b a d) _ _ _ rfl rfl ?_ rfl (by decide) ?_ hwf
  · simp only [layCap, fits, and_true]; omega
  · rw [raw32, (op_join 31 _ (by omega)).1, (op_join 31 _ (by omega)).2]
    simp only []
    rw [fields_join _ _ (by simp only [layCap, fits, and_true]; omega)]
    simp [decCap]
    omega

theorem cldc (o : BitVec 10) (s : BitVec 3) (c : BitVec 4) (d : BitVec 4) : Statement (.cldc o s c d) := by
  intro hwf _
  have ho := o.isLt
  have hs := s.isLt
  have hc := c.isLt
  have hd := d.isLt
  refine decodes32 (Instr.cldc o s c d) _ _ _ rfl rfl ?_ rfl (by decide) ?_ hwf
  · simp only [layCapMem, fits, and_true]; omega
  · rw [raw32, (op_join 33 _ (by omega)).1, (op_join 33 _ (by omega)).2]
    simp only []
    rw [fields_join _ _ (by simp only [layCapMem, fits, and_true]; omega)]
    simp [decCapMem]
    omega

theorem cstc (o : BitVec 10) (s : BitVec 3) (c : BitVec 4) (d : BitVec 4) : Statement (.cstc o s c d) := by
  intro hwf _
  have ho := o.isLt
  have hs := s.isLt
  have hc := c.isLt
  have hd := d.isLt
  refine decodes32 (Instr.cstc o s c d) _ _ _ rfl rfl ?_ rfl (by decide) ?_ hwf
  · simp only [layCapMem, fits, and_true]; omega
  · rw [raw32, (op_join 33 _ (by omega)).1, (op_join 33 _ (by omega)).2]
    simp only []
    rw [fields_join _ _ (by simp only [layCapMem, fits, and_true]; omega)]
    simp [decCapMem]
    omega

theorem send (t : BitVec 1) (e : BitVec 1) (q : BitVec 1) (u : BitVec 1) (c : BitVec 8) (n : BitVec 3) (g : BitVec 5) (k : BitVec 4) : Statement (.send t e q u c n g k) := by
  intro hwf _
  have ht := t.isLt
  have he := e.isLt
  have hq := q.isLt
  have hu := u.isLt
  have hc := c.isLt
  have hn := n.isLt
  have hg := g.isLt
  have hk := k.isLt
  refine decodes32 (Instr.send t e q u c n g k) _ _ _ rfl rfl ?_ rfl (by decide) ?_ hwf
  · simp only [laySend, fits, and_true]; omega
  · rw [raw32, (op_join 35 _ (by omega)).1, (op_join 35 _ (by omega)).2]
    simp only []
    rw [fields_join _ _ (by simp only [laySend, fits, and_true]; omega)]
    simp [decSend]

theorem minst (x : BitVec 8) (b : BitVec 4) (a : BitVec 4) (d : BitVec 5) : Statement (.minst x b a d) := by
  intro hwf _
  have hx := x.isLt
  have hb := b.isLt
  have ha := a.isLt
  have hd := d.isLt
  refine decodes32 (Instr.minst x b a d) _ _ _ rfl rfl ?_ rfl (by decide) ?_ hwf
  · simp only [layMod, fits, and_true]; omega
  · rw [raw32, (op_join 37 _ (by omega)).1, (op_join 37 _ (by omega)).2]
    simp only []
    rw [fields_join _ _ (by simp only [layMod, fits, and_true]; omega)]
    simp [decMod]

theorem mpurgeSoft (a : BitVec 4) (d : BitVec 5) : Statement (.mpurgeSoft a d) := by
  intro hwf _
  have ha := a.isLt
  have hd := d.isLt
  refine decodes32 (Instr.mpurgeSoft a d) _ _ _ rfl rfl ?_ rfl (by decide) ?_ hwf
  · simp only [layMod, fits, and_true]; omega
  · rw [raw32, (op_join 37 _ (by omega)).1, (op_join 37 _ (by omega)).2]
    simp only []
    rw [fields_join _ _ (by simp only [layMod, fits, and_true]; omega)]
    simp [decMod]

theorem mpurgeHard (a : BitVec 4) (d : BitVec 5) : Statement (.mpurgeHard a d) := by
  intro hwf _
  have ha := a.isLt
  have hd := d.isLt
  refine decodes32 (Instr.mpurgeHard a d) _ _ _ rfl rfl ?_ rfl (by decide) ?_ hwf
  · simp only [layMod, fits, and_true]; omega
  · rw [raw32, (op_join 37 _ (by omega)).1, (op_join 37 _ (by omega)).2]
    simp only []
    rw [fields_join _ _ (by simp only [layMod, fits, and_true]; omega)]
    simp [decMod]

theorem mqry (a : BitVec 4) (d : BitVec 5) : Statement (.mqry a d) := by
  intro hwf _
  have ha := a.isLt
  have hd := d.isLt
  refine decodes32 (Instr.mqry a d) _ _ _ rfl rfl ?_ rfl (by decide) ?_ hwf
  · simp only [layMod, fits, and_true]; omega
  · rw [raw32, (op_join 37 _ (by omega)).1, (op_join 37 _ (by omega)).2]
    simp only []
    rw [fields_join _ _ (by simp only [layMod, fits, and_true]; omega)]
    simp [decMod]

theorem cvtend  : Statement (.cvtend) := by
  intro hwf _

  refine decodes32 (Instr.cvtend) _ _ _ rfl rfl ?_ rfl (by decide) ?_ hwf
  · simp only [layMod, fits, and_true]; omega
  · rw [raw32, (op_join 37 _ (by omega)).1, (op_join 37 _ (by omega)).2]
    simp only []
    rw [fields_join _ _ (by simp only [layMod, fits, and_true]; omega)]
    simp [decMod]

theorem objver (a : BitVec 4) (d : BitVec 5) : Statement (.objver a d) := by
  intro hwf _
  have ha := a.isLt
  have hd := d.isLt
  refine decodes32 (Instr.objver a d) _ _ _ rfl rfl ?_ rfl (by decide) ?_ hwf
  · simp only [layMod, fits, and_true]; omega
  · rw [raw32, (op_join 37 _ (by omega)).1, (op_join 37 _ (by omega)).2]
    simp only []
    rw [fields_join _ _ (by simp only [layMod, fits, and_true]; omega)]
    simp [decMod]

theorem clprop (p : BitVec 6) (b : BitVec 5) (a : BitVec 5) (d : BitVec 5) : Statement (.clprop p b a d) := by
  intro hwf _
  have hp := p.isLt
  have hb := b.isLt
  have ha := a.isLt
  have hd := d.isLt
  refine decodes32 (Instr.clprop p b a d) _ _ _ rfl rfl ?_ rfl (by decide) ?_ hwf
  · simp only [layClaim, fits, and_true]; omega
  · rw [raw32, (op_join 39 _ (by omega)).1, (op_join 39 _ (by omega)).2]
    simp only []
    rw [fields_join _ _ (by simp only [layClaim, fits, and_true]; omega)]
    simp [decClaim]

theorem clobj (b : BitVec 5) (a : BitVec 5) (d : BitVec 5) : Statement (.clobj b a d) := by
  intro hwf _
  have hb := b.isLt
  have ha := a.isLt
  have hd := d.isLt
  refine decodes32 (Instr.clobj b a d) _ _ _ rfl rfl ?_ rfl (by decide) ?_ hwf
  · simp only [layClaim, fits, and_true]; omega
  · rw [raw32, (op_join 39 _ (by omega)).1, (op_join 39 _ (by omega)).2]
    simp only []
    rw [fields_join _ _ (by simp only [layClaim, fits, and_true]; omega)]
    simp [decClaim]

theorem clwait (a : BitVec 5) (d : BitVec 5) : Statement (.clwait a d) := by
  intro hwf _
  have ha := a.isLt
  have hd := d.isLt
  refine decodes32 (Instr.clwait a d) _ _ _ rfl rfl ?_ rfl (by decide) ?_ hwf
  · simp only [layClaim, fits, and_true]; omega
  · rw [raw32, (op_join 39 _ (by omega)).1, (op_join 39 _ (by omega)).2]
    simp only []
    rw [fields_join _ _ (by simp only [layClaim, fits, and_true]; omega)]
    simp [decClaim]

theorem clread (p : BitVec 6) (a : BitVec 5) (d : BitVec 5) : Statement (.clread p a d) := by
  intro hwf _
  have hp := p.isLt
  have ha := a.isLt
  have hd := d.isLt
  refine decodes32 (Instr.clread p a d) _ _ _ rfl rfl ?_ rfl (by decide) ?_ hwf
  · simp only [layClaim, fits, and_true]; omega
  · rw [raw32, (op_join 39 _ (by omega)).1, (op_join 39 _ (by omega)).2]
    simp only []
    rw [fields_join _ _ (by simp only [layClaim, fits, and_true]; omega)]
    simp [decClaim]

theorem clgrp (p : BitVec 6) (b : BitVec 5) (a : BitVec 5) (d : BitVec 5) : Statement (.clgrp p b a d) := by
  intro hwf _
  have hp := p.isLt
  have hb := b.isLt
  have ha := a.isLt
  have hd := d.isLt
  refine decodes32 (Instr.clgrp p b a d) _ _ _ rfl rfl ?_ rfl (by decide) ?_ hwf
  · simp only [layClaim, fits, and_true]; omega
  · rw [raw32, (op_join 39 _ (by omega)).1, (op_join 39 _ (by omega)).2]
    simp only []
    rw [fields_join _ _ (by simp only [layClaim, fits, and_true]; omega)]
    simp [decClaim]

theorem amo (s : BitVec 3) (n : BitVec 1) (w : BitVec 1) (o : BitVec 5) (b : BitVec 5) (c : BitVec 4) (d : BitVec 5) : Statement (.amo s n w o b c d) := by
  intro hwf _
  have hs := s.isLt
  have hn := n.isLt
  have hw := w.isLt
  have ho := o.isLt
  have hb := b.isLt
  have hc := c.isLt
  have hd := d.isLt
  refine decodes32 (Instr.amo s n w o b c d) _ _ _ rfl rfl ?_ rfl (by decide) ?_ hwf
  · simp only [layAmo, fits, and_true]; omega
  · rw [raw32, (op_join 41 _ (by omega)).1, (op_join 41 _ (by omega)).2]
    simp only []
    rw [fields_join _ _ (by simp only [layAmo, fits, and_true]; omega)]
    simp [decAmo]
    intro h
    simp [Instr.wf, h] at hwf

theorem cas (s : BitVec 3) (w : BitVec 1) (b : BitVec 5) (c : BitVec 4) (d : BitVec 5) : Statement (.cas s w b c d) := by
  intro hwf _
  have hs := s.isLt
  have hw := w.isLt
  have hb := b.isLt
  have hc := c.isLt
  have hd := d.isLt
  refine decodes32 (Instr.cas s w b c d) _ _ _ rfl rfl ?_ rfl (by decide) ?_ hwf
  · simp only [layAmo, fits, and_true]; omega
  · rw [raw32, (op_join 41 _ (by omega)).1, (op_join 41 _ (by omega)).2]
    simp only []
    rw [fields_join _ _ (by simp only [layAmo, fits, and_true]; omega)]
    simp [decAmo]

theorem mcredAdd (t : BitVec 2) (g : BitVec 6) (s : BitVec 4) (c : BitVec 4) (d : BitVec 5) : Statement (.mcredAdd t g s c d) := by
  intro hwf _
  have ht := t.isLt
  have hg := g.isLt
  have hs := s.isLt
  have hc := c.isLt
  have hd := d.isLt
  refine decodes32 (Instr.mcredAdd t g s c d) _ _ _ rfl rfl ?_ rfl (by decide) ?_ hwf
  · simp only [layMc, fits, and_true]; omega
  · rw [raw32, (op_join 43 _ (by omega)).1, (op_join 43 _ (by omega)).2]
    simp only []
    rw [fields_join _ _ (by simp only [layMc, fits, and_true]; omega)]
    simp [decMc]

theorem mcredMax (t : BitVec 2) (g : BitVec 6) (s : BitVec 4) (c : BitVec 4) (d : BitVec 5) : Statement (.mcredMax t g s c d) := by
  intro hwf _
  have ht := t.isLt
  have hg := g.isLt
  have hs := s.isLt
  have hc := c.isLt
  have hd := d.isLt
  refine decodes32 (Instr.mcredMax t g s c d) _ _ _ rfl rfl ?_ rfl (by decide) ?_ hwf
  · simp only [layMc, fits, and_true]; omega
  · rw [raw32, (op_join 43 _ (by omega)).1, (op_join 43 _ (by omega)).2]
    simp only []
    rw [fields_join _ _ (by simp only [layMc, fits, and_true]; omega)]
    simp [decMc]

theorem mcredMin (t : BitVec 2) (g : BitVec 6) (s : BitVec 4) (c : BitVec 4) (d : BitVec 5) : Statement (.mcredMin t g s c d) := by
  intro hwf _
  have ht := t.isLt
  have hg := g.isLt
  have hs := s.isLt
  have hc := c.isLt
  have hd := d.isLt
  refine decodes32 (Instr.mcredMin t g s c d) _ _ _ rfl rfl ?_ rfl (by decide) ?_ hwf
  · simp only [layMc, fits, and_true]; omega
  · rw [raw32, (op_join 43 _ (by omega)).1, (op_join 43 _ (by omega)).2]
    simp only []
    rw [fields_join _ _ (by simp only [layMc, fits, and_true]; omega)]
    simp [decMc]

theorem mcst (g : BitVec 6) (s : BitVec 4) (c : BitVec 4) (d : BitVec 5) : Statement (.mcst g s c d) := by
  intro hwf _
  have hg := g.isLt
  have hs := s.isLt
  have hc := c.isLt
  have hd := d.isLt
  refine decodes32 (Instr.mcst g s c d) _ _ _ rfl rfl ?_ rfl (by decide) ?_ hwf
  · simp only [layMc, fits, and_true]; omega
  · rw [raw32, (op_join 43 _ (by omega)).1, (op_join 43 _ (by omega)).2]
    simp only []
    rw [fields_join _ _ (by simp only [layMc, fits, and_true]; omega)]
    simp [decMc]

theorem agset (g : BitVec 6) (s : BitVec 4) (d : BitVec 5) : Statement (.agset g s d) := by
  intro hwf _
  have hg := g.isLt
  have hs := s.isLt
  have hd := d.isLt
  refine decodes32 (Instr.agset g s d) _ _ _ rfl rfl ?_ rfl (by decide) ?_ hwf
  · simp only [layMc, fits, and_true]; omega
  · rw [raw32, (op_join 43 _ (by omega)).1, (op_join 43 _ (by omega)).2]
    simp only []
    rw [fields_join _ _ (by simp only [layMc, fits, and_true]; omega)]
    simp [decMc]

theorem fence (s : BitVec 3) : Statement (.fence s) := by
  intro hwf _
  have hs := s.isLt
  refine decodes32 (Instr.fence s) _ _ _ rfl rfl ?_ rfl (by decide) ?_ hwf
  · simp only [laySync, fits, and_true]; omega
  · rw [raw32, (op_join 45 _ (by omega)).1, (op_join 45 _ (by omega)).2]
    simp only []
    rw [fields_join _ _ (by simp only [laySync, fits, and_true]; omega)]
    simp [decSync]

theorem fenceAcq (s : BitVec 3) : Statement (.fenceAcq s) := by
  intro hwf _
  have hs := s.isLt
  refine decodes32 (Instr.fenceAcq s) _ _ _ rfl rfl ?_ rfl (by decide) ?_ hwf
  · simp only [laySync, fits, and_true]; omega
  · rw [raw32, (op_join 45 _ (by omega)).1, (op_join 45 _ (by omega)).2]
    simp only []
    rw [fields_join _ _ (by simp only [laySync, fits, and_true]; omega)]
    simp [decSync]

theorem fenceRel (s : BitVec 3) : Statement (.fenceRel s) := by
  intro hwf _
  have hs := s.isLt
  refine decodes32 (Instr.fenceRel s) _ _ _ rfl rfl ?_ rfl (by decide) ?_ hwf
  · simp only [laySync, fits, and_true]; omega
  · rw [raw32, (op_join 45 _ (by omega)).1, (op_join 45 _ (by omega)).2]
    simp only []
    rw [fields_join _ _ (by simp only [laySync, fits, and_true]; omega)]
    simp [decSync]

theorem waita (e : BitVec 5) (c : BitVec 4) (d : BitVec 5) : Statement (.waita e c d) := by
  intro hwf _
  have he := e.isLt
  have hc := c.isLt
  have hd := d.isLt
  refine decodes32 (Instr.waita e c d) _ _ _ rfl rfl ?_ rfl (by decide) ?_ hwf
  · simp only [laySync, fits, and_true]; omega
  · rw [raw32, (op_join 45 _ (by omega)).1, (op_join 45 _ (by omega)).2]
    simp only []
    rw [fields_join _ _ (by simp only [laySync, fits, and_true]; omega)]
    simp [decSync, Nat.mod_add_div]

theorem pause  : Statement (.pause) := by
  intro hwf _

  refine decodes32 (Instr.pause) _ _ _ rfl rfl ?_ rfl (by decide) ?_ hwf
  · simp only [laySync, fits, and_true]; omega
  · rw [raw32, (op_join 45 _ (by omega)).1, (op_join 45 _ (by omega)).2]
    simp only []
    rw [fields_join _ _ (by simp only [laySync, fits, and_true]; omega)]
    simp [decSync]

theorem hbar (i : BitVec 4) (s : BitVec 3) : Statement (.hbar i s) := by
  intro hwf _
  have hi := i.isLt
  have hs := s.isLt
  refine decodes32 (Instr.hbar i s) _ _ _ rfl rfl ?_ rfl (by decide) ?_ hwf
  · simp only [laySync, fits, and_true]; omega
  · rw [raw32, (op_join 45 _ (by omega)).1, (op_join 45 _ (by omega)).2]
    simp only []
    rw [fields_join _ _ (by simp only [laySync, fits, and_true]; omega)]
    simp [decSync]

theorem qpush (b : BitVec 4) (l : BitVec 5) (d : BitVec 4) (s : BitVec 4) : Statement (.qpush b l d s) := by
  intro hwf _
  have hb := b.isLt
  have hl := l.isLt
  have hd := d.isLt
  have hs := s.isLt
  refine decodes32 (Instr.qpush b l d s) _ _ _ rfl rfl ?_ rfl (by decide) ?_ hwf
  · simp only [layQue, fits, and_true]; omega
  · rw [raw32, (op_join 47 _ (by omega)).1, (op_join 47 _ (by omega)).2]
    simp only []
    rw [fields_join _ _ (by simp only [layQue, fits, and_true]; omega)]
    simp [decQue]

theorem qpusht (b : BitVec 4) (l : BitVec 5) (d : BitVec 4) (s : BitVec 4) : Statement (.qpusht b l d s) := by
  intro hwf _
  have hb := b.isLt
  have hl := l.isLt
  have hd := d.isLt
  have hs := s.isLt
  refine decodes32 (Instr.qpusht b l d s) _ _ _ rfl rfl ?_ rfl (by decide) ?_ hwf
  · simp only [layQue, fits, and_true]; omega
  · rw [raw32, (op_join 47 _ (by omega)).1, (op_join 47 _ (by omega)).2]
    simp only []
    rw [fields_join _ _ (by simp only [layQue, fits, and_true]; omega)]
    simp [decQue]

theorem qgath (k : BitVec 3) (b : BitVec 4) (v : BitVec 5) (d : BitVec 4) (s : BitVec 4) : Statement (.qgath k b v d s) := by
  intro hwf _
  have hk := k.isLt
  have hb := b.isLt
  have hv := v.isLt
  have hd := d.isLt
  have hs := s.isLt
  refine decodes32 (Instr.qgath k b v d s) _ _ _ rfl rfl ?_ rfl (by decide) ?_ hwf
  · simp only [layQue, fits, and_true]; omega
  · rw [raw32, (op_join 47 _ (by omega)).1, (op_join 47 _ (by omega)).2]
    simp only []
    rw [fields_join _ _ (by simp only [layQue, fits, and_true]; omega)]
    simp [decQue]

theorem wmset (n : BitVec 5) (d : BitVec 4) : Statement (.wmset n d) := by
  intro hwf _
  have hn := n.isLt
  have hd := d.isLt
  refine decodes32 (Instr.wmset n d) _ _ _ rfl rfl ?_ rfl (by decide) ?_ hwf
  · simp only [layQue, fits, and_true]; omega
  · rw [raw32, (op_join 47 _ (by omega)).1, (op_join 47 _ (by omega)).2]
    simp only []
    rw [fields_join _ _ (by simp only [layQue, fits, and_true]; omega)]
    simp [decQue]

theorem wmget (n : BitVec 5) : Statement (.wmget n) := by
  intro hwf _
  have hn := n.isLt
  refine decodes32 (Instr.wmget n) _ _ _ rfl rfl ?_ rfl (by decide) ?_ hwf
  · simp only [layQue, fits, and_true]; omega
  · rw [raw32, (op_join 47 _ (by omega)).1, (op_join 47 _ (by omega)).2]
    simp only []
    rw [fields_join _ _ (by simp only [layQue, fits, and_true]; omega)]
    simp [decQue]

theorem barinit (a : BitVec 5) (c : BitVec 4) : Statement (.barinit a c) := by
  intro hwf _
  have ha := a.isLt
  have hc := c.isLt
  refine decodes32 (Instr.barinit a c) _ _ _ rfl rfl ?_ rfl (by decide) ?_ hwf
  · simp only [layBar, fits, and_true]; omega
  · rw [raw32, (op_join 49 _ (by omega)).1, (op_join 49 _ (by omega)).2]
    simp only []
    rw [fields_join _ _ (by simp only [layBar, fits, and_true]; omega)]
    simp [decBar, Nat.mod_add_div]

theorem bararr (c : BitVec 4) : Statement (.bararr c) := by
  intro hwf _
  have hc := c.isLt
  refine decodes32 (Instr.bararr c) _ _ _ rfl rfl ?_ rfl (by decide) ?_ hwf
  · simp only [layBar, fits, and_true]; omega
  · rw [raw32, (op_join 49 _ (by omega)).1, (op_join 49 _ (by omega)).2]
    simp only []
    rw [fields_join _ _ (by simp only [layBar, fits, and_true]; omega)]
    simp [decBar]

theorem barpend (a : BitVec 5) (c : BitVec 4) : Statement (.barpend a c) := by
  intro hwf _
  have ha := a.isLt
  have hc := c.isLt
  refine decodes32 (Instr.barpend a c) _ _ _ rfl rfl ?_ rfl (by decide) ?_ hwf
  · simp only [layBar, fits, and_true]; omega
  · rw [raw32, (op_join 49 _ (by omega)).1, (op_join 49 _ (by omega)).2]
    simp only []
    rw [fields_join _ _ (by simp only [layBar, fits, and_true]; omega)]
    simp [decBar, Nat.mod_add_div]

theorem barwait (c : BitVec 4) (d : BitVec 5) : Statement (.barwait c d) := by
  intro hwf _
  have hc := c.isLt
  have hd := d.isLt
  refine decodes32 (Instr.barwait c d) _ _ _ rfl rfl ?_ rfl (by decide) ?_ hwf
  · simp only [layBar, fits, and_true]; omega
  · rw [raw32, (op_join 49 _ (by omega)).1, (op_join 49 _ (by omega)).2]
    simp only []
    rw [fields_join _ _ (by simp only [layBar, fits, and_true]; omega)]
    simp [decBar]

theorem barany (m : BitVec 8) (d : BitVec 5) : Statement (.barany m d) := by
  intro hwf _
  have hm := m.isLt
  have hd := d.isLt
  refine decodes32 (Instr.barany m d) _ _ _ rfl rfl ?_ rfl (by decide) ?_ hwf
  · simp only [layBar, fits, and_true]; omega
  · rw [raw32, (op_join 49 _ (by omega)).1, (op_join 49 _ (by omega)).2]
    simp only []
    rw [fields_join _ _ (by simp only [layBar, fits, and_true]; omega)]
    simp [decBar, Nat.mod_add_div]

theorem mmctx (m : BitVec 5) : Statement (.mmctx m) := by
  intro hwf _
  have hm := m.isLt
  refine decodes32 (Instr.mmctx m) _ _ _ rfl rfl ?_ rfl (by decide) ?_ hwf
  · simp only [layMm, fits, and_true]; omega
  · rw [raw32, (op_join 51 _ (by omega)).1, (op_join 51 _ (by omega)).2]
    simp only []
    rw [fields_join _ _ (by simp only [layMm, fits, and_true]; omega)]
    simp [decMm]

theorem mmjob (m : BitVec 5) (b : BitVec 4) (a : BitVec 4) (d : BitVec 5) : Statement (.mmjob m b a d) := by
  intro hwf _
  have hm := m.isLt
  have hb := b.isLt
  have ha := a.isLt
  have hd := d.isLt
  refine decodes32 (Instr.mmjob m b a d) _ _ _ rfl rfl ?_ rfl (by decide) ?_ hwf
  · simp only [layMm, fits, and_true]; omega
  · rw [raw32, (op_join 51 _ (by omega)).1, (op_join 51 _ (by omega)).2]
    simp only []
    rw [fields_join _ _ (by simp only [layMm, fits, and_true]; omega)]
    simp [decMm]

theorem mmwait (d : BitVec 5) : Statement (.mmwait d) := by
  intro hwf _
  have hd := d.isLt
  refine decodes32 (Instr.mmwait d) _ _ _ rfl rfl ?_ rfl (by decide) ?_ hwf
  · simp only [layMm, fits, and_true]; omega
  · rw [raw32, (op_join 51 _ (by omega)).1, (op_join 51 _ (by omega)).2]
    simp only []
    rw [fields_join _ _ (by simp only [layMm, fits, and_true]; omega)]
    simp [decMm]

theorem mmldt (m : BitVec 5) (a : BitVec 4) : Statement (.mmldt m a) := by
  intro hwf _
  have hm := m.isLt
  have ha := a.isLt
  refine decodes32 (Instr.mmldt m a) _ _ _ rfl rfl ?_ rfl (by decide) ?_ hwf
  · simp only [layMm, fits, and_true]; omega
  · rw [raw32, (op_join 51 _ (by omega)).1, (op_join 51 _ (by omega)).2]
    simp only []
    rw [fields_join _ _ (by simp only [layMm, fits, and_true]; omega)]
    simp [decMm]

theorem mmdrain (m : BitVec 5) (a : BitVec 4) : Statement (.mmdrain m a) := by
  intro hwf _
  have hm := m.isLt
  have ha := a.isLt
  refine decodes32 (Instr.mmdrain m a) _ _ _ rfl rfl ?_ rfl (by decide) ?_ hwf
  · simp only [layMm, fits, and_true]; omega
  · rw [raw32, (op_join 51 _ (by omega)).1, (op_join 51 _ (by omega)).2]
    simp only []
    rw [fields_join _ _ (by simp only [layMm, fits, and_true]; omega)]
    simp [decMm]

theorem mmzero (m : BitVec 5) : Statement (.mmzero m) := by
  intro hwf _
  have hm := m.isLt
  refine decodes32 (Instr.mmzero m) _ _ _ rfl rfl ?_ rfl (by decide) ?_ hwf
  · simp only [layMm, fits, and_true]; omega
  · rw [raw32, (op_join 51 _ (by omega)).1, (op_join 51 _ (by omega)).2]
    simp only []
    rw [fields_join _ _ (by simp only [layMm, fits, and_true]; omega)]
    simp [decMm]

theorem trap (i : BitVec 16) : Statement (.trap i) := by
  intro hwf _
  have hi := i.isLt
  refine decodes32 (Instr.trap i) _ _ _ rfl rfl ?_ rfl (by decide) ?_ hwf
  · simp only [laySys, fits, and_true]; omega
  · rw [raw32, (op_join 53 _ (by omega)).1, (op_join 53 _ (by omega)).2]
    simp only []
    rw [fields_join _ _ (by simp only [laySys, fits, and_true]; omega)]
    simp [decSys, Nat.mod_add_div]

theorem eret  : Statement (.eret) := by
  intro hwf _

  refine decodes32 (Instr.eret) _ _ _ rfl rfl ?_ rfl (by decide) ?_ hwf
  · simp only [laySys, fits, and_true]; omega
  · rw [raw32, (op_join 53 _ (by omega)).1, (op_join 53 _ (by omega)).2]
    simp only []
    rw [fields_join _ _ (by simp only [laySys, fits, and_true]; omega)]
    simp [decSys]

theorem mfs (r : BitVec 12) (d : BitVec 5) : Statement (.mfs r d) := by
  intro hwf _
  have hr := r.isLt
  have hd := d.isLt
  refine decodes32 (Instr.mfs r d) _ _ _ rfl rfl ?_ rfl (by decide) ?_ hwf
  · simp only [laySys, fits, and_true]; omega
  · rw [raw32, (op_join 53 _ (by omega)).1, (op_join 53 _ (by omega)).2]
    simp only []
    rw [fields_join _ _ (by simp only [laySys, fits, and_true]; omega)]
    simp [decSys, Nat.mod_add_div]

theorem mts (r : BitVec 12) (d : BitVec 5) : Statement (.mts r d) := by
  intro hwf _
  have hr := r.isLt
  have hd := d.isLt
  refine decodes32 (Instr.mts r d) _ _ _ rfl rfl ?_ rfl (by decide) ?_ hwf
  · simp only [laySys, fits, and_true]; omega
  · rw [raw32, (op_join 53 _ (by omega)).1, (op_join 53 _ (by omega)).2]
    simp only []
    rw [fields_join _ _ (by simp only [laySys, fits, and_true]; omega)]
    simp [decSys, Nat.mod_add_div]

theorem fresume (d : BitVec 5) : Statement (.fresume d) := by
  intro hwf _
  have hd := d.isLt
  refine decodes32 (Instr.fresume d) _ _ _ rfl rfl ?_ rfl (by decide) ?_ hwf
  · simp only [laySys, fits, and_true]; omega
  · rw [raw32, (op_join 53 _ (by omega)).1, (op_join 53 _ (by omega)).2]
    simp only []
    rw [fields_join _ _ (by simp only [laySys, fits, and_true]; omega)]
    simp [decSys]

theorem safe (i : BitVec 16) : Statement (.safe i) := by
  intro hwf _
  have hi := i.isLt
  refine decodes32 (Instr.safe i) _ _ _ rfl rfl ?_ rfl (by decide) ?_ hwf
  · simp only [laySys, fits, and_true]; omega
  · rw [raw32, (op_join 53 _ (by omega)).1, (op_join 53 _ (by omega)).2]
    simp only []
    rw [fields_join _ _ (by simp only [laySys, fits, and_true]; omega)]
    simp [decSys, Nat.mod_add_div]

theorem bkpt  : Statement (.bkpt) := by
  intro hwf _

  refine decodes32 (Instr.bkpt) _ _ _ rfl rfl ?_ rfl (by decide) ?_ hwf
  · simp only [laySys, fits, and_true]; omega
  · rw [raw32, (op_join 53 _ (by omega)).1, (op_join 53 _ (by omega)).2]
    simp only []
    rw [fields_join _ _ (by simp only [laySys, fits, and_true]; omega)]
    simp [decSys]

theorem halt  : Statement (.halt) := by
  intro hwf _

  refine decodes32 (Instr.halt) _ _ _ rfl rfl ?_ rfl (by decide) ?_ hwf
  · simp only [laySys, fits, and_true]; omega
  · rw [raw32, (op_join 53 _ (by omega)).1, (op_join 53 _ (by omega)).2]
    simp only []
    rw [fields_join _ _ (by simp only [laySys, fits, and_true]; omega)]
    simp [decSys]

theorem nop32  : Statement (.nop32) := by
  intro hwf _

  refine decodes32 (Instr.nop32) _ _ _ rfl rfl ?_ rfl (by decide) ?_ hwf
  · simp only [laySys, fits, and_true]; omega
  · rw [raw32, (op_join 53 _ (by omega)).1, (op_join 53 _ (by omega)).2]
    simp only []
    rw [fields_join _ _ (by simp only [laySys, fits, and_true]; omega)]
    simp [decSys]

theorem reply (n : BitVec 3) (g : BitVec 5) (k : BitVec 4) : Statement (.reply n g k) := by
  intro hwf _
  have hn := n.isLt
  have hg := g.isLt
  have hk := k.isLt
  refine decodes32 (Instr.reply n g k) _ _ _ rfl rfl ?_ rfl (by decide) ?_ hwf
  · simp only [layMsgx, fits, and_true]; omega
  · rw [raw32, (op_join 55 _ (by omega)).1, (op_join 55 _ (by omega)).2]
    simp only []
    rw [fields_join _ _ (by simp only [layMsgx, fits, and_true]; omega)]
    simp [decMsgx]

theorem done32  : Statement (.done32) := by
  intro hwf _

  refine decodes32 (Instr.done32) _ _ _ rfl rfl ?_ rfl (by decide) ?_ hwf
  · simp only [layMsgx, fits, and_true]; omega
  · rw [raw32, (op_join 55 _ (by omega)).1, (op_join 55 _ (by omega)).2]
    simp only []
    rw [fields_join _ _ (by simp only [layMsgx, fits, and_true]; omega)]
    simp [decMsgx]

theorem defer  : Statement (.defer) := by
  intro hwf _

  refine decodes32 (Instr.defer) _ _ _ rfl rfl ?_ rfl (by decide) ?_ hwf
  · simp only [layMsgx, fits, and_true]; omega
  · rw [raw32, (op_join 55 _ (by omega)).1, (op_join 55 _ (by omega)).2]
    simp only []
    rw [fields_join _ _ (by simp only [layMsgx, fits, and_true]; omega)]
    simp [decMsgx]

theorem vadd (t : BitVec 3) (k : BitVec 3) (b : BitVec 5) (a : BitVec 5) (d : BitVec 5) : Statement (.vadd t k b a d) := by
  intro hwf _
  have ht := t.isLt
  have hk := k.isLt
  have hb := b.isLt
  have ha := a.isLt
  have hd := d.isLt
  refine decodes32 (Instr.vadd t k b a d) _ _ _ rfl rfl ?_ rfl (by decide) ?_ hwf
  · simp only [layValu, fits, and_true]; omega
  · rw [raw32, (op_join 65 _ (by omega)).1, (op_join 65 _ (by omega)).2]
    simp only []
    rw [fields_join _ _ (by simp only [layValu, fits, and_true]; omega)]
    simp [decValu]

theorem vsub (t : BitVec 3) (k : BitVec 3) (b : BitVec 5) (a : BitVec 5) (d : BitVec 5) : Statement (.vsub t k b a d) := by
  intro hwf _
  have ht := t.isLt
  have hk := k.isLt
  have hb := b.isLt
  have ha := a.isLt
  have hd := d.isLt
  refine decodes32 (Instr.vsub t k b a d) _ _ _ rfl rfl ?_ rfl (by decide) ?_ hwf
  · simp only [layValu, fits, and_true]; omega
  · rw [raw32, (op_join 65 _ (by omega)).1, (op_join 65 _ (by omega)).2]
    simp only []
    rw [fields_join _ _ (by simp only [layValu, fits, and_true]; omega)]
    simp [decValu]

theorem vmul (t : BitVec 3) (k : BitVec 3) (b : BitVec 5) (a : BitVec 5) (d : BitVec 5) : Statement (.vmul t k b a d) := by
  intro hwf _
  have ht := t.isLt
  have hk := k.isLt
  have hb := b.isLt
  have ha := a.isLt
  have hd := d.isLt
  refine decodes32 (Instr.vmul t k b a d) _ _ _ rfl rfl ?_ rfl (by decide) ?_ hwf
  · simp only [layValu, fits, and_true]; omega
  · rw [raw32, (op_join 65 _ (by omega)).1, (op_join 65 _ (by omega)).2]
    simp only []
    rw [fields_join _ _ (by simp only [layValu, fits, and_true]; omega)]
    simp [decValu]

theorem vmin (t : BitVec 3) (k : BitVec 3) (b : BitVec 5) (a : BitVec 5) (d : BitVec 5) : Statement (.vmin t k b a d) := by
  intro hwf _
  have ht := t.isLt
  have hk := k.isLt
  have hb := b.isLt
  have ha := a.isLt
  have hd := d.isLt
  refine decodes32 (Instr.vmin t k b a d) _ _ _ rfl rfl ?_ rfl (by decide) ?_ hwf
  · simp only [layValu, fits, and_true]; omega
  · rw [raw32, (op_join 65 _ (by omega)).1, (op_join 65 _ (by omega)).2]
    simp only []
    rw [fields_join _ _ (by simp only [layValu, fits, and_true]; omega)]
    simp [decValu]

theorem vmax (t : BitVec 3) (k : BitVec 3) (b : BitVec 5) (a : BitVec 5) (d : BitVec 5) : Statement (.vmax t k b a d) := by
  intro hwf _
  have ht := t.isLt
  have hk := k.isLt
  have hb := b.isLt
  have ha := a.isLt
  have hd := d.isLt
  refine decodes32 (Instr.vmax t k b a d) _ _ _ rfl rfl ?_ rfl (by decide) ?_ hwf
  · simp only [layValu, fits, and_true]; omega
  · rw [raw32, (op_join 65 _ (by omega)).1, (op_join 65 _ (by omega)).2]
    simp only []
    rw [fields_join _ _ (by simp only [layValu, fits, and_true]; omega)]
    simp [decValu]

theorem vand (t : BitVec 3) (k : BitVec 3) (b : BitVec 5) (a : BitVec 5) (d : BitVec 5) : Statement (.vand t k b a d) := by
  intro hwf _
  have ht := t.isLt
  have hk := k.isLt
  have hb := b.isLt
  have ha := a.isLt
  have hd := d.isLt
  refine decodes32 (Instr.vand t k b a d) _ _ _ rfl rfl ?_ rfl (by decide) ?_ hwf
  · simp only [layValu, fits, and_true]; omega
  · rw [raw32, (op_join 65 _ (by omega)).1, (op_join 65 _ (by omega)).2]
    simp only []
    rw [fields_join _ _ (by simp only [layValu, fits, and_true]; omega)]
    simp [decValu]

theorem vor (t : BitVec 3) (k : BitVec 3) (b : BitVec 5) (a : BitVec 5) (d : BitVec 5) : Statement (.vor t k b a d) := by
  intro hwf _
  have ht := t.isLt
  have hk := k.isLt
  have hb := b.isLt
  have ha := a.isLt
  have hd := d.isLt
  refine decodes32 (Instr.vor t k b a d) _ _ _ rfl rfl ?_ rfl (by decide) ?_ hwf
  · simp only [layValu, fits, and_true]; omega
  · rw [raw32, (op_join 65 _ (by omega)).1, (op_join 65 _ (by omega)).2]
    simp only []
    rw [fields_join _ _ (by simp only [layValu, fits, and_true]; omega)]
    simp [decValu]

theorem vxor (t : BitVec 3) (k : BitVec 3) (b : BitVec 5) (a : BitVec 5) (d : BitVec 5) : Statement (.vxor t k b a d) := by
  intro hwf _
  have ht := t.isLt
  have hk := k.isLt
  have hb := b.isLt
  have ha := a.isLt
  have hd := d.isLt
  refine decodes32 (Instr.vxor t k b a d) _ _ _ rfl rfl ?_ rfl (by decide) ?_ hwf
  · simp only [layValu, fits, and_true]; omega
  · rw [raw32, (op_join 65 _ (by omega)).1, (op_join 65 _ (by omega)).2]
    simp only []
    rw [fields_join _ _ (by simp only [layValu, fits, and_true]; omega)]
    simp [decValu]

theorem vshl (t : BitVec 3) (k : BitVec 3) (b : BitVec 5) (a : BitVec 5) (d : BitVec 5) : Statement (.vshl t k b a d) := by
  intro hwf _
  have ht := t.isLt
  have hk := k.isLt
  have hb := b.isLt
  have ha := a.isLt
  have hd := d.isLt
  refine decodes32 (Instr.vshl t k b a d) _ _ _ rfl rfl ?_ rfl (by decide) ?_ hwf
  · simp only [layValu, fits, and_true]; omega
  · rw [raw32, (op_join 65 _ (by omega)).1, (op_join 65 _ (by omega)).2]
    simp only []
    rw [fields_join _ _ (by simp only [layValu, fits, and_true]; omega)]
    simp [decValu]

theorem vshr (t : BitVec 3) (k : BitVec 3) (b : BitVec 5) (a : BitVec 5) (d : BitVec 5) : Statement (.vshr t k b a d) := by
  intro hwf _
  have ht := t.isLt
  have hk := k.isLt
  have hb := b.isLt
  have ha := a.isLt
  have hd := d.isLt
  refine decodes32 (Instr.vshr t k b a d) _ _ _ rfl rfl ?_ rfl (by decide) ?_ hwf
  · simp only [layValu, fits, and_true]; omega
  · rw [raw32, (op_join 65 _ (by omega)).1, (op_join 65 _ (by omega)).2]
    simp only []
    rw [fields_join _ _ (by simp only [layValu, fits, and_true]; omega)]
    simp [decValu]

theorem vshra (t : BitVec 3) (k : BitVec 3) (b : BitVec 5) (a : BitVec 5) (d : BitVec 5) : Statement (.vshra t k b a d) := by
  intro hwf _
  have ht := t.isLt
  have hk := k.isLt
  have hb := b.isLt
  have ha := a.isLt
  have hd := d.isLt
  refine decodes32 (Instr.vshra t k b a d) _ _ _ rfl rfl ?_ rfl (by decide) ?_ hwf
  · simp only [layValu, fits, and_true]; omega
  · rw [raw32, (op_join 65 _ (by omega)).1, (op_join 65 _ (by omega)).2]
    simp only []
    rw [fields_join _ _ (by simp only [layValu, fits, and_true]; omega)]
    simp [decValu]

theorem vfma (k : BitVec 3) (b : BitVec 5) (a : BitVec 5) (d : BitVec 5) : Statement (.vfma k b a d) := by
  intro hwf _
  have hk := k.isLt
  have hb := b.isLt
  have ha := a.isLt
  have hd := d.isLt
  refine decodes32 (Instr.vfma k b a d) _ _ _ rfl rfl ?_ rfl (by decide) ?_ hwf
  · simp only [layVfma, fits, and_true]; omega
  · rw [raw32, (op_join 67 _ (by omega)).1, (op_join 67 _ (by omega)).2]
    simp only []
    rw [fields_join _ _ (by simp only [layVfma, fits, and_true]; omega)]
    simp [decVfma]

theorem vfmaNeg (k : BitVec 3) (b : BitVec 5) (a : BitVec 5) (d : BitVec 5) : Statement (.vfmaNeg k b a d) := by
  intro hwf _
  have hk := k.isLt
  have hb := b.isLt
  have ha := a.isLt
  have hd := d.isLt
  refine decodes32 (Instr.vfmaNeg k b a d) _ _ _ rfl rfl ?_ rfl (by decide) ?_ hwf
  · simp only [layVfma, fits, and_true]; omega
  · rw [raw32, (op_join 67 _ (by omega)).1, (op_join 67 _ (by omega)).2]
    simp only []
    rw [fields_join _ _ (by simp only [layVfma, fits, and_true]; omega)]
    simp [decVfma]

theorem vfn (f : BitVec 4) (k : BitVec 3) (a : BitVec 5) (d : BitVec 5) : Statement (.vfn f k a d) := by
  intro hwf _
  have hf := f.isLt
  have hk := k.isLt
  have ha := a.isLt
  have hd := d.isLt
  refine decodes32 (Instr.vfn f k a d) _ _ _ rfl rfl ?_ rfl (by decide) ?_ hwf
  · simp only [layVfn, fits, and_true]; omega
  · rw [raw32, (op_join 69 _ (by omega)).1, (op_join 69 _ (by omega)).2]
    simp only []
    rw [fields_join _ _ (by simp only [layVfn, fits, and_true]; omega)]
    simp [decVfn]

theorem vcmp (f : BitVec 4) (t : BitVec 3) (k : BitVec 3) (b : BitVec 5) (a : BitVec 5) (d : BitVec 3) : Statement (.vcmp f t k b a d) := by
  intro hwf _
  have hf := f.isLt
  have ht := t.isLt
  have hk := k.isLt
  have hb := b.isLt
  have ha := a.isLt
  have hd := d.isLt
  refine decodes32 (Instr.vcmp f t k b a d) _ _ _ rfl rfl ?_ rfl (by decide) ?_ hwf
  · simp only [layVcmp, fits, and_true]; omega
  · rw [raw32, (op_join 71 _ (by omega)).1, (op_join 71 _ (by omega)).2]
    simp only []
    rw [fields_join _ _ (by simp only [layVcmp, fits, and_true]; omega)]
    simp only [Instr.wf, decide_eq_true_eq] at hwf
    have hx : f.toNat ≠ 8 := by omega
    simp [decVcmp, hx]
    omega

theorem vsel (k : BitVec 3) (b : BitVec 5) (a : BitVec 5) (d : BitVec 5) : Statement (.vsel k b a d) := by
  intro hwf _
  have hk := k.isLt
  have hb := b.isLt
  have ha := a.isLt
  have hd := d.isLt
  refine decodes32 (Instr.vsel k b a d) _ _ _ rfl rfl ?_ rfl (by decide) ?_ hwf
  · simp only [layVcmp, fits, and_true]; omega
  · rw [raw32, (op_join 71 _ (by omega)).1, (op_join 71 _ (by omega)).2]
    simp only []
    rw [fields_join _ _ (by simp only [layVcmp, fits, and_true]; omega)]
    simp [decVcmp]

theorem vld (k : BitVec 3) (z : BitVec 2) (g : BitVec 5) (c : BitVec 4) (d : BitVec 5) : Statement (.vld k z g c d) := by
  intro hwf _
  have hk := k.isLt
  have hz := z.isLt
  have hg := g.isLt
  have hc := c.isLt
  have hd := d.isLt
  refine decodes32 (Instr.vld k z g c d) _ _ _ rfl rfl ?_ rfl (by decide) ?_ hwf
  · simp only [layVld, fits, and_true]; omega
  · rw [raw32, (op_join 73 _ (by omega)).1, (op_join 73 _ (by omega)).2]
    simp only []
    rw [fields_join _ _ (by simp only [layVld, fits, and_true]; omega)]
    simp [decVld]

theorem vst (k : BitVec 3) (z : BitVec 2) (g : BitVec 5) (c : BitVec 4) (d : BitVec 5) : Statement (.vst k z g c d) := by
  intro hwf _
  have hk := k.isLt
  have hz := z.isLt
  have hg := g.isLt
  have hc := c.isLt
  have hd := d.isLt
  refine decodes32 (Instr.vst k z g c d) _ _ _ rfl rfl ?_ rfl (by decide) ?_ hwf
  · simp only [layVld, fits, and_true]; omega
  · rw [raw32, (op_join 73 _ (by omega)).1, (op_join 73 _ (by omega)).2]
    simp only []
    rw [fields_join _ _ (by simp only [layVld, fits, and_true]; omega)]
    simp [decVld]

theorem vgath (k : BitVec 3) (z : BitVec 2) (i : BitVec 5) (c : BitVec 4) (d : BitVec 5) : Statement (.vgath k z i c d) := by
  intro hwf _
  have hk := k.isLt
  have hz := z.isLt
  have hi := i.isLt
  have hc := c.isLt
  have hd := d.isLt
  refine decodes32 (Instr.vgath k z i c d) _ _ _ rfl rfl ?_ rfl (by decide) ?_ hwf
  · simp only [layVgath, fits, and_true]; omega
  · rw [raw32, (op_join 75 _ (by omega)).1, (op_join 75 _ (by omega)).2]
    simp only []
    rw [fields_join _ _ (by simp only [layVgath, fits, and_true]; omega)]
    simp [decVgath]

theorem vscat (k : BitVec 3) (z : BitVec 2) (i : BitVec 5) (c : BitVec 4) (d : BitVec 5) : Statement (.vscat k z i c d) := by
  intro hwf _
  have hk := k.isLt
  have hz := z.isLt
  have hi := i.isLt
  have hc := c.isLt
  have hd := d.isLt
  refine decodes32 (Instr.vscat k z i c d) _ _ _ rfl rfl ?_ rfl (by decide) ?_ hwf
  · simp only [layVgath, fits, and_true]; omega
  · rw [raw32, (op_join 75 _ (by omega)).1, (op_join 75 _ (by omega)).2]
    simp only []
    rw [fields_join _ _ (by simp only [layVgath, fits, and_true]; omega)]
    simp [decVgath]

theorem vred (f : BitVec 4) (t : BitVec 3) (k : BitVec 3) (a : BitVec 5) (d : BitVec 5) : Statement (.vred f t k a d) := by
  intro hwf _
  have hf := f.isLt
  have ht := t.isLt
  have hk := k.isLt
  have ha := a.isLt
  have hd := d.isLt
  refine decodes32 (Instr.vred f t k a d) _ _ _ rfl rfl ?_ rfl (by decide) ?_ hwf
  · simp only [layVred, fits, and_true]; omega
  · rw [raw32, (op_join 77 _ (by omega)).1, (op_join 77 _ (by omega)).2]
    simp only []
    rw [fields_join _ _ (by simp only [layVred, fits, and_true]; omega)]
    simp [decVred]
    simp only [Instr.wf, decide_eq_true_eq] at hwf
    have hc : f.toNat = 0 ∨ f.toNat = 1 ∨ f.toNat = 2 := by omega
    rcases hc with h | h | h <;> simp only [h]

theorem vbcast (k : BitVec 3) (a : BitVec 5) (d : BitVec 5) : Statement (.vbcast k a d) := by
  intro hwf _
  have hk := k.isLt
  have ha := a.isLt
  have hd := d.isLt
  refine decodes32 (Instr.vbcast k a d) _ _ _ rfl rfl ?_ rfl (by decide) ?_ hwf
  · simp only [layVred, fits, and_true]; omega
  · rw [raw32, (op_join 77 _ (by omega)).1, (op_join 77 _ (by omega)).2]
    simp only []
    rw [fields_join _ _ (by simp only [layVred, fits, and_true]; omega)]
    simp [decVred]

theorem vperm (k : BitVec 3) (b : BitVec 5) (a : BitVec 5) (d : BitVec 5) : Statement (.vperm k b a d) := by
  intro hwf _
  have hk := k.isLt
  have hb := b.isLt
  have ha := a.isLt
  have hd := d.isLt
  refine decodes32 (Instr.vperm k b a d) _ _ _ rfl rfl ?_ rfl (by decide) ?_ hwf
  · simp only [layVred, fits, and_true]; omega
  · rw [raw32, (op_join 77 _ (by omega)).1, (op_join 77 _ (by omega)).2]
    simp only []
    rw [fields_join _ _ (by simp only [layVred, fits, and_true]; omega)]
    simp [decVred]

theorem vcvt (s : BitVec 1) (t : BitVec 3) (k : BitVec 3) (r : BitVec 2) (u : BitVec 3) (a : BitVec 5) (d : BitVec 5) : Statement (.vcvt s t k r u a d) := by
  intro hwf _
  have hs := s.isLt
  have ht := t.isLt
  have hk := k.isLt
  have hr := r.isLt
  have hu := u.isLt
  have ha := a.isLt
  have hd := d.isLt
  refine decodes32 (Instr.vcvt s t k r u a d) _ _ _ rfl rfl ?_ rfl (by decide) ?_ hwf
  · simp only [layVcvt, fits, and_true]; omega
  · rw [raw32, (op_join 79 _ (by omega)).1, (op_join 79 _ (by omega)).2]
    simp only []
    rw [fields_join _ _ (by simp only [layVcvt, fits, and_true]; omega)]
    simp [decVcvt]
    have hc : s.toNat = 0 ∨ s.toNat = 1 := by omega
    have h1 : (u.toNat + 8 * r.toNat) / 8 = r.toNat := by omega
    have h2 : u.toNat % 8 = u.toNat := by omega
    simp only [h1, h2, BitVec.ofNat_toNat, BitVec.setWidth_eq]
    rcases hc with h | h <;> simp only [h]

theorem vdec (k : BitVec 3) (a : BitVec 5) (d : BitVec 5) : Statement (.vdec k a d) := by
  intro hwf _
  have hk := k.isLt
  have ha := a.isLt
  have hd := d.isLt
  refine decodes32 (Instr.vdec k a d) _ _ _ rfl rfl ?_ rfl (by decide) ?_ hwf
  · simp only [layVcvt, fits, and_true]; omega
  · rw [raw32, (op_join 79 _ (by omega)).1, (op_join 79 _ (by omega)).2]
    simp only []
    rw [fields_join _ _ (by simp only [layVcvt, fits, and_true]; omega)]
    simp [decVcvt]

theorem venc (k : BitVec 3) (a : BitVec 5) (d : BitVec 5) : Statement (.venc k a d) := by
  intro hwf _
  have hk := k.isLt
  have ha := a.isLt
  have hd := d.isLt
  refine decodes32 (Instr.venc k a d) _ _ _ rfl rfl ?_ rfl (by decide) ?_ hwf
  · simp only [layVcvt, fits, and_true]; omega
  · rw [raw32, (op_join 79 _ (by omega)).1, (op_join 79 _ (by omega)).2]
    simp only []
    rw [fields_join _ _ (by simp only [layVcvt, fits, and_true]; omega)]
    simp [decVcvt]

theorem mov (a : BitVec 5) (d : BitVec 5) : Statement (.mov a d) := by
  intro hwf _
  have ha := a.isLt
  have hd := d.isLt
  refine decodes16 (Instr.mov a d) _ rfl rfl ?_ ?_ hwf
  · simp only [lay16, fits, and_true]; omega
  · simp [dec16]

theorem add16 (a : BitVec 5) (d : BitVec 5) : Statement (.add16 a d) := by
  intro hwf _
  have ha := a.isLt
  have hd := d.isLt
  refine decodes16 (Instr.add16 a d) _ rfl rfl ?_ ?_ hwf
  · simp only [lay16, fits, and_true]; omega
  · simp [dec16]

theorem sub16 (a : BitVec 5) (d : BitVec 5) : Statement (.sub16 a d) := by
  intro hwf _
  have ha := a.isLt
  have hd := d.isLt
  refine decodes16 (Instr.sub16 a d) _ rfl rfl ?_ ?_ hwf
  · simp only [lay16, fits, and_true]; omega
  · simp [dec16]

theorem addi16 (i : BitVec 6) (d : BitVec 5) : Statement (.addi16 i d) := by
  intro hwf _
  have hi := i.isLt
  have hd := d.isLt
  refine decodes16 (Instr.addi16 i d) _ rfl rfl ?_ ?_ hwf
  · simp only [lay16, fits, and_true]; omega
  · simp [dec16, Nat.mod_add_div]

theorem and16 (a : BitVec 5) (d : BitVec 5) : Statement (.and16 a d) := by
  intro hwf _
  have ha := a.isLt
  have hd := d.isLt
  refine decodes16 (Instr.and16 a d) _ rfl rfl ?_ ?_ hwf
  · simp only [lay16, fits, and_true]; omega
  · simp [dec16]

theorem shli16 (m : BitVec 6) (d : BitVec 5) : Statement (.shli16 m d) := by
  intro hwf _
  have hm := m.isLt
  have hd := d.isLt
  refine decodes16 (Instr.shli16 m d) _ rfl rfl ?_ ?_ hwf
  · simp only [lay16, fits, and_true]; omega
  · simp [dec16, Nat.mod_add_div]

theorem shri16 (m : BitVec 6) (d : BitVec 5) : Statement (.shri16 m d) := by
  intro hwf _
  have hm := m.isLt
  have hd := d.isLt
  refine decodes16 (Instr.shri16 m d) _ rfl rfl ?_ ?_ hwf
  · simp only [lay16, fits, and_true]; omega
  · simp [dec16, Nat.mod_add_div]

theorem ldD16 (a : BitVec 4) (d : BitVec 5) : Statement (.ldD16 a d) := by
  intro hwf _
  have ha := a.isLt
  have hd := d.isLt
  refine decodes16 (Instr.ldD16 a d) _ rfl rfl ?_ ?_ hwf
  · simp only [lay16, fits, and_true]; omega
  · simp [dec16]
    omega

theorem stD16 (a : BitVec 4) (d : BitVec 5) : Statement (.stD16 a d) := by
  intro hwf _
  have ha := a.isLt
  have hd := d.isLt
  refine decodes16 (Instr.stD16 a d) _ rfl rfl ?_ ?_ hwf
  · simp only [lay16, fits, and_true]; omega
  · simp [dec16]
    omega

theorem br16 (o : BitVec 11) : Statement (.br16 o) := by
  intro hwf _
  have ho := o.isLt
  refine decodes16 (Instr.br16 o) _ rfl rfl ?_ ?_ hwf
  · simp only [lay16, fits, and_true]; omega
  · have hx : o.toNat % 32 + 32 * (o.toNat / 32 % 32) + 1024 * (o.toNat / 1024) = o.toNat := by omega
    simp [dec16, hx]

theorem bez (o : BitVec 6) (d : BitVec 5) : Statement (.bez o d) := by
  intro hwf _
  have ho := o.isLt
  have hd := d.isLt
  refine decodes16 (Instr.bez o d) _ rfl rfl ?_ ?_ hwf
  · simp only [lay16, fits, and_true]; omega
  · simp [dec16, Nat.mod_add_div]

theorem bnz (o : BitVec 6) (d : BitVec 5) : Statement (.bnz o d) := by
  intro hwf _
  have ho := o.isLt
  have hd := d.isLt
  refine decodes16 (Instr.bnz o d) _ rfl rfl ?_ ?_ hwf
  · simp only [lay16, fits, and_true]; omega
  · simp [dec16, Nat.mod_add_div]

theorem done  : Statement (.done) := by
  intro hwf _

  refine decodes16 (Instr.done) _ rfl rfl ?_ ?_ hwf
  · simp only [lay16, fits, and_true]; omega
  · simp [dec16]

theorem nop  : Statement (.nop) := by
  intro hwf _

  refine decodes16 (Instr.nop) _ rfl rfl ?_ ?_ hwf
  · simp only [lay16, fits, and_true]; omega
  · simp [dec16]

theorem ret16  : Statement (.ret16) := by
  intro hwf _

  refine decodes16 (Instr.ret16) _ rfl rfl ?_ ?_ hwf
  · simp only [lay16, fits, and_true]; omega
  · simp [dec16]

theorem illegal (eval : Word) : Statement (.illegal eval) := by
  intro _ h
  exact absurd rfl h

theorem trapEntry (core : Nat) : Statement (.trapEntry core) := by
  intro _ h
  exact absurd rfl h

theorem machineEvent (core : Nat) (source : EventSource) (eval : Word) : Statement (.machineEvent core source eval) := by
  intro _ h
  exact absurd rfl h

theorem trapUpcall (core : Nat) : Statement (.trapUpcall core) := by
  intro _ h
  exact absurd rfl h

theorem dispatch (core : Nat) (urgent : Bool) : Statement (.dispatch core urgent) := by
  intro _ h
  exact absurd rfl h

theorem messageArrival (core : Nat) (m : Msg) (o : Origin) : Statement (.messageArrival core m o) := by
  intro _ h
  exact absurd rfl h

theorem replyArrival (core : Nat) (r : Reply) : Statement (.replyArrival core r) := by
  intro _ h
  exact absurd rfl h

theorem replySlotTimeout (core slot : Nat) : Statement (.replySlotTimeout core slot) := by
  intro _ h
  exact absurd rfl h

theorem urgentQuotaWindow (core : Nat) : Statement (.urgentQuotaWindow core) := by
  intro _ h
  exact absurd rfl h

theorem urgentQuotaExhausted (core : Nat) : Statement (.urgentQuotaExhausted core) := by
  intro _ h
  exact absurd rfl h

theorem statelessBalance (core : Nat) : Statement (.statelessBalance core) := by
  intro _ h
  exact absurd rfl h

theorem forwardQueuedMessages (ctx : Nat) : Statement (.forwardQueuedMessages ctx) := by
  intro _ h
  exact absurd rfl h

theorem hbarEpisodeComplete (b : HbarKey) : Statement (.hbarEpisodeComplete b) := by
  intro _ h
  exact absurd rfl h

theorem hbarEnrolRemove (id pos : Nat) : Statement (.hbarEnrolRemove id pos) := by
  intro _ h
  exact absurd rfl h

theorem storeBufferDrain (core : Nat) : Statement (.storeBufferDrain core) := by
  intro _ h
  exact absurd rfl h

theorem remoteRequest (r : Request) : Statement (.remoteRequest r) := by
  intro _ h
  exact absurd rfl h

theorem remoteValue (core frame rid : Nat) (v : RVal) : Statement (.remoteValue core frame rid v) := by
  intro _ h
  exact absurd rfl h

theorem acknowledgement (core frame rid : Nat) : Statement (.acknowledgement core frame rid) := by
  intro _ h
  exact absurd rfl h

theorem remoteNotice (core frame rid : Nat) (oid : BitVec 40) (n : Notice) : Statement (.remoteNotice core frame rid oid n) := by
  intro _ h
  exact absurd rfl h

theorem translationCompletion (die pasid : Nat) (range : PageRange) (r w : Bool) :
    Statement (.translationCompletion die pasid range r w) := by
  intro _ h
  exact absurd rfl h

theorem atsInvalidation (pasid page : Nat) : Statement (.atsInvalidation pasid page) := by
  intro _ h
  exact absurd rfl h

theorem hotRecordInterval (die ctl : Nat) : Statement (.hotRecordInterval die ctl) := by
  intro _ h
  exact absurd rfl h

theorem scrub (lo hi : Nat) (fixed : List Nat) : Statement (.scrub lo hi fixed) := by
  intro _ h
  exact absurd rfl h

theorem faultUpcall (core : Nat) : Statement (.faultUpcall core) := by
  intro _ h
  exact absurd rfl h

theorem memorySideUpcall (core : Nat) : Statement (.memorySideUpcall core) := by
  intro _ h
  exact absurd rfl h

theorem faultReplay (die index : Nat) : Statement (.faultReplay die index) := by
  intro _ h
  exact absurd rfl h

theorem pageRequestRead (core : Nat) (value : Word) : Statement (.pageRequestRead core value) := by
  intro _ h
  exact absurd rfl h

theorem pageRequestWrite (core : Nat) (value : Word) : Statement (.pageRequestWrite core value) := by
  intro _ h
  exact absurd rfl h

theorem prgResponse (index code : Nat) : Statement (.prgResponse index code) := by
  intro _ h
  exact absurd rfl h

theorem pageRequestUpcall (core : Nat) : Statement (.pageRequestUpcall core) := by
  intro _ h
  exact absurd rfl h

theorem requestAccept (core : Nat) : Statement (.requestAccept core) := by
  intro _ h
  exact absurd rfl h

theorem copySector (cluster request sector : Nat) : Statement (.copySector cluster request sector) := by
  intro _ h
  exact absurd rfl h

theorem barrierUpdate (ctx : Nat) (oid : BitVec 40) (off : Nat) (u : BarUpd) : Statement (.barrierUpdate ctx oid off u) := by
  intro _ h
  exact absurd rfl h

theorem copyBankSelect (cluster : Nat) (bank : Bool) : Statement (.copyBankSelect cluster bank) := by
  intro _ h
  exact absurd rfl h

theorem matrixBankSelect (cluster : Nat) (bank : Bool) : Statement (.matrixBankSelect cluster bank) := by
  intro _ h
  exact absurd rfl h

theorem mediaJobAccept (die : Nat) : Statement (.mediaJobAccept die) := by
  intro _ h
  exact absurd rfl h

theorem mediaJobEnd (die job : Nat) (bits recon : List Byte) : Statement (.mediaJobEnd die job bits recon) := by
  intro _ h
  exact absurd rfl h

theorem matrixJobStart (cluster : Nat) : Statement (.matrixJobStart cluster) := by
  intro _ h
  exact absurd rfl h

theorem matrixJobEnd (cluster : Nat) : Statement (.matrixJobEnd cluster) := by
  intro _ h
  exact absurd rfl h

theorem converterStart (core : Nat) : Statement (.converterStart core) := by
  intro _ h
  exact absurd rfl h

theorem laneFailure (port : Nat) : Statement (.laneFailure port) := by
  intro _ h
  exact absurd rfl h

theorem linkDown (port : Nat) : Statement (.linkDown port) := by
  intro _ h
  exact absurd rfl h

theorem declaredUnreachable (pos : Nat) : Statement (.declaredUnreachable pos) := by
  intro _ h
  exact absurd rfl h

theorem unreachableClasses (pos : Nat) : Statement (.unreachableClasses pos) := by
  intro _ h
  exact absurd rfl h

theorem halyardIdleFlit (port : Nat) : Statement (.halyardIdleFlit port) := by
  intro _ h
  exact absurd rfl h

theorem tagGroupReceive (port : Nat) (flits : List Flit) (fifth : Flit) : Statement (.tagGroupReceive port flits fifth) := by
  intro _ h
  exact absurd rfl h

theorem tagGroupIdleFill (port : Nat) : Statement (.tagGroupIdleFill port) := by
  intro _ h
  exact absurd rfl h

theorem linkKeyRollover (port : Nat) : Statement (.linkKeyRollover port) := by
  intro _ h
  exact absurd rfl h

theorem poisonNotice (core : Nat) (p : Poison) : Statement (.poisonNotice core p) := by
  intro _ h
  exact absurd rfl h

theorem ftimeCorrection (error : Int) : Statement (.ftimeCorrection error) := by
  intro _ h
  exact absurd rfl h

theorem halyardLoss  : Statement (.halyardLoss) := by
  intro _ h
  exact absurd rfl h

theorem memberRead (pos coll ctx : Nat) (oid : BitVec 40) (base len : Nat) : Statement (.memberRead pos coll ctx oid base len) := by
  intro _ h
  exact absurd rfl h

theorem memberWrite (pos coll ctx : Nat) (oid : BitVec 40) (base : Nat) (data : List Byte) : Statement (.memberWrite pos coll ctx oid base data) := by
  intro _ h
  exact absurd rfl h

theorem memberValues (coll pos : Nat) (absent : Bool) (data : List Byte) : Statement (.memberValues coll pos absent data) := by
  intro _ h
  exact absurd rfl h

theorem collectiveTimeout (coll : Nat) : Statement (.collectiveTimeout coll) := by
  intro _ h
  exact absurd rfl h

theorem collectiveEnd (coll : Nat) : Statement (.collectiveEnd coll) := by
  intro _ h
  exact absurd rfl h

theorem datagramSend (pod pos count : Nat) : Statement (.datagramSend pod pos count) := by
  intro _ h
  exact absurd rfl h

theorem datagramReceive (tagx : List Byte) (d : Datagram) : Statement (.datagramReceive tagx d) := by
  intro _ h
  exact absurd rfl h

theorem datagramResend (pod pos seq : Nat) : Statement (.datagramResend pod pos seq) := by
  intro _ h
  exact absurd rfl h

theorem announcementReceive (a : Announcement) : Statement (.announcementReceive a) := by
  intro _ h
  exact absurd rfl h

theorem objectionReceive (o : Objection) : Statement (.objectionReceive o) := by
  intro _ h
  exact absurd rfl h

theorem claimResolve (slot : Nat) : Statement (.claimResolve slot) := by
  intro _ h
  exact absurd rfl h

theorem claimSlotFree (slot : Nat) : Statement (.claimSlotFree slot) := by
  intro _ h
  exact absurd rfl h

theorem reef (ctx : Nat) : Statement (.reef ctx) := by
  intro _ h
  exact absurd rfl h

theorem heaveTo (ctx : Nat) : Statement (.heaveTo ctx) := by
  intro _ h
  exact absurd rfl h

theorem ladderHalt (ctx : Nat) : Statement (.ladderHalt ctx) := by
  intro _ h
  exact absurd rfl h

theorem ladderStopped (ctx : Nat) : Statement (.ladderStopped ctx) := by
  intro _ h
  exact absurd rfl h

theorem strike (ctx : Nat) : Statement (.strike ctx) := by
  intro _ h
  exact absurd rfl h

theorem restoreFrames (ctx : Nat) : Statement (.restoreFrames ctx) := by
  intro _ h
  exact absurd rfl h

theorem sliceEnd (ctx : Nat) : Statement (.sliceEnd ctx) := by
  intro _ h
  exact absurd rfl h

theorem pausemaxResume (ctx : Nat) : Statement (.pausemaxResume ctx) := by
  intro _ h
  exact absurd rfl h

theorem pauseExpiry (core frame : Nat) : Statement (.pauseExpiry core frame) := by
  intro _ h
  exact absurd rfl h

theorem waitaTimeout (core frame : Nat) : Statement (.waitaTimeout core frame) := by
  intro _ h
  exact absurd rfl h

theorem waitaFullExpiry (core frame : Nat) : Statement (.waitaFullExpiry core frame) := by
  intro _ h
  exact absurd rfl h

theorem ringDoorbell (vf ring tail : Nat) : Statement (.ringDoorbell vf ring tail) := by
  intro _ h
  exact absurd rfl h

theorem completionHead (vf ring head : Nat) : Statement (.completionHead vf ring head) := by
  intro _ h
  exact absurd rfl h

theorem ringEnable (vf ring : Nat) (en : Bool) : Statement (.ringEnable vf ring en) := by
  intro _ h
  exact absurd rfl h

theorem ringReset (vf ring : Nat) (en : Bool) : Statement (.ringReset vf ring en) := by
  intro _ h
  exact absurd rfl h

theorem ringInterruptEnable (vf ring : Nat) (ie : Bool) : Statement (.ringInterruptEnable vf ring ie) := by
  intro _ h
  exact absurd rfl h

theorem registerWrite (vf offset : Nat) (value : Word) : Statement (.registerWrite vf offset value) := by
  intro _ h
  exact absurd rfl h

theorem msg (vf ring : Nat) : Statement (.msg vf ring) := by
  intro _ h
  exact absurd rfl h

theorem pad (vf ring : Nat) : Statement (.pad vf ring) := by
  intro _ h
  exact absurd rfl h

theorem replaymark (vf ring : Nat) : Statement (.replaymark vf ring) := by
  intro _ h
  exact absurd rfl h

theorem nopPacket (vf ring : Nat) : Statement (.nopPacket vf ring) := by
  intro _ h
  exact absurd rfl h

theorem ringPacketRetry (vf ring : Nat) : Statement (.ringPacketRetry vf ring) := by
  intro _ h
  exact absurd rfl h

theorem replaymarkEffect (vf ring : Nat) : Statement (.replaymarkEffect vf ring) := by
  intro _ h
  exact absurd rfl h

theorem nopFenceComplete (vf ring : Nat) : Statement (.nopFenceComplete vf ring) := by
  intro _ h
  exact absurd rfl h

theorem context (tag addr len : Word) : Statement (.context tag addr len) := by
  intro _ h
  exact absurd rfl h

theorem bind (tag h vf count pasid : Word) : Statement (.bind tag h vf count pasid) := by
  intro _ h
  exact absurd rfl h

theorem schedule (tag h slice : Word) : Statement (.schedule tag h slice) := by
  intro _ h
  exact absurd rfl h

theorem pauseContext (tag h : Word) : Statement (.pauseContext tag h) := by
  intro _ h
  exact absurd rfl h

theorem resume (tag h slice : Word) : Statement (.resume tag h slice) := by
  intro _ h
  exact absurd rfl h

theorem evict (tag h addr len : Word) : Statement (.evict tag h addr len) := by
  intro _ h
  exact absurd rfl h

theorem restore (tag h addr len : Word) : Statement (.restore tag h addr len) := by
  intro _ h
  exact absurd rfl h

theorem migrateStart (tag h interval addr len : Word) : Statement (.migrateStart tag h interval addr len) := by
  intro _ h
  exact absurd rfl h

theorem migrateFinal (tag h addr len : Word) : Statement (.migrateFinal tag h addr len) := by
  intro _ h
  exact absurd rfl h

theorem migrateCancel (tag h : Word) : Statement (.migrateCancel tag h) := by
  intro _ h
  exact absurd rfl h

theorem migrateKeyx (tag h addr len : Word) : Statement (.migrateKeyx tag h addr len) := by
  intro _ h
  exact absurd rfl h

theorem migrateSnapshot (ctx : Nat) : Statement (.migrateSnapshot ctx) := by
  intro _ h
  exact absurd rfl h

theorem teardown (tag h : Word) : Statement (.teardown tag h) := by
  intro _ h
  exact absurd rfl h

theorem teardownRepropose (ctx : Nat) : Statement (.teardownRepropose ctx) := by
  intro _ h
  exact absurd rfl h

theorem clusterRelease (ctx : Nat) : Statement (.clusterRelease ctx) := by
  intro _ h
  exact absurd rfl h

theorem query (tag h arg : Word) : Statement (.query tag h arg) := by
  intro _ h
  exact absurd rfl h

theorem getMeasurements (index vf : Nat) : Statement (.getMeasurements index vf) := by
  intro _ h
  exact absurd rfl h

theorem powerOnBoot (pos : Nat) : Statement (.powerOnBoot pos) := by
  intro _ h
  exact absurd rfl h

theorem firmwareImageWrite (img : List Byte) : Statement (.firmwareImageWrite img) := by
  intro _ h
  exact absurd rfl h

theorem temperatureThreshold (celsius : Nat) : Statement (.temperatureThreshold celsius) := by
  intro _ h
  exact absurd rfl h

theorem voltageFault (rail core : Nat) : Statement (.voltageFault rail core) := by
  intro _ h
  exact absurd rfl h

theorem linkRetrained (port : Nat) : Statement (.linkRetrained port) := by
  intro _ h
  exact absurd rfl h

theorem tdispRequest (vf : Nat) (r : TdispReq) : Statement (.tdispRequest vf r) := by
  intro _ h
  exact absurd rfl h

theorem ideKmKeyProg (vf key : Nat) : Statement (.ideKmKeyProg vf key) := by
  intro _ h
  exact absurd rfl h

theorem valueTableCopy (group : Nat) (rows : List (Nat × Word × Word)) : Statement (.valueTableCopy group rows) := by
  intro _ h
  exact absurd rfl h

end Sys2Proof.Laws.RoundTrip
end

