-- ==== Sys2Proof/Laws/Traps.lean ====
section
/-! SUPPORT. What raising a trap does (R267): a frame whose trap can be taken is taken by the supervisor frame at once. -/
namespace Sys2Proof.Machine

theorem findSome_update {α : Type} {g h : Nat → Option α} {f : Nat} {x : α} (l : List Nat) (hf : f ∈ l)
    (hn : l.findSome? g = none) (hx : h f = some x) (he : ∀ i, i ≠ f → h i = g i) : l.findSome? h = some x := by
  induction l with
  | nil => simp at hf
  | cons i l ih =>
    rw [List.findSome?_cons] at hn
    rw [List.findSome?_cons]
    by_cases hi : i = f
    · rw [hi, hx]
    · rw [he i hi]
      cases hg : g i with
      | some y => rw [hg] at hn; simp at hn
      | none =>
        rw [hg] at hn
        exact ih (by simpa [Ne.symm hi] using hf) hn

/-- The trap of a frame is the next one that the supervisor frame takes, when no other waits. -/
theorem pendingTrap_of (c d : Core) {f : Nat} (t : TrapRec) (hf : f < 11) (hn : c.pendingTrap = none)
    (ho : ∀ g, g ≠ f → d.frameAt g = c.frameAt g) (ht : (d.frameAt f).trap = some t) (h1 : t.taken = false)
    (h2 : t.later = false) (h3 : endsFirst (d.frameAt f).wait = false) : d.pendingTrap = some (f, t) := by
  unfold Core.pendingTrap at hn ⊢
  refine findSome_update (List.range 11) (List.mem_range.2 hf) hn ?_ ?_
  · simp [ht, h1, h2, h3]
  · intro i hi
    simp only [ho i hi]

/-- The fields of SSTATUS at trap entry. -/
theorem sstatus_fields : ∀ f < 11, ∀ pk : Bool, bitsOf (BitVec.ofNat 64 (f * 65536 + (if pk then 256 else 0))).toNat 19 16 = f ∧
    (BitVec.ofNat 64 (f * 65536 + (if pk then 256 else 0))).getLsbD 1 = false ∧
    (BitVec.ofNat 64 (f * 65536 + (if pk then 256 else 0))).getLsbD 0 = false := by
  decide

/-- What trap entry leaves (R267 steps 1 and 2). -/
theorem enterTrap_taken (s : State) (n f : Nat) (cause : BitVec 8) (eval : Word) (hf : f < 10) :
    TrapTaken n f cause eval s (s.enterTrap n f ⟨cause, eval, false, false, false⟩) where
  epc := by simp [State.enterTrap, State.frameAt]
  ecause := by simp [State.enterTrap, zext64]
  eval := by simp [State.enterTrap]
  tframe := by
    simp only [State.enterTrap, State.coreAt_setCore_same]
    exact (sstatus_fields f (by omega) false).1
  kill := by
    simp only [State.enterTrap, State.coreAt_setCore_same]
    exact (sstatus_fields f (by omega) false).2.1
  skip := by
    simp only [State.enterTrap, State.coreAt_setCore_same]
    exact (sstatus_fields f (by omega) false).2.2
  busy := by simp [State.enterTrap]
  ready := by
    simp only [State.enterTrap, State.frameAt, State.coreAt_setCore_same, Core.frameAt, Core.setFrame]
    simp
  vector := by
    simp only [State.enterTrap, State.frameAt, State.coreAt_setCore_same, Core.frameAt, Core.setFrame]
    simp
  bytes := fun _ => by simp [State.enterTrap]
  others := fun m hm => by simp only [State.enterTrap]; exact State.coreAt_setCore_ne _ _ hm

/-- Giving a SEND's slot and entry back touches the frame's two fields for them and the core's slots only. -/
theorem State.dropSending_frameAt (s : State) (n f : Nat) (hf : f < 11) :
    (s.dropSending n f).frameAt n f = { s.frameAt n f with txSlot := none, txEntry := none } := by
  simp only [State.dropSending, State.frameAt, State.coreAt_setCore_same]
  exact Core.frameAt_setFrame_same _ f _ hf

theorem State.dropSending_frameAt_ne (s : State) {n f g : Nat} (h : g ≠ f) :
    ((s.dropSending n f).coreAt n).frameAt g = (s.coreAt n).frameAt g := by
  simp only [State.dropSending, State.coreAt_setCore_same]
  exact Core.frameAt_setFrame_ne _ _ h

@[simp] theorem State.dropSending_handling (s : State) (n f : Nat) :
    ((s.dropSending n f).coreAt n).handling = (s.coreAt n).handling := by
  simp [State.dropSending]

theorem State.dropSending_bytes (s : State) (n f : Nat) : SameBytes s (s.dropSending n f) := fun _ => by
  simp [State.dropSending]

theorem State.dropSending_coreAt_ne (s : State) {n m : Nat} (f : Nat) (h : m ≠ n) :
    (s.dropSending n f).coreAt m = s.coreAt m := by
  simp only [State.dropSending]
  exact State.coreAt_setCore_ne _ _ h

/-- A supervisor frame that is not busy takes the trap that waits (R267). -/
theorem State.takeNext_trap {s : State} {n f : Nat} {t : TrapRec} (hb : (s.coreAt n).busy = false)
    (hp : (s.coreAt n).pendingTrap = some (f, t)) : s.takeNext n = s.enterTrap n f t := by
  simp [State.takeNext, hb, hp]

/-- Raising a trap of a frame whose trap can be taken. -/
theorem raise_taken (s : State) (n f : Nat) (cause : BitVec 8) (eval : Word)
    (h : TrapsFree n f s) : TrapTaken n f cause eval s (s.raise n f cause eval) := by
  have hf11 : f < 11 := by have := h.frame; omega
  have hne : f ≠ 10 := by have := h.frame; omega
  have hfr := State.dropSending_frameAt s n f hf11
  have hp := pendingTrap_of (s.coreAt n)
    (((s.dropSending n f).setFrame n f (((s.dropSending n f).frameAt n f).trapped cause eval false)).coreAt n)
    ⟨cause, eval, false, false, false⟩ hf11 h.first
    (fun g hg => by
      rw [State.coreAt_setFrame_same, Core.frameAt_setFrame_ne _ _ hg, State.dropSending_frameAt_ne s hg])
    (by rw [State.coreAt_setFrame_same, Core.frameAt_setFrame_same _ _ _ hf11]; rfl) rfl rfl
    (by rw [State.coreAt_setFrame_same, Core.frameAt_setFrame_same _ _ _ hf11, hfr]
        simp [Frame.trapped, h.wait, endsFirst])
  have hr : s.raise n f cause eval =
      ((s.dropSending n f).setFrame n f (((s.dropSending n f).frameAt n f).trapped cause eval false)).enterTrap n f
        ⟨cause, eval, false, false, false⟩ := by
    have hw : endsFirst (s.frameAt n f).wait = false := by rw [h.wait]; rfl
    simp only [State.raise, hw, hne, Bool.false_eq_true, if_false]
    exact State.takeNext_trap (by simp [Core.busy, h.idle]) hp
  rw [hr]
  have ht := enterTrap_taken ((s.dropSending n f).setFrame n f (((s.dropSending n f).frameAt n f).trapped cause eval false))
    n f cause eval h.frame
  have hb := State.dropSending_bytes s n f
  constructor
  · rw [ht.epc, State.frameAt_setFrame_same _ n f _ hf11, hfr]; rfl
  · exact ht.ecause
  · exact ht.eval
  · exact ht.tframe
  · exact ht.kill
  · exact ht.skip
  · exact ht.busy
  · exact ht.ready
  · exact ht.vector
  · intro a; rw [← hb a]; simpa using ht.bytes a
  · intro m hm
    rw [ht.others m hm, State.coreAt_setFrame_ne _ f _ hm, State.dropSending_coreAt_ne s f hm]

/-- An instruction that ends in a trap. -/
theorem traps_of {i : Instr} {s : State} {cause : BitVec 8} {eval : Word}
    (h : TrapsFree s.core s.frame s) (he : exec i s = s.finish (.error (.trap cause eval))) : Traps i s cause eval :=
  ⟨_, he, raise_taken s s.core s.frame cause eval h⟩

end Sys2Proof.Machine
end

