-- ==== Sys2Proof/Tests/Slice0.lean ====
section
/-! SUPPORT. Tests of the model: ill-formed terms, words of the spec's encodings, results that the spec works out, and for
each statement a state and operands that meet its hypotheses. -/
open Sys2Proof Sys2Proof.Machine Sys2Proof.Says

set_option Elab.async false

namespace Sys2Proof.Tests

/-! ### A small machine: one context on cluster 0, with a few objects -/

/-- The descriptors from 0x10000 up (R103, R104), all of owner 9: object 1 in the TCM of core 0; 2 paged, in SRAM; 3 in host
memory; 4 with its home on die 1; 5 on device 7 under the id 21; 6 immutable; 7 with its page not mapped; 8 in the scratchpad
of cluster 0. A page-map entry at 0x20000, written under the tenant's key, maps frame 16. -/
def worldMem : List Host.Cell :=
  [(65600, 1), (65605, 1), (65621, 1), (65647, 144), (65664, 2), (65669, 1), (65685, 16), (65690, 2), (65711, 146)] ++
  [(65728, 3), (65733, 1), (65749, 1), (65774, 4), (65775, 148), (65781, 80), (65785, 64)] ++
  [(65792, 4), (65797, 1), (65813, 16), (65818, 2), (65834, 64), (65839, 146)] ++
  [(65856, 5), (65861, 1), (65877, 16), (65899, 7), (65903, 146), (65912, 21)] ++
  [(65920, 6), (65925, 1), (65941, 16), (65946, 2), (65966, 1), (65967, 146)] ++
  [(65984, 7), (65989, 1), (66005, 16), (66008, 64), (66010, 2), (66031, 146)] ++
  [(66048, 8), (66053, 1), (66069, 1), (66095, 145), (131072, 16), (131079, 128)]

/-- The tenant's versions: module 1 with an imago 2 and an exuvia 1; module 2 with an imago alone. -/
def version (n : Nat) (layout : Nat) : Version where
  ver := BitVec.ofNat 8 n
  layout := BitVec.ofNat 16 layout
  code := leBytes 4 0x000C5203 ++ leBytes 2 0x003A ++ leBytes 4 0x00004B1D ++ leBytes 2 0xFFFE
  handlers := [0, 4]
  entries := [(9, 4)]
  convs := [(1, 8)]
  lives := []
  consts := []
  table := 8

def tenant : Context :=
  { Context.empty with
    state := .running
    vf := 1
    pasid := 5
    clusters := [0, 1]
    tableOid := 62
    tableBase := 0x10000
    tableLen := 9
    tableSpan := 576
    pageOid := 63
    modules := [(1, ⟨some (version 2 2), some (version 1 1), true, false⟩), (2, ⟨some (version 1 1), none, false, false⟩)] }

/-- A capability with every right to the first n bytes of an object. -/
def full (oid n : Nat) : Cap := ⟨true, 0xFF, 1, BitVec.ofNat 40 oid, 0, BitVec.ofNat 36 n⟩

/-- A running frame: c1 to c8 reach the objects, c9 is a module capability, c10 an untagged value; gN holds N. -/
def runner : Frame :=
  { Frame.clear with
    g := Vector.ofFn (fun i => BitVec.ofNat 64 i.val)
    c := #v[Cap.null, full 1 4096, full 2 65536, full 3 4096, full 4 65536, full 5 65536, full 6 65536, full 7 65536,
      full 8 4096, ⟨true, 0xFF, 2, 1, 0, 0⟩, ⟨false, 0xFF, 1, 1, 0, 16⟩, ⟨true, 0xFF, 3, 1, 0, 0⟩, ⟨true, 0, 1, 1, 0, 4096⟩,
      ⟨true, 0xFF, 5, 3, 0, 0⟩, Cap.null, Cap.null]
    v := Vector.ofFn (fun i => Vector.ofFn (fun l => BitVec.ofNat 32 (1000 * i.val + l.val)))
    k := Vector.replicate 8 0x0000FFFF
    pc := 4
    ver := 2
    modid := 1
    state := .running }

/-- Cores 0 and 8 of the tenant, each with frame 0 running. -/
@[irreducible] def world : State :=
  { State.reset with
    core := 0
    frame := 0
    power := .p0
    ftime := 1000
    cycles := 5000
    mem := worldMem
    keys := [(2048, 0)]
    cores := [(0, Core.reset.setFrame 0 runner), (8, Core.reset.setFrame 0 runner)]
    clusters := [(0, { Cluster.reset with owner := some 1 }), (1, { Cluster.reset with owner := some 1 })]
    contexts := [(1, tenant)] }

theorem test_world_memory : Memory.wf world.mem := by decide +kernel

/-! ### Integers, branches, capabilities, special registers -/

/-- Every frame number below 11 has a state, and immediates of either sign have their 64-bit value. -/
theorem wit_frame : world.frame < 11 := by decide +kernel

theorem wit_immediate (i : BitVec 12) : IsSext i (i.signExtend 64) := by
  unfold IsSext
  exact BitVec.toInt_signExtend_of_le (by decide)

theorem wit_immediate_short (i : BitVec 6) : IsSext i (i.signExtend 64) := by
  unfold IsSext
  exact BitVec.toInt_signExtend_of_le (by decide)

theorem wit_branches :
    (world.cur.gpr 4).getLsbD 0 = false ∧ (world.cur.gpr 5).getLsbD 0 = true ∧ (world.cur.gpr 4).toInt < (world.cur.gpr 5).toInt ∧
    world.cur.gpr 0 = 0 := by decide +kernel

/-- g20 names version 2 of module 1, its imago, at 4, g21 version 1, its exuvia, g22 a version 3 that is none; the same in frame 10. -/
@[irreducible] def linking : State :=
  let fr := ((runner.setGpr 20 (linkValue 2 1 4)).setGpr 21 (linkValue 1 1 6)).setGpr 22 (linkValue 3 1 4)
  world.setFrame 0 0 fr

theorem wit_returns :
    let s := linking
    (s.ctxAt (s.ctxOf s.core)).entered ((s.cur.gpr 20).extractLsb' 32 24) ((s.cur.gpr 20).extractLsb' 56 8) = some (version 2 2) ∧
    (s.cur.gpr 20).getLsbD 0 = false ∧
    (s.ctxAt (s.ctxOf s.core)).entered ((s.cur.gpr 21).extractLsb' 32 24) ((s.cur.gpr 21).extractLsb' 56 8) = some (version 1 1) ∧
    (s.cur.gpr 21).getLsbD 0 = false ∧
    (s.ctxAt (s.ctxOf s.core)).entered ((s.cur.gpr 22).extractLsb' 32 24) ((s.cur.gpr 22).extractLsb' 56 8) = none ∧
    s.frame ≠ 10 ∧ ({ s with frame := 10 }.cur.gpr 20).getLsbD 0 = false := by decide +kernel

/-- c9 is a module capability of module 1, whose entry 9 lies at 4; c13 one of module 7, which is not there. -/
theorem wit_xcall :
    (world.cur.cap 9).tag = true ∧ (world.cur.cap 9).kind = 2 ∧ (world.cur.cap 9).rights.getLsbD 2 = true ∧
    (world.ctxAt (world.ctxOf world.core)).imago ((world.cur.cap 9).oid.extractLsb' 0 24) = some (version 2 2) ∧
    look (version 2 2).entries (9 : BitVec 16).toNat = some 4 ∧
    (world.ctxAt (world.ctxOf world.core)).imago ((7 : BitVec 40).extractLsb' 0 24) = none ∧ (world.cur.cap 10).tag = false := by
  decide +kernel

/-- Narrowing at the ends of a range: c1 has 4096 bytes. -/
theorem wit_narrow :
    (world.cur.cap 1).tag = true ∧ (world.cur.cap 1).kind ∈ [(1 : BitVec 8), 4, 6] ∧
    (4096 : Word).toNat ≤ (world.cur.cap 1).len.toNat ∧ (world.cur.cap 1).len.toNat < (4097 : Word).toNat ∧
    (world.cur.cap 10).tag = false ∧ (world.cur.cap 9).kind ∉ [(1 : BitVec 8), 4, 6] ∧
    ((runner.setGpr 20 255).gpr 20).toNat < 256 ∧ 256 ≤ ((runner.setGpr 20 256).gpr 20).toNat := by decide +kernel

theorem wit_special :
    ({ world with frame := 10 }.frame = 10) ∧ (0x100, (world.coreAt 0).epc) ∈ supervisorOnly world ∧
    (0x020, 0x00FFFFFFFFFFFFFF) ∈ writable ∧ (world.cur.gpr 4).getLsbD 0 = false ∧ (world.cur.gpr 5).getLsbD 0 = true ∧
    (∀ r ∈ [(6 : BitVec 12), 15, 0x18, 0x1F, 0x22, 0xFF, 0x200, 0xFFF], unlistedSr r ∧ ¬ (0x100 ≤ r.toNat ∧ r.toNat ≤ 0x1FF)) ∧
    (∀ r ∈ [(1 : BitVec 12), 5, 0x21], readOnlySr r) := by
  unfold unlistedSr readOnlySr supervisorOnly writable
  decide +kernel

/-- No register number falls under two of the clauses of R54. -/
theorem test_special_classes :
    ∀ r : BitVec 12, ¬ (unlistedSr r ∧ readOnlySr r) ∧ ¬ (readOnlySr r ∧ 0x100 ≤ r.toNat) := by
  intro r
  unfold unlistedSr readOnlySr
  have h : r = 0x021 ↔ r.toNat = 0x21 := ⟨fun h => by rw [h]; rfl, fun h => BitVec.eq_of_toNat_eq h⟩
  rw [h]
  omega

/-! ### Memory (statements about accesses, stores, atomics) -/

/-- The descriptor of an object of the world, from its 64 bytes as one number. -/
def ob (n : Nat) : Desc := descOf (([0,
   0x900000000000000000000000000000000000000000000000000001000000000000000000000000000000010000000001,
   0x920000000000000000000000000000000000000000020000000010000000000000000000000000000000010000000002,
   0x40000000500000000000940400000000000000000000000000000000000000000000000001000000000000000000000000000000010000000003,
   0x920000000040000000000000000000000000000000020000000010000000000000000000000000000000010000000004,
   0x150000000000000000920000000700000000000000000000000000000000000000000010000000000000000000000000000000010000000005,
   0x920100000000000000000000000000000000000000020000000010000000000000000000000000000000010000000006,
   0x920000000000000000000000000000000000000000020040000010000000000000000000000000000000010000000007,
   0x910000000000000000000000000000000000000000000000000001000000000000000000000000000000010000000008] : List Nat).getD n 0)

theorem test_descriptors : ∀ n ∈ [1, 2, 3, 4, 5, 6, 7, 8], world.liveAt (world.ctxAt 1) (BitVec.ofNat 40 n) = some (ob n) := by decide +kernel

theorem wit_traps_free : TrapsFree world.core world.frame world := by constructor <;> decide +kernel

/-- Each trap of the checks of R101 at a boundary: c10 has no tag, c9 is of kind 2, c12 has no rights, offset 4 is not aligned
to 8, offset 4096 lies beyond the 4096 bytes, object 9 does not exist, object 6 is immutable, core 8 does not
reach object 1 of the TCM of core 0. -/
theorem wit_access_checks :
    (world.cur.cap 10).tag = false ∧ (world.cur.cap 9).kind ∉ [(1 : BitVec 8), 6] ∧
    ((1 : BitVec 8) &&& ~~~(world.cur.cap 12).rights) ≠ 0 ∧
    (((world.cur.cap 1).base.toNat : Int) + 4) % (8 : Nat) ≠ 0 ∧ ¬ ((4096 : Int) + 8 ≤ (world.cur.cap 1).len.toNat) ∧
    world.liveAt (world.ctxAt (world.ctxOf world.core)) 9 = none ∧
    (world.liveAt (world.ctxAt (world.ctxOf world.core)) 6 = some (ob 6) ∧ (ob 6).imm = true ∧ (ob 6).hb = false ∧
      (ob 6).pw = false ∧ (ob 6).pageReg = false ∧ world.reachRefused world.core (ob 6) .frame false = false) ∧
    (let s := { world with core := 8 }
     s.liveAt (s.ctxAt (s.ctxOf s.core)) 1 = some (ob 1) ∧ s.reachRefused s.core (ob 1) .frame false = true) := by
  decide +kernel

theorem wit_near_load :
    Passed world (world.cur.cap 2) 65528 8 8 1 [1, 6] false (ob 2) 65528 ∧
    world.stalled world.core (ob 2).oid 65528 65536 = false ∧ Near world (ob 2) 65528 (0x100000 + 65528) 8 := by
  refine ⟨?_, by decide +kernel, .inr ⟨some (2, 0), by decide +kernel⟩, by decide +kernel⟩
  constructor <;> decide +kernel

theorem wit_remote_load :
    world.heavePending world.core = false ∧ Passed world (world.cur.cap 5) 0 8 8 1 [1, 6] false (ob 5) 0 ∧
    world.stalled world.core (ob 5).oid 0 8 = false ∧
    world.placeOf (world.ctxAt (world.ctxOf world.core)) (ob 5) 0 (dieOf world.core) = .remote (7 * 4096) 21 ∧
    7 * 4096 / 4096 ∉ world.unreachable := by
  refine ⟨by decide +kernel, ?_, by decide +kernel⟩
  constructor <;> decide +kernel

theorem wit_store :
    Passed world (world.cur.cap 1) 0 8 8 2 [1, 6] false (ob 1) 0 ∧ Released world 0 ∧ Released world 7 ∧
    world.placeOf (world.ctxAt (world.ctxOf world.core)) (ob 1) 0 (dieOf world.core) = .here (2 ^ 43) none ∧
    addrExists (2 ^ 43) = true ∧ world.badAt (2 ^ 43) 8 = none ∧ (world.coreAt world.core).buffer.length < 16 ∧
    world.tableCheck world.core world.frame (world.cur.cap 1) (2 ^ 43) (leBytes 8 7) = .ok () := by
  refine ⟨?_, fun h => absurd rfl h, fun _ => ?_, ?_⟩
  · constructor <;> decide +kernel
  all_goals decide +kernel

/-- The host has granted the page of object 3 for writing. -/
@[irreducible] def granted : State := world.setDie 0 { Die.reset with ats := [⟨5, 4, 1, true, true, true⟩] }

theorem wit_host_store :
    Passed granted (granted.cur.cap 3) 0 8 8 2 [1, 6] false (ob 3) 0 ∧ Released granted 0 ∧
    granted.placeOf (granted.ctxAt (granted.ctxOf granted.core)) (ob 3) 0 (dieOf granted.core) = .host 5 0x4000 ∧
    granted.homeOf (granted.ctxAt (granted.ctxOf granted.core)) (ob 3) ((ob 3).stripe 0) / 4096 = granted.pos ∧
    granted.buffered granted.core granted.frame = false ∧ memWf granted.mem = true := by
  refine ⟨?_, fun h => absurd rfl h, ?_⟩
  · constructor <;> decide +kernel
  · decide +kernel

/-- Memory of clusters is not encrypted. -/
theorem keyed_above (s : State) (k a n : Nat) (h : 2 ^ 42 ≤ a) : Keyed s k a n := .inl h

/-- One store of eight bytes, plain or of a capability, waits in the store buffer of core 0. -/
@[irreducible] def buffered (c : Option Cap) : State :=
  world.setCore 0 { world.coreAt 0 with buffer := [⟨0, 1, 1, 2 ^ 43, List.replicate 16 7, c, none⟩] }

theorem waits_none : NoneWaits (buffered none) 0 where
  entering := by decide +kernel
  ending := fun f h e => by
    have : ∀ f, f < 11 → ((buffered none).frameAt 0 f).wait = none := by decide +kernel
    rw [this f h]; exact fun h => by cases h
  messages := by decide +kernel
  traps := .inr (by decide +kernel)

theorem wit_drain :
    NoneWaits (buffered none) 0 ∧ Keyed (buffered none) 1 (2 ^ 43) 16 ∧ PlainBytes (buffered none) (2 ^ 43) 16 ∧
    memWf (buffered none).mem = true ∧ (buffered (some (full 2 16))).coreAt 0 ≠ (buffered none).coreAt 0 := by
  exact ⟨waits_none, keyed_above _ 1 _ 16 (by decide), .inl (by decide), by decide +kernel⟩

theorem wit_capability_access :
    Passed world (world.cur.cap 1) 16 16 16 9 [1] false (ob 1) 16 ∧ Near world (ob 1) 16 (2 ^ 43 + 16) 16 ∧
    (ob 1).whole = none ∧ Passed world (world.cur.cap 1) 16 16 16 10 [1] false (ob 1) 16 ∧ (ob 1).hb = false ∧
    world.tableCheck world.core world.frame (world.cur.cap 1) (2 ^ 43 + 16) (leBytes 16 (capNat (world.cur.cap 1))) = .ok () := by
  refine ⟨?_, ⟨.inr ⟨none, ?_⟩, ?_⟩, ?_, ?_, ?_⟩
  all_goals first
    | decide +kernel
    | (constructor <;> decide +kernel)

/-- The object table of the tenant, through its window: object 1's descriptor lies at offset 64 of it. -/
theorem wit_minting :
    let s := world.setFrame 0 0 (runner.setCap 13 (full 62 576))
    let o := (s.liveAt (s.ctxAt 1) 62).getD (descOf 0)
    Passed s (s.cur.cap 13) 64 16 16 9 [1] false o 64 ∧ Near s o 64 (0x10000 + 64) 16 ∧ o.whole = some 0x10000 ∧
    64 / 64 < (s.ctxAt (s.ctxOf s.core)).tableLen ∧
    bitsOf (leNat (s.readOwn s.core s.frame ((s.ctxAt (s.ctxOf s.core)).descAddr 1) 64)) 40 40 = 1 := by
  refine ⟨?_, ⟨.inr ⟨none, ?_⟩, ?_⟩, ?_⟩
  all_goals first
    | decide +kernel
    | (constructor <;> decide +kernel)

theorem wit_atomic_here (n : Nat) (hn : n = 4 ∨ n = 8) : AtomicHere world (world.cur.cap 1) n 7 (ob 1) 0 (2 ^ 43) where
  passed := by rcases hn with rfl | rfl <;> constructor <;> decide +kernel
  place := ⟨none, by decide +kernel⟩
  home := by decide +kernel
  sound := by rcases hn with rfl | rfl <;> decide +kernel
  plain := .inl (by decide)
  table := fun _ _ => by unfold State.tableCheck; exact if_pos (by decide)
  order := by decide +kernel
  keyed := keyed_above _ _ _ n (by decide)
  form := by decide +kernel

theorem wit_atomic_elsewhere :
    (∀ w : BitVec 1, Passed world (world.cur.cap 5) 0 (if w = 1 then 8 else 4) (if w = 1 then 8 else 4) 3 [1] true (ob 5) 0) ∧
    (ob 5).whole = none ∧
    (if world.far (ob 5) then (ob 5).home else world.homeOf (world.ctxAt (world.ctxOf world.core)) (ob 5) ((ob 5).stripe 0)) =
      7 * 4096 ∧
    world.cur.acked 7 = true ∧ world.buffered world.core world.frame = false := by
  refine ⟨fun w => ?_, by decide +kernel⟩
  have hw : w = 0 ∨ w = 1 := by revert w; decide
  rcases hw with rfl | rfl <;> constructor <;> decide +kernel

/-! ### Vectors -/

theorem wit_elements (need : BitVec 8) (h : need &&& ~~~(world.cur.cap 1).rights = 0) (hw : need.getLsbD 1 = true → (ob 1).imm = false) :
    ElementsNear world (world.cur.cap 1) 4 need 0 (fun l => (l : Int) * 4) (fun _ => ob 1) (fun l => 4 * l)
      (fun l => 2 ^ 43 + 4 * l) := by
  have hb : (world.cur.cap 1).base.toNat = 0 := by decide +kernel
  have hn : (world.cur.cap 1).len.toNat = 4096 := by decide +kernel
  refine ⟨fun l hl _ => ⟨by decide +kernel, by decide +kernel, h, ?_, ?_, ?_, ?_, by decide +kernel, by decide +kernel, hw,
    by decide +kernel⟩, fun l hl _ => ⟨none, ?_⟩, fun l hl _ => ?_⟩
  · simp only [hb]; omega
  · omega
  · omega
  · simp only [hn]; omega
  · have : ∀ l, l < 32 → world.placeOf (world.ctxAt (world.ctxOf world.core)) (ob 1) (4 * l) (dieOf world.core) =
        .here (2 ^ 43 + 4 * l) none := by decide +kernel
    exact this l hl
  · have : ∀ l, l < 32 → addrExists (2 ^ 43 + 4 * l) = true ∧ world.badAt (2 ^ 43 + 4 * l) 4 = none := by decide +kernel
    exact this l hl

theorem wit_lane_access :
    ((1 : BitVec 8) &&& ~~~(world.cur.cap 1).rights = 0) ∧ ((2 : BitVec 8) &&& ~~~(world.cur.cap 1).rights = 0) ∧
    (ob 1).imm = false ∧ world.stalled world.core (ob 1).oid 0 4096 = false ∧ (world.coreAt world.core).buffer.length < 16 ∧
    world.tableCheck world.core world.frame (world.cur.cap 1) (2 ^ 43) [1, 2, 3, 4] = .ok () := by decide +kernel

/-- Half of the lanes are guarded by k1: a reduction over 16 lanes. -/
theorem wit_guarded : ∀ l, l ∈ List.range 16 ↔ l < 32 ∧ Guarded world 1 l := by
  have h : ∀ l, l < 32 → (l < 16 ↔ (world.cur.mask 1).getLsbD l = true) := by decide +kernel
  intro l
  rw [List.mem_range]
  constructor
  · intro hl
    exact ⟨by omega, .inr ((h l (by omega)).1 hl)⟩
  · rintro ⟨hl, h1 | h1⟩
    · exact absurd h1 (by decide)
    · exact (h l hl).2 h1

/-- The table of the example of R175, whose entries are their codes by 4: it ascends. -/
@[irreducible] def quarters : State :=
  world.setCore 0 { world.coreAt 0 with lut := (List.range 256).map (fun i => (i, lutOf (lane32 (.num false i (-2))))) }

theorem wit_ascends : Ascends (tableOf quarters) :=
  lt_of_adjacent _ 256 (by
    have h : ∀ i, i < 255 → (tableOf quarters i).lt (tableOf quarters (i + 1)) = true := by unfold tableOf; decide +kernel
    exact fun i hi => h i (by omega))

/-- The example's result: 1.125 lies midway between 1.0 and 1.25, and the lower code is taken. -/
theorem test_nearest_code : IsFinite 0x3F900000 ∧ encodeLut (quarters.coreAt 0) 0 0x3F900000 = 4 := by
  unfold IsFinite
  decide +kernel

/-! ### Barriers and waits -/

/-- Barrier capabilities: c14 to the barrier at offset 64 of object 8, complete, c15 to that at offset 96, which expects one
arrival; frame 1 waits for the latter. -/
@[irreducible] def barriers : State :=
  let s := { world with mem := memPut world.mem (padAddr 0 (96 + 8)) [1] }
  let fr := (s.cur.setCap 14 ⟨true, 3, 4, 8, 64, 32⟩).setCap 15 ⟨true, 3, 4, 8, 96, 32⟩
  (s.setFrame 0 0 fr).setFrame 0 1 { runner with state := .parked, park := some (.barrier 5 false [⟨0, 8, 96, 0, none⟩]) }

theorem wit_barriers :
    BarrierAt barriers (barriers.cur.cap 14) (ob 8) 64 0 ∧ BarrierAt barriers (barriers.cur.cap 15) (ob 8) 96 0 ∧
    barriers.barAddr (barriers.ctxOf barriers.core) (ob 8).oid 64 = some (padAddr 0 64) ∧
    barriers.barAddr (barriers.ctxOf barriers.core) (ob 8).oid 96 = some (padAddr 0 96) ∧
    barriers.barSettled 0 = .ok () ∧ barriers.far (ob 8) = false ∧ barriers.coreid barriers.core = 0 ∧
    (barAt barriers.mem (padAddr 0 64)).complete ∧ ¬ (barAt barriers.mem (padAddr 0 96)).complete ∧
    (barAt barriers.mem (padAddr 0 96)).arr ≤ (barAt barriers.mem (padAddr 0 96)).exp ∧
    memWf barriers.mem = true ∧ barriers.cur.park = none ∧ barriers.cur.acked 4 = true ∧
    barriers.buffered barriers.core barriers.frame = false ∧ MayPark barriers := by
  unfold BarrierAt Bar.complete MayPark
  refine ⟨?_, ?_, ?_, ?_, ?_, ?_, ?_, ?_, ?_, ?_, ?_, ?_, ?_, ?_, .inr ?_⟩ <;> decide +kernel

theorem wit_barrier_checks : TrapsFree barriers.core barriers.frame barriers := by constructor <;> decide +kernel

/-- BARANY of c14 and c15: barrier 6 is complete, 7 is not. -/
theorem wit_barany :
    ∀ i, i < 8 → (0xC0 : BitVec 8).getLsbD i = true →
      BarrierAt barriers (barriers.cur.cap (BitVec.ofNat 4 (8 + i))) (ob 8) (64 + 32 * (i - 6)) 0 ∧
      barriers.barAddr (barriers.ctxOf barriers.core) (ob 8).oid (64 + 32 * (i - 6)) = some (padAddr 0 (64 + 32 * (i - 6))) := by
  unfold BarrierAt
  decide +kernel

theorem wit_completion :
    (0, 1) ∈ barriers.framesOf 1 ∧ (barriers.frameAt 0 1).saved = none ∧
    (barriers.frameAt 0 1).park = some (.barrier 5 false [⟨0, 8, 96, 0, none⟩]) ∧
    barriers.barAddr 1 8 96 = some (padAddr 0 96) := by decide +kernel

/-- A fence waits where an access is not acknowledged. -/
theorem wit_fence : world.cur.acked 7 = true ∧ world.buffered world.core world.frame = false ∧
    ({ runner with posted := [⟨3, 4, false⟩] } : Frame).acked 4 = false := by decide +kernel

/-- Hardware barrier 2 of device scope with both cores enrolled, and 1 of the pod with two other devices. -/
@[irreducible] def gates : State :=
  { world with
    hbars := [(⟨5, scopeInstance 5 0, 2⟩, ⟨[0, 8], [], [8]⟩), (⟨6, 0, 1⟩, ⟨[0], [3, 4], []⟩)]
    declared := [(3, 900)] }

theorem wit_hardware_barrier :
    gates.hbarAt ⟨5, scopeInstance 5 gates.core, 2⟩ = some ⟨[0, 8], [], [8]⟩ ∧ gates.core ∈ [0, 8] ∧ gates.cur.acked 5 = true ∧
    gates.buffered gates.core gates.frame = false ∧ gates.heavePending gates.core = false ∧
    gates.hbarAt ⟨4, scopeInstance 4 gates.core, 2⟩ = none ∧ (look gates.declared 3).isSome ∧
    gates.hbarAt ⟨6, 0, 1⟩ = some ⟨[0], [3, 4], []⟩ ∧ [4] = [3, 4].filter (· ≠ 3) ∧ ¬ (∀ n, n ∈ [0] → n ∈ ([] : List Nat)) := by
  decide +kernel

theorem wit_hbar_traps : TrapsFree gates.core gates.frame gates := by constructor <;> decide +kernel

theorem wit_hbar_episode :
    let x : Hbar := ⟨[0, 8], [], [8, 0]⟩
    x.cores ≠ [] ∧ ∀ n, n ∈ x.cores → n ∈ x.arrived := by decide

theorem wit_waita :
    Passed world (world.cur.cap 1) 0 8 8 1 [1] false (ob 1) 0 ∧
    ((ob 1).tier = 0 ∧ (ob 1).hb = false ∧ (ob 1).pw = false ∧ (ob 1).pageReg = false ∧ (ob 1).whole = none ∧
      world.far (ob 1) = false ∧ world.stalled world.core (ob 1).oid 0 8 = false ∧ tcmAddr world.core ((ob 1).pmap + 0) = 2 ^ 43 ∧
      addrExists (2 ^ 43) = true ∧ world.badAt (2 ^ 43) 8 = none ∧
      leNat (world.readOwn world.core world.frame (2 ^ 43) 8) ≠ (world.cur.gpr 5).toNat ∧
      leNat (world.readOwn world.core world.frame (2 ^ 43) 8) = (world.cur.gpr 0).toNat ∧
      (world.clusterAt (clusterOf world.core)).monitors.length < 64) := by
  refine ⟨?_, by decide +kernel⟩
  constructor <;> decide +kernel

/-- Frame 1 has waited for a millisecond with a monitor entry, frame 2 for a microsecond without one, frame 3 has paused. -/
@[irreducible] def waiters : State :=
  let s := { world with ftime := 2000000, clusters := [(0, { Cluster.reset with owner := some 1, monitors := [(0, 1)] })] }
  let s := s.setFrame 0 1 { runner with state := .parked, park := some (.waita 5 0 (2 ^ 43) false 1000000) }
  let s := s.setFrame 0 2 { runner with state := .parked, park := some (.waita 5 0 (2 ^ 43) true 1999000) }
  s.setFrame 0 3 { runner with state := .ready, pauseTo := 4999 }

theorem wit_waiters :
    (∀ f, f < 4 → (waiters.frameAt 0 f).saved = none) ∧
    (waiters.frameAt 0 1).park = some (.waita 5 0 (2 ^ 43) false 1000000) ∧ 1000000 + 1000000 ≤ waiters.ftime ∧
    waiters.readNat (2 ^ 43) 8 = (0 : Word).toNat ∧
    (waiters.frameAt 0 2).park = some (.waita 5 0 (2 ^ 43) true 1999000) ∧ 1999000 + 1000 ≤ waiters.ftime ∧
    (waiters.frameAt 0 3).pauseTo ≤ waiters.cycles := by decide +kernel

/-! ### Traps, the supervisor, issue -/

/-- Frame 2 of core 0 has trapped, the supervisor frame is free, a machine event waits. -/
@[irreducible] def trapping (handling : Bool) (trap : Option TrapRec) (events : List MachEvent) : State :=
  let s := world.setFrame 0 2 { runner with trap := trap }
  s.setCore 0 { s.coreAt 0 with handling := handling, events := events, epc := linkValue 2 1 4, sstatus := 0x20000 }

theorem wit_trap_waits :
    let s := trapping false (some ⟨CAPTAG, 5, false, false, false⟩) [⟨true, 9, 15⟩]
    (s.coreAt 0).handling = false ∧ (s.frameAt 0 2).trap = some ⟨CAPTAG, 5, false, false, false⟩ ∧ (s.frameAt 0 2).state ≠ .stopped ∧
    (s.frameAt 0 2).wait = none ∧ ∀ g, g < 2 → (s.frameAt 0 g).trap = none := by decide +kernel

theorem wit_event :
    let s := trapping false none []
    let t := trapping false none [⟨true, 9, 15⟩]
    (∀ g, g < 11 → (s.frameAt 0 g).trap = none ∧ (t.frameAt 0 g).trap = none) ∧ (s.coreAt 0).handling = false ∧
    (s.coreAt 0).events = [] ∧ (t.coreAt 0).handling = false ∧ (t.coreAt 0).events = ⟨true, 9, 15⟩ :: [] ∧
    ((trapping true none []).coreAt 0).handling = true := by decide +kernel

/-- The supervisor frame runs and handles frame 2's trap. -/
@[irreducible] def handling (sstatus : Word) : State :=
  let s := trapping true (some ⟨CAPTAG, 5, true, false, false⟩) []
  let s := s.setFrame 0 10 { Frame.clear with state := .running }
  { s.setCore 0 { s.coreAt 0 with sstatus := sstatus } with frame := 10 }

theorem wit_eret (x : Word) (h : x = 0x20000 ∨ x = 0x20001 ∨ x = 0x20002) :
    (handling x).frame = 10 ∧ ((handling x).coreAt (handling x).core).handling = true ∧
    bitsOf ((handling x).coreAt (handling x).core).sstatus.toNat 19 16 = 2 ∧
    ((handling x).frameAt (handling x).core 2).trap = some ⟨CAPTAG, 5, true, false, false⟩ := by
  rcases h with rfl | rfl | rfl <;> decide +kernel

theorem wit_eret_bits :
    ((handling 0x20000).coreAt 0).sstatus.getLsbD 1 = false ∧ ((handling 0x20000).coreAt 0).sstatus.getLsbD 0 = false ∧
    ((handling 0x20001).coreAt 0).sstatus.getLsbD 0 = true ∧ ((handling 0x20002).coreAt 0).sstatus.getLsbD 1 = true ∧
    ((handling 0x20001).ctxAt ((handling 0x20001).ctxOf 0)).entered 1 2 = some (version 2 2) ∧
    ((handling 0x20001).coreAt 0).epc.extractLsb' 0 32 = 4 := by decide +kernel

/-- The supervisor frame has trapped itself; nothing waits for it. -/
theorem wit_eret_own :
    let s := { (handling 0xA0000).setFrame 0 10 { Frame.clear with state := .running, trap := some ⟨TRAPCODE, 5, true, false, false⟩ } with frame := 10 }
    s.frame = 10 ∧ (s.coreAt s.core).handling = true ∧ bitsOf (s.coreAt s.core).sstatus.toNat 19 16 = 10 ∧
    (s.frameAt s.core 10).trap = some ⟨TRAPCODE, 5, true, false, false⟩ ∧ s.buffered s.core 2 = false := by decide +kernel

theorem nothing_waits : NoTrapWaits (handling 0x20000) 0 ∧ NoTrapWaits { world with frame := 10 } 0 := by
  have h : ∀ g, g < 10 → g ≠ 2 → ((handling 0x20000).frameAt 0 g).trap = none := by decide +kernel
  have k : ∀ g, g < 10 → (({ world with frame := 10 } : State).frameAt 0 g).trap = none := by decide +kernel
  refine ⟨⟨by decide +kernel, fun g tr hg e => ?_⟩, by decide +kernel, fun g tr hg e => ?_⟩
  · by_cases hg2 : g = 2
    · subst hg2
      have : ((handling 0x20000).frameAt 0 2).trap = some ⟨CAPTAG, 5, true, false, false⟩ := by decide +kernel
      rw [this] at e
      cases e
      exact .inl rfl
    · rw [h g hg hg2] at e
      cases e
  · rw [k g hg] at e
    cases e

theorem wit_eret_none :
    let s := { world with frame := 10 }
    s.currentTrap s.core = none ∧ (s.coreAt s.core).sstatus.getLsbD 1 = false := by decide +kernel

theorem wit_skip : (version 2 2).code[4]? = some 0x3A := by simp [version, leBytes]

/-- HALT with nothing waiting, with a trap of frame 2 waiting, and with an event waiting. -/
theorem wit_halt :
    let s := { world with frame := 10 }
    let t := { trapping false (some ⟨CAPTAG, 5, false, false, false⟩) [⟨true, 9, 15⟩] with frame := 10 }
    let u := { trapping true none [⟨true, 9, 15⟩] with frame := 10 }
    s.cur.trap = none ∧ t.cur.trap = none ∧ u.cur.trap = none ∧
    (t.coreAt t.core).pendingTrap = some (2, ⟨CAPTAG, 5, false, false, false⟩) ∧
    (u.coreAt u.core).pendingTrap = none ∧ (u.coreAt u.core).events = ⟨true, 9, 15⟩ :: [] := by decide +kernel

/-- Frame 2 is parked on a page fault with sequence number 7, and frame 3 behind a failed wait. -/
@[irreducible] def faulted : State :=
  let s := world.setFrame 0 2 { runner with state := .parked, park := some .fault, faultSeq := 7 }
  let s := s.setFrame 0 3 { runner with state := .parked, park := some (.trapped REMOTEERR 1), faultSeq := 8 }
  s.setFrame 0 0 ((((s.cur.setGpr 5 0x0000000700000002).setGpr 6 0x0000000800000003).setGpr 7 0x80000000).setGpr 8 0x0000000700001002)

theorem wit_fresume :
    (faulted.cur.gpr 7).getLsbD 31 = true ∧ (faulted.cur.gpr 5).getLsbD 31 = false ∧
    (faulted.cur.gpr 5).toNat % 16 = 2 ∧ (faulted.cur.gpr 5).toNat / 2 ^ 12 % 4 = 0 ∧
    (faulted.frameAt faulted.core 2).faultSeq.toNat = (faulted.cur.gpr 5).toNat / 2 ^ 32 ∧
    (faulted.frameAt faulted.core 2).saved = none ∧ (faulted.frameAt faulted.core 2).state = .parked ∧
    (faulted.frameAt faulted.core 2).park = some .fault ∧ (faulted.cur.gpr 6).toNat % 16 = 3 ∧
    (faulted.frameAt faulted.core 3).park = some (.trapped REMOTEERR 1) ∧
    (faulted.cur.gpr 8).toNat / 2 ^ 12 % 4 = 1 ∧ faulted.buffered faulted.core 3 = false ∧ (faulted.frameAt faulted.core 3).act = none ∧
    (0x0000000800002003 : Word).toNat / 2 ^ 12 % 4 = 2 ∧ (0x0000000800003003 : Word).toNat / 2 ^ 12 % 4 = 3 ∧ (faulted.cur.gpr 9).toNat % 16 = 9 ∧
    (faulted.frameAt faulted.core 9).faultSeq.toNat = (faulted.cur.gpr 9).toNat / 2 ^ 32 ∧
    (faulted.frameAt faulted.core 9).state ≠ .parked := by decide +kernel

/-- The ladder has come to heave-to, and version 2 has a live map for the point 3. -/
@[irreducible] def heaving : State :=
  let v := { version 2 2 with lives := [(3, 0x00000020, 1, 2, 1)] }
  { world with contexts := [(1, { tenant with modules := [(1, ⟨some v, none, false, false⟩)], ladder := some ⟨.heaveTo, 0, .pause, [], 1, 2, 3⟩ })] }

theorem wit_safe :
    world.heavePending world.core = false ∧ heaving.frame ≠ 10 ∧ heaving.heavePending heaving.core = true ∧
    (heaving.versionOf heaving.core heaving.cur).map (fun v => look v.lives 3) = some (some (0x00000020, 1, 2, 1)) := by
  decide +kernel

theorem wit_choice : world.choose 0 = some 0 ∧ world.canIssue 0 0 = true ∧ State.reset.choose 0 = none := by decide +kernel

/-- Frame 0 of core 0, at offset 4 of version 2, is to issue `nop`; with the pc at 0 it is `add g4, g5, g6`. -/
@[irreducible] def issuing (pc : BitVec 32) (agenda : List Turn) : State :=
  { world.setFrame 0 0 { runner with pc := pc } with agenda := agenda, core := if agenda = [] then 8 else 0 }

theorem wit_step :
    (issuing 4 [.issue 0]).live = true ∧ (issuing 4 [.issue 0]).agenda = [.issue 0] ∧
    ({ issuing 4 [.issue 0] with agenda := [] } : State).choose 0 = some 0 ∧
    (issuing 0 []).agenda = [] ∧ (issuing 0 []).engineTurn = false ∧ (issuing 0 []).nextIssue = some (0, 0) := by decide +kernel

theorem wit_fetches : Fetches (issuing 0 []) 0 0 (.add 0 6 5 4) ∧ Fetches (issuing 4 []) 0 0 .nop := by
  refine ⟨⟨⟨(version 2 2).code, 4, ?_⟩, ?_⟩, ⟨⟨(version 2 2).code, 2, ?_⟩, ?_⟩⟩ <;> decide +kernel

/-- Beyond the end, at a pattern that is not listed, and in a version that is gone. -/
theorem wit_fetch_traps :
    (issuing 12 [.issue 0]).codeOf 0 0 = some (version 2 2).code ∧ (version 2 2).code.length ≤ 12 ∧
    ((version 2 2).code.getD 10 0).getLsbD 0 = false ∧
    (match decodeBytes (((version 2 2).code.drop 10).take 2) with | .ok _ => false | .error _ => true) = true ∧
    ({ world with contexts := [] } : State).codeOf 0 0 = none ∧ (issuing 12 [.issue 0]).badCode = [] := by decide +kernel

/-! ### Messages -/

/-- A message to object 2 of module 1 (class 1), sent by core 8 with slot 3. -/
def letter (rq urgent : Bool) : Msg where
  host := false
  sl := false
  dlv := false
  rq := rq
  u := urgent
  nw := 1
  stripe := 0
  deadline := 0
  gen := 0
  slotseq := 9
  slot := 3
  sender := 8
  objid := 2
  modid := 1
  cls := 1
  payload := [11, 12, 0, 0, 0, 0, 0, 0]

def queued (rq urgent : Bool) : QEntry := ⟨letter rq urgent, 900, 0, .here, false⟩

/-- SEND to object 2 through c2, to a full queue, to another device, and with every slot busy. -/
def noRoom : State := { world with inflight := (List.range 256).map (fun _ => .messageArrival 0 (letter false false) .here) }

def noSlots : State :=
  world.setCore 0 { world.coreAt 0 with slots := (List.range 64).map (fun i => (i, ⟨true, 1, 0, none, false, none⟩)) }

theorem wit_send :
    world.sendTarget world.core (world.cur.cap 2) = .ok ⟨.core 0, 9, 2, 0, false⟩ ∧ 0 < world.roomAt 0 false ∧
    0 < world.roomAt 0 true ∧ world.cur.acked 6 = true ∧ world.buffered world.core world.frame = false ∧
    (world.coreAt world.core).freeSlot = some 0 ∧ world.cur.txSlot = none ∧ world.cur.txEntry = none ∧
    world.heavePending world.core = false ∧ (buffered none).buffered 0 0 = true := by decide +kernel

theorem wit_send_stops :
    (noSlots.coreAt noSlots.core).freeSlot = none ∧ (world.cur.cap 10).tag = false ∧
    ((world.cur.cap 11).tag = true ∧ (world.cur.cap 11).kind ∉ [(1 : BitVec 8), 2]) ∧
    ((world.cur.cap 12).kind ∈ [(1 : BitVec 8), 2] ∧ (world.cur.cap 12).rights.getLsbD 2 = false) ∧
    ({ world with unreachable := [7] } : State).sendTarget 0 (world.cur.cap 5) = .ok ⟨.device (7 * 4096), 9, 21, 0, false⟩ ∧
    7 * 4096 / 4096 ∈ [7] := by decide +kernel

theorem wit_send_full : noRoom.roomAt 0 false = 0 := by decide +kernel

/-- Core 0 holds the message; cluster 2 belongs to no tenant. -/
@[irreducible] def mailed (rq : Bool) : State :=
  world.setCore 0 { world.coreAt 0 with normalQ := [queued rq false], serial := 1 }

theorem wit_arrival :
    (mailed true).evictedCluster (clusterOf 0) = false ∧ (mailed true).takesMessages 0 = true ∧
    (mailed true).retiredMsg (letter true false) .here = false ∧ 0 < (mailed true).roomAt 0 false ∧
    (∀ x ∈ ((mailed true).coreAt 0).queue false, x.serial < ((mailed true).coreAt 0).serial) ∧
    (mailed true).takesMessages 16 = false ∧ (letter true false).sender.toNat / 4096 = (mailed true).pos := by decide +kernel

theorem wit_dispatch :
    (mailed true).mayDispatch 0 false = true ∧ ((mailed true).coreAt 0).freeFrame false = some 1 ∧
    (mailed true).chosen 0 false = some (queued true false) ∧
    ((mailed true).ctxAt ((mailed true).ctxOf 0)).imago 1 = some (version 2 2) ∧
    (mailed true).liveAt ((mailed true).ctxAt ((mailed true).ctxOf 0)) 2 ≠ none ∧
    (version 2 2).handlers.getD 1 0xFFFFFFFF = 4 ∧
    ¬ (900 + ((mailed true).coreAt 0).dslack.toNat < (mailed true).ftime) := by decide +kernel

theorem wit_dispatch_none :
    let s := { mailed true with contexts := [(1, { tenant with modules := [] })] }
    (s.ctxAt (s.ctxOf 0)).imago (letter true false).modid = none ∧ s.mayDispatch 0 false = true ∧
    s.chosen 0 false = some (queued true false) ∧ s.retiredMsg (letter true false) .here = false := by decide +kernel

/-- Frame 0 runs the message, with its token in c2 and object 2 locked. -/
@[irreducible] def running (buffer : List PStore) (act : Bool) : State :=
  let token : Cap := ⟨true, 0, 3, 1, 2, 3⟩
  let fr := { runner with act := if act then some ⟨.message, 1, some (queued true false), token, false, 950⟩ else none }
  let s := world.setFrame 0 0 (fr.setCap 2 token)
  let s := s.setCore 0 { s.coreAt 0 with buffer := buffer }
  s.setCtx 1 { tenant with locks := [⟨2, 0, 0, 0, none⟩, ⟨3, 0, 8, 1, none⟩] }

theorem wit_running :
    let s := running [] true
    (s.cur.act.map (·.kind)) = some .message ∧ (s.cur.act.bind (·.entry)) = some (queued true false) ∧
    (s.cur.act.map (fun a => sameToken (s.cur.cap 2) a.token)) = some true ∧ (s.cur.act.map (·.used)) = some false ∧
    (s.cur.cap 2).tag = true ∧ (s.cur.cap 2).kind = 3 ∧ s.cur.posted = [] ∧ s.buffered s.core s.frame = false ∧
    s.retiredMsg (letter true false) .here = false ∧ (letter true false).sender.toNat / 4096 = s.pos ∧ s.cur.cvt = false ∧
    s.frame < 10 ∧ (∀ l ∈ (s.ctxAt 1).locks, l.lender = none) := by decide +kernel

theorem wit_reply_traps :
    let s := running [] false
    s.cur.act = none ∧ (s.cur.cap 2).kind = 3 ∧ (s.cur.cap 10).tag = false ∧ (s.cur.cap 1).kind ≠ 3 := by decide +kernel

theorem wit_done_waits :
    let s := running [⟨0, 1, 1, 2 ^ 43, [1], none, none⟩] false
    let t := running [⟨0, 1, 1, 2 ^ 43, [1], none, none⟩] true
    s.buffered s.core s.frame = true ∧ s.cur.act = none ∧ s.cur.cvt = false ∧ s.frame < 10 ∧
    t.buffered t.core t.frame = true ∧ (t.cur.act.map (·.kind)) = some .message ∧ t.cur.cvt = false := by decide +kernel

/-- A message's activation waits in place for its last store. -/
@[irreducible] def ending : State :=
  let s := running [⟨0, 1, 1, 2 ^ 43, [1], none, none⟩] true
  s.setFrame 0 0 { s.frameAt 0 0 with wait := some (.ending none) }

theorem wit_done_drains :
    (ending.coreAt 0).buffer = [⟨0, 1, 1, 2 ^ 43, [1], none, none⟩] ∧ (ending.coreAt 0).outgoing = [] ∧
    (∀ g, g < 11 → (ending.frameAt 0 g).entering = []) ∧ (ending.frameAt 0 0).wait = some (.ending none) ∧
    ((ending.frameAt 0 0).act.map (·.kind)) = some .message ∧ PlainBytes ending (2 ^ 43) 1 :=
  ⟨by decide +kernel, by decide +kernel, by decide +kernel, by decide +kernel, by decide +kernel, .inl (by decide)⟩

/-- Frame 1 is parked behind a SEND with slot 3, whose time has come. -/
@[irreducible] def awaiting : State :=
  let s := world.setFrame 0 1 { runner with state := .parked, park := some (.reply 3 20 1) }
  s.setCore 0 { s.coreAt 0 with slots := [(3, ⟨true, 9, 1, some 8, false, some 1000⟩)] }

theorem wit_reply_arrives :
    look (awaiting.coreAt 0).slots (3 : BitVec 6).toNat = some ⟨true, 9, 1, some 8, false, some 1000⟩ ∧
    (awaiting.frameAt 0 1).park = some (.reply 3 20 1) ∧ (awaiting.frameAt 0 1).saved = none ∧ 1000 ≤ awaiting.ftime := by
  decide +kernel

/-- An urgent frame runs a message of a spent quota; the window has run out. -/
@[irreducible] def quota : State :=
  let s := world.setFrame 0 8 { runner with act := some ⟨.message, 1, some (queued true true), Cap.null, false, 950⟩ }
  { s.setCore 0 { s.coreAt 0 with winCount := 60000 } with cycles := 210000 }

theorem wit_quota :
    (quota.coreAt 0).winStart + (quota.coreAt 0).window ≤ quota.cycles ∧ (quota.coreAt 0).quota ≤ (quota.coreAt 0).winCount ∧
    (quota.frameAt 0 8).wait = none ∧ (quota.frameAt 0 8).state = .running := by decide +kernel

/-- Core 0 holds twelve stateless messages, its neighbours none. -/
@[irreducible] def uneven : State :=
  world.setCore 0 { world.coreAt 0 with
    normalQ := (List.range 12).map (fun i => { queued false false with serial := i, msg := { letter false false with sl := true } }) }

theorem wit_balance :
    let p := (uneven.ctxAt (uneven.ctxOf 0)).cores
    0 < p.length ∧ p.getD 0 0 = 0 ∧ p.Nodup ∧ (uneven.coreAt 0).balanceAt ≤ uneven.ftime ∧ 1 ∈ neighbours p.length 0 ∧
    (∀ l ∈ neighbours p.length 0, (uneven.coreAt (p.getD 1 0)).stateless.length = (uneven.coreAt (p.getD l 0)).stateless.length ∧
      1 ≤ l) ∧
    (uneven.coreAt (p.getD 1 0)).stateless.length + 8 < (uneven.coreAt 0).stateless.length ∧
    ((uneven.coreAt 0).normalQ.map (·.serial)).Nodup ∧ (∀ e ∈ (uneven.coreAt 0).normalQ, e.msg.u = false) := by decide +kernel

/-- The partition is reefed, and object 2, whose home is core 0, has a message in the queue of core 8. -/
@[irreducible] def reefed : State :=
  let s := world.setCore 8 { world.coreAt 8 with normalQ := [queued true false], serial := 1 }
  s.setCtx 1 { tenant with ladder := some ⟨.reef, 0, .pause, [], 1, 2, 3⟩ }

theorem wit_forward :
    reefed.ctxOf 8 = 1 ∧ reefed.reefed 1 = true ∧ 8 ∈ (reefed.ctxAt 1).cores ∧ (reefed.ctxAt 1).cores.Nodup ∧
    (∀ m ∈ (reefed.ctxAt 1).cores, m ≠ 8 → (reefed.coreAt m).normalQ = [] ∧ (reefed.coreAt m).urgentQ = []) ∧
    (reefed.coreAt 8).normalQ = [queued true false] ∧ (reefed.coreAt 8).urgentQ = [] ∧
    reefed.liveAt (reefed.ctxAt 1) 2 = some (ob 2) ∧ reefed.far (ob 2) = false ∧
    reefed.homeOf (reefed.ctxAt 1) (ob 2) 0 % 4096 = 0 ∧ reefed.ctxOf 0 = 1 ∧ 0 < reefed.roomAt 0 false := by decide +kernel

/-! ### Requests, modules, converters -/

/-- A request of core 8 for object 2, whose home is core 0. -/
def ask (op : ReqOp) (oid : BitVec 40) (home : Nat) : Request :=
  ⟨5, 8, 1, 1, home, 1, 2, 2, 0, oid, oid, 8, op, .load, true⟩

theorem wit_request :
    (ask (.load 8) 2 0).core / 4096 = world.pos ∧ (ask (.load 8) 2 0).home / 4096 = world.pos ∧
    (ask (.load 8) 2 4096).home / 4096 ≠ world.pos ∧
    world.liveAt (world.ctxAt 1) 2 = some (ob 2) ∧ addrExists 0x100008 = true ∧
    world.placeOf (world.ctxAt 1) (ob 2) 8 (dieOf (0 % 4096)) = .here 0x100008 (some (2, 0)) ∧
    spanExists 0x100008 8 = true ∧ world.tainted = [] ∧ 5 ∉ world.arrived ∧
    world.badAt 0x100008 8 = none ∧ world.liveAt (world.ctxAt 1) 0 = none := by decide +kernel

/-- A store to object 1, in the TCM of core 0: no tenant's tables are there. -/
theorem wit_request_store :
    world.placeOf (world.ctxAt 1) (ob 1) 8 (dieOf (0 % 4096)) = .here (2 ^ 43 + 8) none ∧ PlainBytes world (2 ^ 43 + 8) 4 ∧
    Keyed world 1 (2 ^ 43 + 8) 4 ∧ spanExists (2 ^ 43 + 8) 4 = true ∧
    world.badAt (2 ^ 43 + 8) 4 = none ∧ memWf world.mem = true :=
  ⟨by decide +kernel, .inl (by decide), keyed_above _ _ _ 4 (by decide), by decide +kernel⟩

/-- Frame 1 waits for a word, frame 2 for a capability, frame 3 has a posted atomic. -/
@[irreducible] def asking (amoerr : Word) : State :=
  let s := world.setFrame 0 1 { runner with state := .parked, park := some (.remote 4 [5] (.word 6 4 true)) }
  let s := s.setFrame 0 2 { runner with state := .parked, park := some (.remote 4 [5] (.cap 6)) }
  s.setFrame 0 3 { runner with posted := [⟨5, 4, true⟩], amoerr := amoerr }

theorem wit_answers :
    let s := asking 0
    (s.frameAt 0 1).park = some (.remote 4 [5] (.word 6 4 true)) ∧ (s.frameAt 0 2).park = some (.remote 4 [5] (.cap 6)) ∧
    s.keeper 0 = none ∧ (s.frameAt 0 1).wait = none ∧ (s.frameAt 0 1).state = .parked ∧
    (s.frameAt 0 1).saved = none ∧ (s.frameAt 0 2).saved = none ∧ (s.frameAt 0 3).park = none ∧
    (s.frameAt 0 3).posted = [⟨5, 4, true⟩] ∧ (s.frameAt 0 3).amoerr.toNat / 2 ^ 48 = 0 ∧
    ((asking (2 ^ 48)).frameAt 0 3).amoerr.toNat / 2 ^ 48 ≠ 0 := by decide +kernel

/-- Module 1 has an exuvia; frame 2 of core 8 runs in it and is parked. Module 2 has a staged version 3. -/
@[irreducible] def modules (old : Bool) (claim : Bool) : State :=
  let x := { tenant with modules := [(1, ⟨some (version 2 2), some (version 1 1), true, false⟩),
    (2, ⟨some (version 1 1), some (version 3 1), false, false⟩), (3, ⟨some (version 1 1), none, false, false⟩)] }
  let s := { world with contexts := [(1, x)] }
  let fr := (s.cur.setCap 13 ⟨true, 0xFF, 2, 2, 0, 0⟩).setCap 14 ⟨true, 0xFF, 2, 3, 0, 0⟩
  let s := s.setFrame 0 0 fr
  let s := if old then s.setFrame 8 2 { runner with ver := 1, state := .parked, park := some .fault } else s
  if claim then
    { s with
      groups := [(4, { Group.reset with owner := some 1 })]
      claims := [(0, { ClaimSlot.reset with state := .announced, ann := ⟨4, 0x8000000000000002, 3, 0, 0, 0, 0, [], []⟩ })] }
  else s

theorem wit_module_caps :
    let s := modules true false
    ModuleCap (s.cur.cap 9) 1 ∧ ModuleCap (s.cur.cap 13) 2 ∧ ModuleCap (s.cur.cap 14) 3 ∧ s.cur.wait = none ∧ s.frame < 10 := by
  unfold ModuleCap
  decide +kernel

theorem wit_module_checks :
    (world.cur.cap 10).tag = false ∧ (world.cur.cap 1).kind ≠ 2 ∧ (world.cur.cap 11).kind ∉ [(1 : BitVec 8), 6] ∧
    (world.ctxAt (world.ctxOf world.core)).moduleAt 1 = ⟨some (version 2 2), some (version 1 1), true, false⟩ ∧
    (world.oldFrames (world.ctxOf world.core) 1).length < 2 ^ 32 ∧ world.exterior (ob 2) = false ∧ world.far (ob 2) = false := by
  decide +kernel

/-- One old frame, none, a pinned staged version, an unpinned one, nothing to remove. -/
theorem wit_purges :
    (modules true false).oldFrames 1 1 = [(8, 2)] ∧ ((modules true false).frameAt 8 2).state = .parked ∧
    ((modules true false).frameAt 8 2).trap = none ∧ ((modules true false).frameAt 8 2).wait = none ∧
    ((modules true false).coreAt 8).handling = false ∧ ((modules true false).coreAt 8).pendingTrap = none ∧
    ((modules true false).ctxAt 1).moduleAt 1 = ⟨some (version 2 2), some (version 1 1), true, false⟩ ∧
    (modules false false).cur.park = none ∧ (modules false false).oldFrames 1 1 = [] ∧ (modules false true).pinned 1 2 3 = true ∧
    (modules false false).pinned 1 2 3 = false ∧ (((modules false false).ctxAt 1).moduleAt 3).other = none ∧
    (((modules false false).ctxAt 1).moduleAt 2).exuvia = false := by decide +kernel

theorem wit_switch :
    let s := modules false false
    s.released s.core s.frame 5 = true ∧ s.unbound s.core s.frame 1 (version 3 1) = false ∧ s.cur.park = none ∧
    s.unbound s.core s.frame 1 { version 3 1 with consts := [0] } = true := by decide +kernel

/-- An image window of 64 bytes holds no image. -/
theorem wit_image :
    let s := (modules false false).setFrame 0 0 ((modules false false).cur.setCap 12 (full 1 64))
    s.access s.core (s.cur.cap 12) 0 (s.cur.cap 12).len.toNat 1 1 [1] .frame false = .ok (ob 1, 0) ∧
    (match s.readImage s.core s.frame (ob 1) 0 64 with | .ok (some bytes, _) => (parseImage bytes).isNone | _ => false) = true := by
  decide +kernel

/-- An image window over object 4, whose home is on die 1: the bytes are asked for. -/
theorem wit_image_far :
    let s := (modules false false).setFrame 0 0 ((modules false false).cur.setCap 12 (full 4 64))
    s.access s.core (s.cur.cap 12) 0 (s.cur.cap 12).len.toNat 1 1 [1] .frame false = .ok (ob 4, 0) ∧
    (match s.readImage s.core s.frame (ob 4) 0 64 with | .ok (none, _) => true | _ => false) = true := by
  decide +kernel

/-- Frame 8 converts object 2 for version 2, and frame 1 waits behind it. -/
@[irreducible] def converting : State :=
  let fr := { runner with cvt := true, act := some ⟨.converter 2 7, 1, none, Cap.null, false, 900⟩ }
  let s := (world.setFrame 0 8 fr).setFrame 0 1 { runner with state := .parked, park := some (.convert 2) }
  { s.setCtx 1 { tenant with pasid := 0, keyid := 0, convs := [⟨2, 0, some 8, []⟩], locks := [⟨2, 0, 0, 8, some (0, 1)⟩] } with frame := 8 }

theorem wit_cvtend :
    let s := converting
    s.frame < 10 ∧ s.cur.cvt = true ∧ s.cur.act = some ⟨.converter 2 7, 1, none, Cap.null, false, 900⟩ ∧ s.ctxOf s.core = 1 ∧
    s.cur.acked 6 = true ∧ s.buffered s.core s.frame = false ∧ memWf s.mem = true ∧ s.liveAt (s.ctxAt 1) 2 = some (ob 2) ∧
    (ob 2).whole = none ∧ (ob 2).pageReg = false ∧
    s.contexts.findSome? (fun p => match p.2.descIndex ((s.ctxAt 1).descAddr 2) with
      | some i => some (p.1, i)
      | none => none) = some (1, 2) ∧
    (ob 2).pasid = (s.ctxAt 1).pasid.toNat ∧ (ob 2).keyid = (s.ctxAt 1).keyid.toNat ∧
    (∀ v ∈ (s.ctxAt 1).convs, v.oid = 2 → v.waiting = []) ∧ (0, 1) ∈ s.framesOf 1 ∧
    (s.frameAt 0 1).park = some (.convert 2) ∧ (s.frameAt 0 1).saved = none ∧ world.cur.cvt = false := by decide +kernel

/-- Something waits to start on core 0: a converter, or an upcall of each kind. -/
@[irreducible] def starting (u : Start) : State :=
  world.setCore 0 { world.coreAt 0 with starts := [u], fupc := linkValue 2 1 4 }

/-- Each of them can be taken. -/
def Takeable (u : Start) : Prop :=
  ((starting u).coreAt 0).freeFrame true = some 8 ∧ (starting u).upcallVersion 0 = some (1, version 2 2) ∧
    (starting u).nextStart 0 (fun _ => true) = some u

theorem wit_starts :
    ∀ u ∈ [Start.converter 1 2 1 2 1 none, .frameFault 1 3 7 1 2 3 4 false, .memory 1 2 5 7 1 2 3 4, .page 1 1 2 3,
      .trap 1 3 7 1 2 3], Takeable u := by unfold Takeable; decide +kernel

/-- The first stripe is free; or a handler on core 0 holds it. -/
theorem wit_converter_locks :
    let s := starting (.converter 1 2 1 2 1 none)
    let t := s.setCtx 1 { tenant with locks := [⟨2, 0, 0, 3, none⟩] }
    FreeOrLent s 1 2 none 0 ∧ ¬ FreeOrLent t 1 2 none 0 ∧ 0 ∈ (ob 2).stripes ∧
    (∀ l ∈ (t.ctxAt 1).locks, ¬ (l.core = 0 ∧ l.frame = 8)) ∧
    t.nextStart 0 isConverter = some (.converter 1 2 1 2 1 none) := by
  refine ⟨fun l h => ?_, fun h => ?_, by decide +kernel⟩
  · have : ((starting (.converter 1 2 1 2 1 none)).ctxAt 1).lockOf 2 0 = none := by decide +kernel
    rw [this] at h
    cases h
  · exact absurd (h ⟨2, 0, 0, 3, none⟩ (by decide +kernel)) (by decide)

theorem wit_start_converter :
    ((starting (.converter 1 2 1 2 1 none)).ctxAt 1).entered 1 2 = some (version 2 2) ∧
    look (version 2 2).convs (1 : BitVec 16).toNat = some 8 ∧
    (starting (.converter 1 2 1 2 1 none)).liveAt ((starting (.converter 1 2 1 2 1 none)).ctxAt 1) 2 = some (ob 2) ∧
    (starting (.converter 1 2 1 2 1 none)).nextStart 0 isConverter = some (.converter 1 2 1 2 1 none) := by decide +kernel

/-- An image of module 3 (R28, R29): version 5, layout 1, the code `done; nop`, every handler at 0. Its digest was computed with
another implementation of SHA3-512. -/
def image : List Byte :=
  (([86, 73, 82, 80, 1, 0, 5, 0, 3, 0, 0, 0, 1, 0, 0, 0, 128, 0, 0, 0, 4, 0, 0, 0, 132] ++ List.replicate 43 0 ++ [196, 4] ++
    List.replicate 58 0 ++ [26, 0, 58, 0] ++ List.replicate 1024 0 ++
    [137, 41, 241, 149, 106, 94, 7, 226, 211, 176, 93, 136, 144, 168, 43, 63] ++
    [180, 73, 45, 40, 104, 90, 211, 6, 164, 10, 10, 53, 3, 80, 150, 99] ++
    [18, 71, 77, 31, 195, 184, 25, 78, 213, 28, 184, 202, 115, 126, 183, 178] ++
    [6, 105, 160, 196, 236, 56, 153, 202, 129, 207, 111, 247, 15, 179, 105, 169] : List Nat)).map (BitVec.ofNat 8)

/-- The image from address 2^43 up, object 1's place. -/
def imageCells : List Host.Cell :=
  [(8796093022208, 86), (8796093022209, 73), (8796093022210, 82), (8796093022211, 80), (8796093022212, 1)] ++
  [(8796093022214, 5), (8796093022216, 3), (8796093022220, 1), (8796093022224, 128), (8796093022228, 4)] ++
  [(8796093022232, 132), (8796093022276, 196), (8796093022277, 4), (8796093022336, 26), (8796093022338, 58)] ++
  [(8796093023364, 137), (8796093023365, 41), (8796093023366, 241), (8796093023367, 149), (8796093023368, 106)] ++
  [(8796093023369, 94), (8796093023370, 7), (8796093023371, 226), (8796093023372, 211), (8796093023373, 176)] ++
  [(8796093023374, 93), (8796093023375, 136), (8796093023376, 144), (8796093023377, 168), (8796093023378, 43)] ++
  [(8796093023379, 63), (8796093023380, 180), (8796093023381, 73), (8796093023382, 45), (8796093023383, 40)] ++
  [(8796093023384, 104), (8796093023385, 90), (8796093023386, 211), (8796093023387, 6), (8796093023388, 164)] ++
  [(8796093023389, 10), (8796093023390, 10), (8796093023391, 53), (8796093023392, 3), (8796093023393, 80)] ++
  [(8796093023394, 150), (8796093023395, 99), (8796093023396, 18), (8796093023397, 71), (8796093023398, 77)] ++
  [(8796093023399, 31), (8796093023400, 195), (8796093023401, 184), (8796093023402, 25), (8796093023403, 78)] ++
  [(8796093023404, 213), (8796093023405, 28), (8796093023406, 184), (8796093023407, 202), (8796093023408, 115)] ++
  [(8796093023409, 126), (8796093023410, 183), (8796093023411, 178), (8796093023412, 6), (8796093023413, 105)] ++
  [(8796093023414, 160), (8796093023415, 196), (8796093023416, 236), (8796093023417, 56), (8796093023418, 153)] ++
  [(8796093023419, 202), (8796093023420, 129), (8796093023421, 207), (8796093023422, 111), (8796093023423, 247)] ++
  [(8796093023424, 15), (8796093023425, 179), (8796093023426, 105), (8796093023427, 169)]

/-- The image lies in object 1, the one object, and descriptors are free. -/
@[irreducible] def installing : State :=
  let s := modules false false
  let x := s.ctxAt 1
  let s := { s with contexts := [(1, { x with tableLen := 10 })], mem := worldMem.take 4 ++ imageCells }
  s.setFrame 0 0 (s.cur.setCap 12 (full 1 1220))

/-- MINST finds the image, which R30 does not refuse, and room for its version. -/
theorem wit_install :
    (match installing.readImage installing.core installing.frame (ob 1) 0 1220 with
      | .ok (some bytes, s) => (match parseImage bytes with
        | some img => decide (img.modid = 3 ∧ img.ver = 5 ∧ ¬ img.layout < 1) && (s.loadVersion 0 1 img).isSome &&
            decide ((s.ctxAt 1).imago 3 = some (version 1 1))
        | none => false)
      | _ => false) = true := by decide +kernel

/-! ### The copy unit -/

/-- A push of 100 bytes from object 1 to object 8 at 512, on channel 2, with the barrier of c15; c13 has no right to read. -/
@[irreducible] def pushing (full' : Bool) : State :=
  let s := barriers
  let fr := (s.cur.setCap 11 ⟨true, 0x0F, 1, 8, 512, 256⟩).setCap 13 ⟨true, 0x0E, 1, 8, 0, 16⟩
  let fr := { (fr.setGpr 20 (100 + 2 ^ 41)).setGpr 21 (2 ^ 51) with qrowlen := 32 }
  let q : CopyReq := ⟨0, 0, 0, 1, .plain, full 1 9, full 8 9, 1, fr.cap 15, false, [], [], [], Intake.empty, [], 0, none⟩
  let s := s.setFrame 0 0 fr
  if full' then s.setCore 0 { s.coreAt 0 with fifo := List.replicate 16 q } else s

theorem wit_push :
    let s := pushing false
    BarrierAt s (s.cur.cap 15) (ob 8) 96 0 ∧ memWf s.mem = true ∧ wordBad (s.cur.gpr 20) = false ∧
    s.pushChecks (s.cur.cap 1) (s.cur.cap 11) (s.cur.gpr 20) = .ok ([(s.cur.cap 11, ob 8), (s.cur.cap 1, ob 1)], 4) ∧
    s.layoutCheck s.core s.frame (s.cur.cap 11) (ob 8) = .ok () ∧ s.layoutCheck s.core s.frame (s.cur.cap 1) (ob 1) = .ok () ∧
    s.pushing = false ∧ s.far (ob 1) = false ∧ s.far (ob 5) = true ∧ s.fifoFull = false ∧ s.cur.posted = [] ∧ s.cur.park = none ∧ s.buffered s.core s.frame = false ∧ s.far (ob 8) = false ∧
    s.barSettled 0 = .ok () ∧ s.barAddr (s.ctxOf s.core) (ob 8).oid 96 = some (padAddr 0 96) ∧
    (pushing true).fifoFull = true ∧ (pushing true).heavePending 0 = false ∧
    (s.cur.gpr 21).extractLsb' 51 5 ≠ 0 ∧ world.cur.qrowlen = 0 := by
  unfold BarrierAt
  decide +kernel

/-- A barrier in object 5, in a scratchpad of device 7. -/
theorem wit_push_far :
    let s := (pushing false).setFrame 0 0 ((pushing false).cur.setCap 14 ⟨true, 3, 4, 5, 64, 32⟩)
    let s := { s with mem := memSet s.mem 65903 145 }
    (match s.barCheck (s.cur.cap 14) with
      | .ok (o, off, home) => decide (off = 64 ∧ home = 7 * 4096 ∧ s.far o = true)
      | _ => false) = true ∧ s.barSettled (7 * 4096) = .ok () ∧
    wordCh (s.cur.gpr 20) ≠ 7 ∧ s.fifoFull = false := by decide +kernel

theorem wit_gather :
    let s := pushing false
    (s.cur.qrowlen.toNat = 32 ∧ ((List.range 32).filter (s.cur.guards 7)).length = 16) ∧
    s.access s.core (s.cur.cap 1) ↑((15 : Nat) * 32) 32 1 1 [1] .copyUnit false = .ok (ob 1, 480) ∧
    s.access s.core (s.cur.cap 8) ↑((15 : Nat) * 32) 32 1 2 [1, 6] .copyUnit false = .ok (ob 8, 480) := by decide +kernel

/-- The request is accepted, its sectors at 512 (the 100 bytes lie in one). Core 8 has one plain request and core 0 a media kick
in the FIFO. Channel 2 is armed over the destination. -/
def copyOf (fill : Bool) : CopyReq :=
  ⟨6, 0, 0, 1, .plain, full 1 4096, ⟨true, 0x0F, 1, 8, 512, 256⟩,
    if fill then 100 + 2 ^ 41 + 2 ^ 49 + 0xAB * 2 ^ 56 else 100 + 2 ^ 41, ⟨true, 3, 4, 8, 96, 32⟩, false, [], [], [], Intake.empty, [], 0, none⟩

@[irreducible] def copying (fill : Bool) : State :=
  let s := barriers
  let s := { s with mem := memPut s.mem (2 ^ 43) [1, 2, 3, 4] }
  let s := s.setCore 0 { s.coreAt 0 with fifo := [{ copyOf false with kind := .media }] }
  let s := s.setCore 8 { s.coreAt 8 with fifo := [{ copyOf false with core := 8 }] }
  s.setCluster 0 { s.clusterAt 0 with accepted := [copyOf fill], channels := [(2, ⟨true, 0, 8, 1, 512, 256, []⟩)] }

theorem wit_sector (f : Bool) : SectorReady (copying f) 0 (copyOf f) 0 (ob 8) (padAddr 0 512) where
  found := by cases f <;> decide +kernel
  left := by cases f <;> decide +kernel
  free := by cases f <;> decide +kernel
  idle := by cases f <;> decide +kernel
  goes := by cases f <;> decide +kernel
  first := by cases f <;> decide +kernel
  digest := by cases f <;> decide +kernel
  live := by cases f <;> decide +kernel
  place := ⟨none, by cases f <;> decide +kernel⟩
  keyed := keyed_above _ _ _ _ (by decide)

theorem wit_copy :
    wordFill (copyOf true).word = true ∧ wordFill (copyOf false).word = false ∧ (copyOf false).readsAhead = false ∧
    (copyOf false).left = [0] ∧ (copyOf false).sector 0 = ⟨512, 0, 100⟩ ∧
    (copying false).enginePieces ((copying false).ctxAt 1) (ob 1) 0 100 (0 / 128) false =
      .ok [⟨0, 100, .here (2 ^ 43) none⟩] ∧
    (copying false).barAddr 1 8 96 = some (padAddr 0 96) ∧ padAddr 0 96 + 12 ≤ padAddr 0 512 ∧
    (∀ p ∈ (copying false).contexts, dieAddr 0 p.2.tableBase + 64 * p.2.tableLen ≤ padAddr 0 512) ∧
    ((copying false).coreAt 0).fifo = [{ copyOf false with kind := .media }] ∧
    ((copying false).coreAt 8).fifo = [{ copyOf false with core := 8 }] ∧ 0 < (copyOf false).count ∧
    (∀ r ∈ ((copying false).clusterAt 1).accepted, (copying false).jammed r.intake = false) ∧
    memWf (copying false).mem = true := by decide +kernel

theorem wit_copy_keyed : Keyed (copying false) 1 (2 ^ 43) 100 := keyed_above _ _ _ _ (by decide)

theorem wit_copy_tables : ∀ p ∈ (copying false).contexts, (copying false).mapEntries p.2 (padAddr 0 512) 100 = [] := by
  decide +kernel

/-- Channel 2 of the cluster is armed, channel 3 is not. -/
theorem wit_watermarks :
    let s := (copying false).setFrame 0 0 ((copying false).cur.setCap 1 (full 2 65536))
    (s.cur.gpr 2).toNat ≤ 6 ∧ 6 < (s.cur.gpr 7).toNat ∧ (s.cur.cap 1).rights.getLsbD 0 = true ∧ (s.cur.cap 1).kind = 1 ∧
    s.liveAt (s.ctxAt (s.ctxOf s.core)) 2 = some (ob 2) ∧ s.reachRefused s.core (ob 2) .copyUnit true = false ∧
    s.far (ob 2) = false ∧
    dieOf (s.homeOf (s.ctxAt (s.ctxOf s.core)) (ob 2) ((ob 2).stripe 0) % 4096) = dieOf s.core ∧
    look (s.clusterAt (clusterOf s.core)).channels (s.cur.gpr 2).toNat = some ⟨true, 0, 8, 1, 512, 256, []⟩ ∧
    look (s.clusterAt (clusterOf s.core)).channels (s.cur.gpr 3).toNat = none ∧
    (s.cur.cap 10).tag = false ∧ (s.cur.cap 9).kind ≠ 1 ∧ (s.cur.cap 12).rights.getLsbD 0 = false := by decide +kernel

/-- An encoder runs a job of 16 by 16 pixels whose job object lies at the start of object 8; another kick waits. -/
def kick : CopyReq :=
  ⟨7, 0, 0, 1, .media, ⟨true, 0x0F, 1, 8, 0, 96⟩, ⟨true, 0x0F, 1, 8, 3000, 8⟩, 0, ⟨true, 3, 4, 8, 96, 32⟩, false, [], [], [], Intake.empty, [], 0, none⟩

def windowOf (off n : Nat) : Cap := ⟨true, 0x0F, 1, 8, BitVec.ofNat 36 off, BitVec.ofNat 36 n⟩

@[irreducible] def encoding (width : Nat) : State :=
  let s := barriers
  let job := leBytes 16 (capNat (windowOf 1024 256)) ++ leBytes 16 (capNat (windowOf 1280 128)) ++
    leBytes 16 (capNat (windowOf 1536 1024)) ++ leBytes 6 (width + 2 ^ 16 * 16 + 2 ^ 32 * 8 + 2 ^ 40)
  let a := padAddr 0 0
  let s := { s with mem := memPut s.mem a job, tags := [a / 16, a / 16 + 1, a / 16 + 2] }
  s.setDie 0 { s.dieAt 0 with media := [kick], mediaQ := [{ kick with id := 8 }] }

theorem wit_media_accept :
    ((encoding 16).dieAt 0).mediaQ = [{ kick with id := 8 }] ∧ ((encoding 16).dieAt 0).media.length < 6 ∧
    kick.intake = Intake.empty ∧ kick.wsent = [] ∧ kick.result = none ∧
    (∀ r ∈ ((encoding 16).dieAt 0).media, (encoding 16).jammed r.intake = false ∧ r.mediaJob = none) := by decide +kernel

/-- The job that the kick names. -/
def jobOf (w : Nat) : MediaJob := mediaParse (memBytes (encoding w).mem (padAddr 0 0) 96, (encoding w).tagsOf 0 (padAddr 0 0) 96)

/-- A window of object 8 that starts at an offset lies there in the scratchpad. -/
theorem window_at (w off n : Nat) (c : Cap) (ho : c.oid = 8 ∧ c.base.toNat = off) (hl : off < 2 ^ 21) (hn : n ≤ 2 ^ 35) (hs : spanExists (padAddr 0 off) n = true)
    (hb : (encoding w).badAt (padAddr 0 off) n = none)
    (hd : (encoding w).liveAt ((encoding w).ctxAt 1) 8 = some (ob 8) ∧
      ∀ i, i < n → (encoding w).placeOf ((encoding w).ctxAt 1) (ob 8) (off + i) 0 = .here (padAddr 0 off + i) none) :
    WindowAt (encoding w) 1 0 c n (padAddr 0 off) where
  live := ⟨ob 8, by rw [ho.1]; exact hd.1, fun i hi => ⟨none, by rw [ho.2]; exact hd.2 i hi⟩⟩
  spans := ⟨hn, hs⟩
  sound := hb
  keyed := keyed_above _ _ _ _ (by unfold padAddr; rw [if_pos hl]; omega)

theorem wit_media_object : ∀ w, w = 16 ∨ w = 15 → WindowAt (encoding w) kick.ctx 0 kick.src 96 (padAddr 0 0) := by
  intro w h
  rcases h with rfl | rfl <;>
    exact window_at _ 0 96 kick.src (by decide +kernel) (by decide) (by decide) (by decide +kernel) (by decide +kernel) (by decide +kernel)

theorem wit_media_end :
    (∀ w ∈ [16, 15], ((encoding w).dieAt 0).media.find? (fun r => decide (r.id = 7)) = some kick ∧
      (encoding w).heldBack (mediaRecord 0 7) = false ∧ memWf (encoding w).mem = true ∧
      (encoding w).mediaBad 1 (jobOf w) = decide (w = 15)) ∧ (jobOf 16).fl = 1 ∧
    temporalUnit true [0x12, 0, 0x0A, 1, 0, 0x32, 1, 0] = true ∧ temporalUnit true [0x12, 0, 0x0A, 1, 0, 0x32, 2, 0, 0] = true ∧
    kick.dst.len.toNat = 8 ∧ (jobOf 16).refcap = { windowOf 1536 1024 with tag := true } ∧
    mediaReads 0 kick (jobOf 16) = [mediaOperand 0 kick 1 (windowOf 1024 256) 256, mediaOperand 0 kick 2 (windowOf 1280 128) 128] := by
  refine ⟨by decide +kernel, by decide +kernel, by decide +kernel, by decide +kernel, by decide +kernel, by decide +kernel, ?_⟩
  have h : (jobOf 16).fl = 1 ∧ (jobOf 16).ycap = windowOf 1024 256 ∧ (jobOf 16).uvcap = windowOf 1280 128 ∧ (jobOf 16).area = 256 := by
    decide +kernel
  simp [mediaReads, h.1, h.2.1, h.2.2.1, h.2.2.2]

theorem wit_media_windows :
    WindowAt (encoding 16) 1 0 (windowOf 1024 256) 256 (padAddr 0 1024) ∧ WindowAt (encoding 16) 1 0 (windowOf 1280 128) 128 (padAddr 0 1280) ∧
    WindowAt (encoding 16) 1 0 (windowOf 1536 1024) 4 (padAddr 0 1536) ∧ WindowAt (encoding 16) 1 0 kick.dst 8 (padAddr 0 3000) :=
  ⟨window_at _ 1024 _ _ (by decide +kernel) (by decide) (by decide) (by decide +kernel) (by decide +kernel) (by decide +kernel),
   window_at _ 1280 _ _ (by decide +kernel) (by decide) (by decide) (by decide +kernel) (by decide +kernel) (by decide +kernel),
   window_at _ 1536 _ _ (by decide +kernel) (by decide) (by decide) (by decide +kernel) (by decide +kernel) (by decide +kernel),
   window_at _ 3000 _ _ (by decide +kernel) (by decide) (by decide) (by decide +kernel) (by decide +kernel) (by decide +kernel)⟩

theorem wit_media_tables :
    ∀ p ∈ (encoding 16).contexts, dieAddr 0 p.2.tableBase + 64 * p.2.tableLen ≤ padAddr 0 0 ∧
      (encoding 16).mapEntries p.2 (padAddr 0 64) 8 = [] ∧ (encoding 16).mapEntries p.2 (padAddr 0 3000) 3 = [] := by
  decide +kernel

/-! ### The matrix engine -/

/-- g20 to g23 hold a job of 2 by 3 words over 40 elements, for tile 1 from row 126 and column 125 on, which replaces the words
there; int8 elements of either kind. Frame 2 waits for job 3, job 4 has ended with -2. -/
def matrixJob (fctx0 : Word) : Job :=
  ⟨5, 9, 0, 1, fctx0, 2, 3, 40, 0x7D7E0101, full 8 4096, ⟨true, 0xFF, 2, 1, 0, 0⟩, full 8 4096, ⟨true, 0xFF, 2, 1, 0, 0⟩, false,
    false, Intake.empty, []⟩

@[irreducible] def matrices (fctx0 : Word) (jobs : List Job) (running : Option Job) : State :=
  let s := { world with mem := memPut (memPut world.mem (padAddr 0 0) [1, 2, 255]) (2 ^ 43) (leBytes 4 0x3FC00000) }
  let fr := (((s.cur.setGpr 20 2).setGpr 21 3).setGpr 22 40).setGpr 23 0x7D7E0101
  let fr := ((fr.setGpr 24 fctx0).setGpr 25 (2 + 2 ^ 24 + 2 ^ 32 + 2 ^ 40)).setGpr 26 (1 + 128 * 2 ^ 32)
  let s := s.setFrame 0 0 { fr with fctx0 := fctx0, fctx1 := 0x3F8000003F800000 }
  let s := s.setFrame 0 2 { runner with state := .parked, park := some (.job 6 5) }
  let s := s.setCore 0 { s.coreAt 0 with
    records := [(4, some (-2)), (5, none)], nextJob := 255, tiles := [(tileKey 1 126 125, 7), (tileKey 2 0 0, 8), (tileKey 2 0 1, 9)] }
  { s.setCluster 0 { s.clusterAt 0 with jobs := jobs, running := running, lastCore := 7 } with nextId := 20 }

theorem wit_format_contexts :
    GoodContext 0x677 ∧ GoodContext 0x3199 ∧ ¬ GoodContext 0x110 ∧ ¬ GoodContext 0x611 ∧ ¬ GoodContext 0x4111 := by
  unfold GoodContext
  decide +kernel

theorem wit_matrix_traps : TrapsFree 0 0 (matrices 0x677 [] none) := by constructor <;> decide +kernel

theorem wit_job :
    let s := matrices 0x677 [] none
    GoodShape (s.cur.gpr 20) (s.cur.gpr 21) (s.cur.gpr 22) (s.cur.gpr 23) ∧
    ¬ GoodShape (s.cur.gpr 20) (s.cur.gpr 0) (s.cur.gpr 22) (s.cur.gpr 23) ∧
    (∀ q ∈ (matrixJob 0x677).operands, s.access s.core q.1 0 q.2 1 1 [1] .engine false = .ok (ob 8, 0)) ∧
    s.jobsFull = false ∧ s.cur.posted = [] ∧ s.cur.park = none ∧ s.buffered s.core s.frame = false ∧ MayPark s := by
  unfold GoodShape MayPark
  decide +kernel

/-- The job that MMJOB makes there. -/
theorem wit_is_job : ∃ j, IsJob (matrices 0x677 [] none) 20 8 8 j ∧ j.operands = (matrixJob 0x677).operands ∧ j.id = 255 :=
  ⟨⟨255, 20, 0, 1, 0x677, 2, 3, 40, 0x7D7E0101, full 8 4096, ⟨true, 0xFF, 2, 1, 0, 0⟩, full 8 4096, ⟨true, 0xFF, 2, 1, 0, 0⟩, false,
    false, Intake.empty, []⟩, by constructor <;> decide +kernel, by decide +kernel, rfl⟩

theorem wit_jobs_full : (matrices 0x677 (List.replicate 32 (matrixJob 0x677)) none).jobsFull = true ∧
    (matrices 0x677 (List.replicate 31 (matrixJob 0x677)) none).jobsFull = false := by decide +kernel

theorem wit_mmwait :
    let s := matrices 0x677 [matrixJob 0x677] none
    look (s.coreAt s.core).records (s.cur.gpr 4).toNat = some (some (-2)) ∧
    look (s.coreAt s.core).records (s.cur.gpr 6).toNat = none ∧
    look (s.coreAt s.core).records (s.cur.gpr 5).toNat = some none ∧ 255 < (s.cur.gpr 26).toNat := by decide +kernel

theorem wit_mmzero :
    let s := matrices 0x677 [matrixJob 0x677] none
    TileQuiet s 2 ∧ ¬ TileQuiet s 1 ∧ (∀ j ∈ s.jobsOf s.core, j.uid < s.nextId) ∧ s.cur.wait = none ∧
    ((s.cur.gpr 2).extractLsb' 2 62 = 0 ∧ ((s.cur.gpr 2).extractLsb' 0 2).toNat = 2) ∧
    ((s.cur.gpr 1).extractLsb' 2 62 = 0 ∧ ((s.cur.gpr 1).extractLsb' 0 2).toNat = 1) ∧
    (s.cur.gpr 5).extractLsb' 2 62 ≠ 0 ∧ (s.coreAt 0).tileWord 2 0 1 = 9 := by
  unfold TileQuiet
  decide +kernel

/-- A table from offset 128 of object 1 for bank 1. -/
theorem wit_mmldt :
    let s := matrices 0x677 [] none
    Passed s (s.cur.cap 1) ((s.cur.gpr 26).extractLsb' 32 32).toNat 1024 4 1 [1] false (ob 1) 128 ∧ s.cur.park = none ∧
    s.stalled s.core (ob 1).oid 128 1152 = false ∧ (ob 1).pageReg = false ∧
    (s.jobsOf s.core).any (usesBank 1) = false ∧ (s.cur.gpr 26).extractLsb' 1 31 = 0 ∧ (s.cur.gpr 26).extractLsb' 32 2 = 0 ∧
    (∀ i, i < 256 → Near s (ob 1) (128 + 4 * i) (2 ^ 43 + 128 + 4 * i) 4) := by
  have h : ∀ i, i < 256 →
      (matrices 0x677 [] none).placeOf ((matrices 0x677 [] none).ctxAt ((matrices 0x677 [] none).ctxOf (matrices 0x677 [] none).core)) (ob 1)
          (128 + 4 * i) (dieOf (matrices 0x677 [] none).core) =
        .here (2 ^ 43 + 128 + 4 * i) none ∧ addrExists (2 ^ 43 + 128 + 4 * i) = true ∧
      (matrices 0x677 [] none).badAt (2 ^ 43 + 128 + 4 * i) 4 = none := by decide +kernel
  refine ⟨by constructor <;> decide +kernel, by decide +kernel, by decide +kernel, by decide +kernel, by decide +kernel,
    by decide +kernel, by decide +kernel, fun i hi => ⟨.inr ⟨none, (h i hi).1⟩, (h i hi).2⟩⟩

/-- A drain of two words of tile 2 from row 0 and column 1 on, in the raw form of the context's output. -/
theorem wit_mmdrain :
    let s := matrices 0x677 [matrixJob 0x677] none
    drainBad (s.cur.gpr 25).toNat = false ∧ (s.cur.gpr 25).extractLsb' 40 4 = 1 ∧ outBytes 1 = 4 ∧
    Passed s (s.cur.cap 1) 0 8 4 2 [1] false (ob 1) 0 ∧ TileQuiet s 2 ∧ s.cur.wait = none ∧
    (s.coreAt s.core).buffer.length = 0 ∧
    (∀ k, k < 2 → s.placeOf (s.ctxAt (s.ctxOf s.core)) (ob 1) (4 * k) (dieOf s.core) = .here (2 ^ 43 + 4 * k) none ∧
      addrExists (2 ^ 43 + 4 * k) = true ∧ s.badAt (2 ^ 43 + 4 * k) 4 = none) ∧
    (∀ p ∈ s.contexts, dieAddr 0 p.2.tableBase + 64 * p.2.tableLen ≤ 2 ^ 43) := by
  unfold TileQuiet
  refine ⟨by decide +kernel, by decide +kernel, rfl, by constructor <;> decide +kernel, ?_, ?_, ?_, ?_, ?_⟩ <;> decide +kernel

theorem wit_mmdrain_table (bs : List Byte) (h : bs.length = 4) :
    let s := matrices 0x677 [matrixJob 0x677] none
    s.tableCheck s.core s.frame (s.cur.cap 1) (2 ^ 43) bs = .ok () ∧ s.tableCheck s.core s.frame (s.cur.cap 1) (2 ^ 43 + 4) bs = .ok () := by
  match bs, h with
  | [_, _, _, _], _ => exact ⟨rfl, rfl⟩

/-- The core that had the engine last is 7, so job 5 of core 0 goes before the one of core 1. -/
theorem wit_engine_start :
    let s := matrices 0x677 [{ matrixJob 0x677 with core := 1, uid := 10 }, matrixJob 0x677] none
    let c := s.clusterAt 0
    c.running = none ∧ c.jobs = [{ matrixJob 0x677 with core := 1, uid := 10 }] ++ [matrixJob 0x677] ++ [] ∧
    (∀ i ∈ c.jobs, (0 % 8 + 8 - (c.lastCore + 1) % 8) % 8 ≤ (i.core % 8 + 8 - (c.lastCore + 1) % 8) % 8) := by decide +kernel

/-- Bytes of object 8 from its start up, with the engine of cluster 0 at work. -/
theorem engine_window (f : Word) (j : Job) (c : Cap) (n : Nat) (hn : n ≤ 2 ^ 35) (hc : c = full 8 4096) (hs : spanExists (padAddr 0 0) n = true)
    (hb : (matrices f [] (some j)).badAt (padAddr 0 0) n = none)
    (hd : (matrices f [] (some j)).liveAt ((matrices f [] (some j)).ctxAt 1) 8 = some (ob 8) ∧
      ∀ i, i < n → (matrices f [] (some j)).placeOf ((matrices f [] (some j)).ctxAt 1) (ob 8) i 0 = .here (padAddr 0 0 + i) none) :
    WindowAt (matrices f [] (some j)) 1 0 c n (padAddr 0 0) where
  live := by
    subst hc
    exact ⟨ob 8, hd.1, fun i hi => ⟨none, by
      have : (full 8 4096).base.toNat + i = i := by simp [full]
      rw [this]; exact hd.2 i hi⟩⟩
  spans := ⟨hn, hs⟩
  sound := hb
  keyed := keyed_above _ _ _ _ (by decide)

theorem wit_engine_end :
    (∀ f : Bool, ((matrices 0x677 [] (some { matrixJob 0x677 with failed := f })).clusterAt 0).running =
      some { matrixJob 0x677 with failed := f }) ∧
    (let s := matrices 0x677 [] (some (matrixJob 0x677))
     s.tileClaimed (matrixJob 0x677) = false ∧ (matrixJob 0x677).intake = Intake.empty ∧ (matrixJob 0x677).blocks = [] ∧
     ((matrixJob 0x677).reads 0).map (fun o => (o.part, o.cap, o.len)) = [(0, full 8 4096, 128), (1, full 8 4096, 192)] ∧
     memBytes s.mem (padAddr 0 0) 4 = [1, 2, 255, 0] ∧
     (s.frameAt 0 2).park = some (.job 6 5) ∧ (s.frameAt 0 2).saved = none ∧ (matrixJob 0x677).w.getLsbD 8 = true) := by
  decide +kernel

theorem wit_engine_windows :
    WindowAt (matrices 0x677 [] (some (matrixJob 0x677))) 1 0 (full 8 4096) 128 (padAddr 0 0) ∧
    WindowAt (matrices 0x677 [] (some (matrixJob 0x677))) 1 0 (full 8 4096) 192 (padAddr 0 0) := by
  constructor <;> exact engine_window _ _ _ _ (by decide) rfl (by decide +kernel) (by decide +kernel) (by decide +kernel)

/-- A job of scaled elements whose block scales lie where the elements do: the third of the first row is a NaN. -/
def scaledJob : Job := { matrixJob 0x133 with capAs := full 8 4096, capBs := full 8 4096 }

theorem wit_engine_scaled :
    let s := matrices 0x133 [] (some scaledJob)
    (s.clusterAt 0).running = some scaledJob ∧ s.tileClaimed scaledJob = false ∧ memGet s.mem (padAddr 0 0 + (1 * 2 + 0)) = 255 ∧
    (scaledJob.reads 0).map (fun o => (o.part, o.cap, o.len)) =
      [(0, full 8 4096, 128), (1, full 8 4096, 192), (2, full 8 4096, 4), (3, full 8 4096, 6)] := by decide +kernel

theorem wit_engine_scales :
    ∀ n ∈ [128, 192, 4, 6], WindowAt (matrices 0x133 [] (some scaledJob)) 1 0 (full 8 4096) n (padAddr 0 0) := by
  intro n h
  simp only [List.mem_cons, List.not_mem_nil, or_false] at h
  rcases h with rfl | rfl | rfl | rfl <;>
    exact engine_window _ _ _ _ (by decide) rfl (by decide +kernel) (by decide +kernel) (by decide +kernel)
/-! ### Claims -/

/-- Group 3 is the tenant's, with this device, 2 and 5 as members; 4 is the tenant's without a grant, 6 without this device, 7 stale; 5
is nobody's. Slot 0 holds a claim of the key 7 that is long open, 1 a resolved one whose slot is due, 2 one that is too late to object
to, 3 one that this device has objected to, 4 one that is due. Frame 1 waits for the claim of slot 4, frame 2 for the table of group 7.
-/
def claimOf (te : Nat) : Announcement := ⟨3, 7, 70, 5, 2, 150000, te, [0, 2, 5], []⟩

@[irreducible] def claiming (due : ClaimSlot) : State :=
  let s := world
  let group (ms : List Nat) (grant stale : Bool) : Group :=
    ⟨some 1, ms, grant, 8000, 0, stale, [(7, 70, 900), (9, 90, 800)]⟩
  let fr := ((s.cur.setGpr 20 (2 ^ 60)).setGpr 21 4096).setGpr 22 5000
  let fr := ((fr.setGpr 23 10000000).setGpr 24 (2 ^ 54)).setGpr 25 (2 * 4096 + 1)
  let fr := ((fr.setGpr 26 (2 + 4096)).setGpr 27 (3 + 4096)).setGpr 28 0xFF00
  let s := s.setFrame 0 0 fr
  let s := s.setFrame 0 1 { runner with state := .parked, park := some (.claim 5 4 1) }
  let s := s.setFrame 0 2 { runner with wait := some (.resync 7 5 2) }
  { s with
    ftime := 200000
    groups := [(3, group [0, 2, 5] true false), (4, group [0] false false), (6, group [2] true false), (7, group [0] true true)]
    claims := [(0, ⟨1, .announced, claimOf 202000, 0, [], [], false⟩), (1, ⟨2, .resolved, claimOf 100000, 2, [(2, 9)], [], false⟩),
      (2, ⟨1, .announced, claimOf 201999, 0, [], [], false⟩), (3, ⟨1, .announced, claimOf 300000, 0, [(0, 1)], [], false⟩), (4, due)] }

def dueSlot (objections : List (Nat × Nat)) (outranked : Bool) : ClaimSlot :=
  ⟨1, .announced, claimOf 200000, 0, objections, if outranked then [claimOf 1] else [], false⟩

theorem wit_claim_traps : TrapsFree 0 0 (claiming (dueSlot [] false)) := by constructor <;> decide +kernel

theorem wit_clprop :
    let s := claiming (dueSlot [] false)
    s.ownsGroup s.core 5 = false ∧ (∀ g ∈ [3, 4, 6, 7], s.ownsGroup s.core g = true) ∧
    ((s.groupAt 3).grant = true ∧ (s.groupAt 3).stale = false ∧ s.pos ∈ (s.groupAt 3).members) ∧
    ((s.groupAt 6).grant = true ∧ (s.groupAt 6).stale = false ∧ s.pos ∉ (s.groupAt 6).members) ∧
    (s.groupAt 4).grant = false ∧ ((s.groupAt 7).grant = true ∧ (s.groupAt 7).stale = true) ∧
    GoodKey (s.cur.gpr 7) (s.cur.gpr 8) ∧ ¬ GoodKey (s.cur.gpr 20) (s.cur.gpr 8) ∧ GoodKey 0x8000000000FFFFFF 255 ∧
    (s.claimAt 5).state = .free ∧ (∀ j, j < 5 → (s.claimAt j).state ≠ .free) := by
  unfold GoodKey
  decide +kernel

/-- A store whose 4096 slots are all taken. -/
def fullStore : List (Nat × ClaimSlot) := (List.range 4096).map (fun i => (i, dueSlot [] false))

theorem wit_store_full (i : Nat) (h : i < 4096) :
    ({ claiming (dueSlot [] false) with claims := fullStore }.claimAt i).state ≠ .free := by
  have look_map (l : List Nat) (q : ClaimSlot) (h : i ∈ l) : look (l.map (fun i => (i, q))) i = some q := by
    induction l with
    | nil => cases h
    | cons j l ih =>
      by_cases hj : j = i
      · simp [look, hj]
      · simp only [List.map_cons, look, if_neg hj]
        exact ih (by simpa [Ne.symm hj] using h)
  have : look fullStore i = some (dueSlot [] false) := look_map _ _ (List.mem_range.2 h)
  unfold State.claimAt
  simp [this, dueSlot]

theorem wit_clgrp :
    let s := claiming (dueSlot [] false)
    (s.cur.gpr 8).toNat < 5000 ∧ ((s.cur.gpr 22).toNat = 5000 ∧ (s.cur.gpr 23).toNat = 10000000) ∧
    (((s.cur.gpr 24).extractLsb' 42 22).toNat / 4096 ≠ s.pos) ∧
    (((s.cur.gpr 0).extractLsb' 42 22).toNat / 4096 = s.pos ∧ 0 ∈ (s.ctxAt (s.ctxOf s.core)).cores ∧
      (s.cur.gpr 0).extractLsb' 40 2 = 0) ∧
    { s with frame := 10 }.ownsGroup s.core 3 = true ∧ (s.groupAt 7).stale = true ∧ s.halyardLost = false ∧
    ({ s with halyardLost := true } : State).ownsGroup s.core 7 = true := by decide +kernel

/-- Group 8 is stale and has the members 0, this device, and 2; member 2 answers for the table where the free value has it so. -/
theorem wit_resync :
    let s := { claiming (dueSlot [] false) with frame := 10, groups := [(8, ⟨some 1, [0, 2], true, 8000, 0, true, []⟩)] }
    s.ownsGroup s.core 8 = true ∧ (s.groupAt 8).stale = true ∧ (s.groupAt 8).members = [0] ++ 2 :: [] ∧ ¬ MayAnswer s 0 ∧
    (Config.peerStale s.steps 2 = false → MayAnswer s 2) ∧ (Config.peerStale s.steps 2 = true → ¬ MayAnswer s 2) := by
  refine ⟨by decide +kernel, by decide +kernel, by decide +kernel, fun h => h.1 (by decide +kernel),
    fun h => ⟨by decide +kernel, by decide +kernel, h⟩, fun h k => ?_⟩
  have := k.2.2
  rw [h] at this
  exact Bool.noConfusion this

theorem wit_clread :
    let s := claiming (dueSlot [] false)
    (s.groupAt 3).values = [] ++ (s.cur.gpr 7, 70, 900) :: [(9, 90, 800)] ∧
    (s.groupAt 3).values = [(7, 70, 900)] ++ (s.cur.gpr 9, 90, 800) :: [] ∧
    (∀ e ∈ (s.groupAt 3).values, e.1 ≠ s.cur.gpr 8) := by decide +kernel

theorem wit_handles :
    let s := claiming (dueSlot [] false)
    Current s s.core (s.cur.gpr 21) 0 ∧ Current s s.core (s.cur.gpr 25) 1 ∧ Current s s.core (s.cur.gpr 26) 2 ∧
    Current s s.core (s.cur.gpr 27) 3 ∧ (∀ i, ¬ Current s s.core (s.cur.gpr 7) i) ∧
    (s.claimAt 0).state = .announced ∧ (s.claimAt 1).state = .resolved ∧
    (∀ g ∈ [21, 26, 27], (s.claimAt (s.cur.gpr g % 4096).toNat).ann.group = 3) ∧
    s.ftime + 2000 ≤ (s.claimAt 0).ann.te ∧ (∀ x ∈ (s.claimAt 0).objections, x.1 ≠ s.pos) ∧
    (s.claimAt 2).ann.te < s.ftime + 2000 ∧ (∃ x ∈ (s.claimAt 3).objections, x.1 = s.pos) ∧
    (s.cur.gpr 7).toNat < 0xFF00 ∧ 0xFF00 ≤ (s.cur.gpr 28).toNat ∧ s.heavePending s.core = false := by
  unfold Current
  refine ⟨by decide +kernel, by decide +kernel, by decide +kernel, by decide +kernel, ?_, ?_⟩
  · rintro i ⟨-, rfl, h, -⟩
    exact absurd h (by decide +kernel)
  · decide +kernel

theorem wit_receive :
    let s := claiming (dueSlot [] false)
    (∀ g ∈ [3, 7], s.isMember { claimOf 1 with group := g } = true ∧ s.knowsClaim { claimOf 1 with group := g } = false) ∧
    (s.groupAt 7).stale = true ∧ s.isMember { claimOf 1 with group := 5 } = false ∧ s.knowsClaim (claimOf 202000) = true ∧
    ({ s with claims := fullStore }.groupAt 3).stale = false ∧
    s.knowsObjection ⟨3, 7, 2, 150000, 44, 2⟩ = false ∧ sameClaim (s.claimAt 0).ann ⟨3, 7, 2, 150000, 44, 2⟩ = true := by
  decide +kernel

theorem wit_store_full_unknown : { claiming (dueSlot [] false) with claims := fullStore }.isMember (claimOf 1) = true := by
  decide +kernel

/-- The four outcomes at the effect time. -/
theorem wit_decided :
    ∀ q ∈ [(dueSlot [] false, 1), (dueSlot [(2, 9)] false, 2), (dueSlot [(2, 0xFF02)] true, 3), (dueSlot [(5, 9), (2, 0xFF02)] false, 4)],
      (claiming q.1).claimAt 4 = q.1 ∧ q.1.state = .announced ∧ q.1.ann.te ≤ (claiming q.1).ftime ∧ Decided q.1 q.2 ∧
      (0, 1) ∈ (claiming q.1).allFrames ∧ (claiming q.1).keeper 0 = none ∧ ((claiming q.1).frameAt 0 1).park = some (.claim 5 4 q.1.gen) ∧
      ((claiming q.1).frameAt 0 1).saved = none ∧ q.1.ann.key.extractLsb' 60 4 ≠ 8 := by
  unfold Decided
  decide +kernel

theorem wit_slots :
    let s := claiming (dueSlot [] false)
    ((s.claimAt 1).state = .resolved ∧ (s.claimAt 1).ann.te + 100000 ≤ s.ftime) ∧ (s.claimAt 2).state ≠ .resolved ∧
    ((s.claimAt 0).state = .announced ∧ s.ftime < (s.claimAt 0).ann.te) ∧
    ((s.groupAt 7).stale = true ∧ (0, 2) ∈ s.allFrames ∧ (s.cores.map (·.1)).Nodup ∧ s.halyardLost = false ∧
      (s.frameAt 0 2).wait = some (.resync 7 5 2)) := by decide +kernel

/-! ### Collectives -/

/-- Groups 3 and 4 are assigned, 3 is set. Collective 12, of frame 1, is an s32 sum of two elements, whose absence record would lie in
object 1; MEMBERS at the start of object 1 is bits. c13 is a window of 64 bytes of object 8. -/
def collOf (op : Nat) (got : List (Nat × List Byte)) (absent : List Nat) : Coll :=
  ⟨0, 1, 1, op, 3, 5, full 8 4096, full 8 8, 3, [0, 2, 5], full 1 4096, 990, absent, got, none⟩

@[irreducible] def collecting (bits : List Byte) (c : Coll) : State :=
  let s := { world with mem := memPut world.mem (2 ^ 43) bits }
  let fr := (s.cur.setCap 13 ⟨true, 0x0F, 1, 8, 1024, 64⟩).setCap 14 ⟨true, 0x0F, 1, 8, 1024, 0⟩
  let s := s.setFrame 0 0 fr
  let s := s.setFrame 0 1 { runner with state := .parked, park := some (.coll 12) }
  let s := s.setCtx 1 { s.ctxAt 1 with policy := { (s.ctxAt 1).policy with agmask := 0x18, peers := [2, 5, 9] } }
  { s with agroups := [(3, ⟨[0, 2, 5], full 1 4096, 1⟩)], colls := [(12, c)], nextId := 30 }

theorem wit_coll_traps : TrapsFree 0 0 (collecting [1, 2] (collOf 0 [] [])) := by constructor <;> decide +kernel

theorem wit_agset (bits : List Byte) (h : bits ∈ [[], [1, 2], [2, 2]]) :
    let s := collecting bits (collOf 0 [] [])
    s.assigned s.core 4 = true ∧ s.assigned s.core 5 = false ∧ s.groupBusy 4 = false ∧ s.cur.park = none ∧
    Passed s (s.cur.cap 1) 0 272 8 3 [1] false (ob 1) 0 ∧ s.stalled s.core (ob 1).oid 0 128 = false := by
  fin_cases h <;>
    refine ⟨by decide +kernel, by decide +kernel, by decide +kernel, by decide +kernel, ?_, by decide +kernel⟩ <;>
    constructor <;> decide +kernel

/-- MEMBERS names nobody, 0 and 9, or 1 and 9; 1 is no peer. -/
theorem wit_members :
    (∀ b ∈ [([], []), ([1, 2], [0, 9]), ([2, 2], [1, 9])], let s := collecting b.1 (collOf 0 [] [])
      (∀ i, i < 16 → s.placeOf (s.ctxAt (s.ctxOf s.core)) (ob 1) (8 * i) (dieOf s.core) = .here (2 ^ 43 + 8 * i) none ∧
        addrExists (2 ^ 43 + 8 * i) = true ∧ s.badAt (2 ^ 43 + 8 * i) 8 = none) ∧
      (List.range 16).filter (fun p => (BitVec.ofNat 64 (leNat (s.readOwn s.core s.frame (2 ^ 43 + 8 * (p / 64)) 8))).getLsbD (p % 64))
        = b.2) ∧
    (∀ p ∈ [0, 9], p ≠ 0 → p ∈ ((collecting [1, 2] (collOf 0 [] [])).ctxAt 1).policy.peers) ∧
    1 ∉ ((collecting [1, 2] (collOf 0 [] [])).ctxAt 1).policy.peers := by decide +kernel

theorem wit_collective :
    let s := collecting [1, 2] (collOf 0 [] [])
    GroupOf s 3 ⟨[0, 2, 5], full 1 4096, 1⟩ ∧ (s.assigned s.core 4 = true ∧ look s.agroups 4 = none) ∧
    (∀ q ∈ [(4, 4), (2, 4), (2, 2)], Issuable s (s.cur.cap 13) (s.cur.cap 8) 64 (64 / q.1 * q.2) q.1 q.2 (ob 8) (ob 8) 1024 0
        ⟨[0, 2, 5], full 1 4096, 1⟩ ∧ s.pagesReady s.core (ob 8) 0 (64 / q.1 * q.2) .store true = .ok ()) ∧
    (s.cur.cap 14).len = 0 ∧ 65536 < (full 1 65537).len.toNat ∧
    s.pagesReady s.core (ob 8) 1024 64 .load false = .ok () := by
  refine ⟨?_, by decide +kernel, fun q hq => ⟨?_, ?_⟩, by decide +kernel⟩
  · unfold GroupOf; decide +kernel
  · fin_cases hq <;> constructor <;> first | decide +kernel | exact .inr (by decide +kernel)
  · fin_cases hq <;> decide +kernel

theorem wit_mcst_data :
    let s := collecting [1, 2] (collOf 0 [] [])
    (match s.readImage s.core s.frame (ob 8) 1024 64 with
      | .ok (none, _) => false
      | .ok (some _, s2) => decide ({ s2 with dies := s.dies, fresh := s.fresh } = s)
      | .error _ => false) = true := by decide +kernel

theorem wit_member :
    let s := collecting [1, 2] (collOf 0 [] [])
    s.liveAt (s.ctxAt 1) 99 = none ∧ s.liveAt (s.ctxAt 1) 8 = some (ob 8) ∧ s.far (ob 8) = false ∧ s.exterior (ob 8) = false ∧
    (s.ctxAt 1).struck = false ∧ ((s.setCtx 1 { tenant with struck := true }).ctxAt 1).struck = true ∧ (ob 8).pw = false ∧
    64 + 100 ≤ (ob 8).size ∧
    (∀ w : Bool, s.homePieces (s.ctxAt 1) (ob 8) 64 100 w = .ok [⟨64, 100, .here (padAddr 0 64) none⟩]) ∧
    memWf s.mem = true ∧ s.ftime ≤ 990 + 5000 := by decide +kernel

theorem wit_member_keyed (s : State) : Keyed s 1 (padAddr 0 64) 100 := keyed_above _ _ _ _ (by decide)

theorem wit_member_tables :
    ∀ p ∈ (collecting [1, 2] (collOf 0 [] [])).contexts, dieAddr 0 p.2.tableBase + 64 * p.2.tableLen ≤ padAddr 0 64 ∧
      (collecting [1, 2] (collOf 0 [] [])).mapEntries p.2 (padAddr 0 64) 100 = [] := by decide +kernel

/-- The collective waits for member 5; with it absent it is complete, as it is with its values. -/
theorem wit_collective_end :
    (let s := collecting [1, 2] (collOf 0 [(0, [1, 0, 0, 0, 5, 0, 0, 0]), (2, [255, 255, 255, 255, 1, 0, 0, 0])] [])
     look s.colls 12 = some (collOf 0 [(0, [1, 0, 0, 0, 5, 0, 0, 0]), (2, [255, 255, 255, 255, 1, 0, 0, 0])] []) ∧
     s.ftime < 990 + 5000 ∧ { s with ftime := 5990 }.ftime = 990 + 5000 ∧ (s.frameAt 0 1).park = some (.coll 12) ∧
     (s.frameAt 0 1).saved = none ∧ (s.coreAt 0).buffer = [] ∧ s.ctxOf 0 = 1) ∧
    (let s := collecting [1, 2] (collOf 0 [(0, []), (2, []), (5, [])] [])
     s.liveAt (s.ctxAt 1) 8 = some (ob 8) ∧
     (∀ e, e < 2 → s.placeOf (s.ctxAt 1) (ob 8) (0 + e * 4) (dieOf 0) = .here (padAddr 0 (4 * e)) none ∧
       addrExists (padAddr 0 (4 * e)) = true ∧ s.badAt (padAddr 0 (4 * e)) 4 = none) ∧
     (∀ i, i < 18 → s.placeOf (s.ctxAt 1) (ob 1) (0 + 128 + 8 * i) (dieOf 0) = .here (2 ^ 43 + 128 + 8 * i) none ∧
       addrExists (2 ^ 43 + 128 + 8 * i) = true ∧ s.badAt (2 ^ 43 + 128 + 8 * i) 8 = none)) := by decide +kernel

/-! ### Faults, hotness, the fabric, datagrams -/

def faultRec (index state : Nat) (held : Held) : FRec :=
  ⟨index, 4, 1, 8, 1, 1, state, 8, 0, 8, true, 1, 0, held⟩

/-- Records 3 and 5 of die 0 replay, 2 waits; record 3 holds a load of core 0. A translation of page 4 under PASID 5 has been asked
for; one of page 6 is in the cache. Two page requests are outstanding. -/
@[irreducible] def faulting (records : Bool) : State :=
  let s := world
  let q : Request := { ask (.load 8) 8 0 with core := 0 }
  let s := s.setDie 0 { s.dieAt 0 with
    faultq := if records then [faultRec 2 1 .nothing, faultRec 3 2 (.request q), faultRec 5 2 .nothing] else []
    asked := [(5, 4, false), (5, 7, true)]
    ats := [⟨5, 6, 1, true, true, true⟩] }
  { s with pageReqs := [⟨1, 0, 1, 5, 4, false, 3⟩, ⟨1, 8, 1, 5, 7, true, 3⟩] }

theorem wit_replay :
    let s := faulting true
    let q : Request := { ask (.load 8) 8 0 with core := 0 }
    (s.dieAt 0).faultq.find? (fun x => decide (x.index = 3 ∧ x.state = 2)) = some (faultRec 3 2 (.request q)) ∧
    (∀ x ∈ (s.dieAt 0).faultq, x.state = 2 → 3 ≤ x.index) ∧ s.liveAt (s.ctxAt q.ctx) q.oid = some (ob 8) ∧
    s.farLayout (s.ctxAt q.ctx) q (ob 8) = none ∧
    s.placeOf (s.ctxAt q.ctx) (ob 8) q.off (dieOf (q.home % 4096)) = .here (padAddr 0 8) none ∧ spanExists (padAddr 0 8) 8 = true ∧
    s.badAt (padAddr 0 8) 8 = none ∧ q.core / 4096 = s.pos ∧ (faultRec 3 2 (.request q)).kind = 1 ∧
    (s.dieAt 0).faultq.find? (fun x => decide (x.index = 2 ∧ x.state = 2)) = none ∧
    (∃ x ∈ (s.dieAt 0).faultq, x.state = 2 ∧ x.index < 5) := by decide +kernel

/-- A page request of page 4 of object 3, and one record that waits for that host page, of a request that returns a value. -/
@[irreducible] def hostFaulting : State :=
  let q : Request := { ask (.load 8) 3 0 with core := 0, returns := true }
  let r : FRec := { faultRec 1 1 (.request q) with oid := 3, kind := 2, page := 4 }
  { world with
    dies := [(0, { world.dieAt 0 with faultq := [r] })]
    pageReqs := [⟨1, 0, 1, (ob 3).pasid, 4, false, 3⟩] }

theorem wit_page_answered :
    let s := hostFaulting
    let q : Request := { ask (.load 8) 3 0 with core := 0, returns := true }
    let r : FRec := { faultRec 1 1 (.request q) with oid := 3, kind := 2, page := 4 }
    s.pageReqs[0]? = some ⟨1, 0, 1, (ob 3).pasid, 4, false, 3⟩ ∧ r ∈ (s.dieAt 0).faultq ∧ r.kind = 2 ∧ r.state ≠ 3 ∧ r.page = 4 ∧
    s.pasidOf r = some (ob 3).pasid ∧ s.dies = [(0, s.dieAt 0)] ∧ (s.dieAt 0).faultq = [r] ∧ r.held = .request q ∧ q.returns = true ∧
    q.core / 4096 = s.pos := by decide +kernel

theorem wit_page_requests :
    let s := faulting false
    s.liveAt (s.ctxAt (s.ctxOf 0)) 3 = some (ob 3) ∧ (ob 3).hb = true ∧ s.liveAt (s.ctxAt (s.ctxOf 0)) 1 = some (ob 1) ∧
    (ob 1).hb = false ∧ s.pageReqs[1]? = some ⟨1, 8, 1, 5, 7, true, 3⟩ ∧ (∀ p ∈ s.dies, p.2.faultq = []) ∧
    (∃ q ∈ (s.dieAt 0).asked, q.1 = 5 ∧ 7 ≤ q.2.1 ∧ q.2.1 < 7 + 1) ∧ (s.dieAt 0).ats.length < 4096 ∧
    (∀ e ∈ (s.dieAt 0).ats, e.pasid ≠ 5 ∨ e.page + e.count ≤ 7 ∨ 7 + 1 ≤ e.page) := by decide +kernel

/-- The record object of tenant 1 is object 8, controller 1's interval began at since. -/
@[irreducible] def warm (since : Nat) : State :=
  let s := { world with ftime := 200000000, scrubAt := 50 }
  s.setDie 0 { s.dieAt 0 with hotrec := [(1, 8)], slotsOf := [(1, 0)], sketches := [(1, ⟨[], [(0, [8 * 2 ^ 20])], [(0, 77)], since⟩)] }

theorem wit_hotness :
    (∀ t ∈ [100000000, 199900001], (warm t).hotObject 0 1 = some (ob 8) ∧ ((warm t).dieAt 0).hotrec = [(1, (ob 8).oid)] ∧
      (look ((warm t).dieAt 0).sketches 1) = some ⟨[], [(0, [8 * 2 ^ 20])], [(0, 77)], t⟩ ∧ memWf (warm t).mem = true ∧
      (warm t).scrubAt = 50 ∧ look ((warm t).dieAt 0).slotsOf 1 = some 0 ∧
      (∀ sl, sl ∈ [0, 1] → ((look [(0, [8 * 2 ^ 20])] sl).getD []).length ≤ 64)) ∧ 2 ^ 42 ≤ padAddr 0 0 ∧ (memoryAt (padAddr 0 0)).isSome ∧
    100000000 + 100000000 ≤ (warm 100000000).ftime ∧ (warm 199900001).ftime < 199900001 + 100000 := by decide +kernel

theorem wit_hot_pieces (off n : Nat) (w : Bool) (h : off + n ≤ 3264) (h0 : 0 < n) :
    (warm 100000000).enginePieces ((warm 100000000).ctxAt 1) (ob 8) off n 0 w = .ok [⟨off, n, .here (padAddr 0 0 + off) none⟩] := by
  have hb : (warm 100000000).bad = [] := by decide +kernel
  have hp : (warm 100000000).placeOf ((warm 100000000).ctxAt 1) (ob 8) off 0 = .here (padAddr 0 0 + off) none := by
    have hh : (warm 100000000).homeOf ((warm 100000000).ctxAt 1) (ob 8) 0 = 0 := by decide +kernel
    have hm : (ob 8).hmode = 0 := by decide +kernel
    have hs : (ob 8).stripe off = 0 := by simp [Desc.stripe, hm]
    have hf : (warm 100000000).far (ob 8) = false := by decide +kernel
    have h1 : (ob 8).pageReg = false ∧ (ob 8).whole = none ∧ (ob 8).pw = false ∧ (ob 8).hb = false ∧ (ob 8).tier = 1 ∧ (ob 8).pmap = 0 := by
      decide +kernel
    unfold State.placeOf
    simp [h1, hs, hh, hf, dieOf, clusterOf, padAddr]
    omega
  have hpc : pieces off n = [(off, n)] := by
    have h1 : (off + n - 1) / 4096 = 0 := by omega
    have h2 : off / 4096 = 0 := by omega
    have h3 : min (off + n) 4096 - off = n := by omega
    simp [pieces, h1, h2, h3, Nat.ne_of_gt h0]
  have hz : padAddr 0 0 = 2 ^ 44 := by decide
  have he : ∀ x, x < 2 ^ 21 → addrExists (2 ^ 44 + x) = true := by
    intro x hx
    unfold addrExists
    rw [if_neg (by omega), if_neg (by omega), if_neg (by omega), if_pos (by omega), Nat.add_sub_cancel_left]
    exact decide_eq_true ⟨by omega, by omega⟩
  have hsp : spanExists (padAddr 0 0 + off) n = true := by
    have e : 2 ^ 44 + off + n - 1 = 2 ^ 44 + (off + n - 1) := by omega
    rw [hz]
    simp only [spanExists, e, he off (by omega), he (off + n - 1) (by omega), Bool.true_and]
    rw [if_neg (by omega), if_neg (by omega), if_pos (by omega)]
    simp
    omega
  unfold State.enginePieces
  rw [hpc]
  simp [hp, State.pieceAt, hsp, State.badAt, hb]

def flitOf (last : Bool) : Flit := sealFlit ⟨2, false, last, 1, 0, 8192, 3, [1, 2], 0, [], 1, 2, 64⟩

/-- Four flits of messages, and a fifth that carries a tag. -/
def flits : List Flit := [flitOf false, flitOf true, idleFlit, flitOf false]

def fifth (tag : List Byte) : Flit := { flitOf true with tag := tag }

theorem flitSound_tag (f : Flit) (tag : List Byte) : flitSound { f with tag := tag } = flitSound f := rfl

/-- The tag of a group does not depend on the tag its fifth flit carries. -/
theorem groupTag_tag (pos port derived epoch counter : Nat) (out : Bool) (l : List Flit) (f : Flit) (tag : List Byte) :
    groupTag pos port derived epoch out counter (l ++ [{ f with tag := tag }]) =
      groupTag pos port derived epoch out counter (l ++ [f]) := by
  simp only [groupTag, List.flatMap_append, List.flatMap_cons, List.flatMap_nil]
  rfl

theorem wit_flits_sound : ∀ f ∈ flits ++ [flitOf true], flitSound f = true := by decide +kernel

/-- Every flit is sound, whatever tag the fifth carries. -/
theorem wit_flits (tag : List Byte) : flits.length = 4 ∧ (∀ f ∈ flits ++ [fifth tag], flitSound f = true) := by
  refine ⟨rfl, fun f hf => ?_⟩
  rcases List.mem_append.1 hf with hf | hf
  · exact wit_flits_sound f (List.mem_append.2 (.inl hf))
  · rw [List.mem_singleton] at hf
    subst hf
    exact (flitSound_tag _ _).trans (wit_flits_sound (flitOf true) (List.mem_append.2 (.inr (List.mem_singleton.2 rfl))))

theorem wit_unsound_flit : flitSound { flitOf true with hops := 2 } = false := by decide +kernel

/-- There is a group whose tag checks, and one whose tag fails. -/
theorem wit_tags (pos port derived epoch counter : Nat) :
    let tag (t : List Byte) := groupTag pos port derived epoch false counter (flits ++ [fifth t])
    let good := groupTag pos port derived epoch false counter (flits ++ [flitOf true])
    (fifth good).tag = tag good ∧ (fifth (0 :: good)).tag ≠ tag (0 :: good) := by
  intro tag good
  have h : ∀ t, tag t = good := fun t => groupTag_tag pos port derived epoch counter false flits (flitOf true) t
  rw [h, h]
  refine ⟨rfl, fun e => ?_⟩
  have := congrArg List.length (show (0 : Byte) :: good = good from e)
  simp at this

/-- Ports 2 (up, two flits of a group), 3 (fenced), 4 (down), 5 (a rollover due). The peers of ports 6 and 8 are declared unreachable.
Core 3 has a full poison list. Whether the policy of every tenant selects skid mode is what the argument says. -/
@[irreducible] def linked (skid : Bool) : State :=
  let s := claiming (dueSlot [] false)
  let s := s.setCtx 1 { s.ctxAt 1 with policy := { (s.ctxAt 1).policy with flags := if skid then 4 else 0 } }
  let s := s.setCore 3 { s.coreAt 3 with poison := List.replicate 64 ⟨1, 2, 0, 2, 9, false, 1, 2, 3⟩ }
  { s with
    links := [(2, ⟨0, .up, 4, 7, 1, 0, 0, [idleFlit, idleFlit], [], none, [], [], 0⟩), (3, ⟨1, .fenced, 4, 7, 1, 0, 0, [], [], none, [], [], 0⟩),
      (4, ⟨2, .down, 4, 7, 1, 0, 0, [], [], none, [], [], 0⟩), (5, ⟨0, .up, 2 ^ 40, 7, 0, 0, 0, [], [], none, [], [], 0⟩)]
    declared := [(7, 150000), (9, 199999)]
    colls := [(12, collOf 0 [(0, [])] [])] }

theorem wit_links :
    let s := linked false
    (s.linkAt 2).lanesLost = 0 ∧ 1 ≤ (s.linkAt 3).lanesLost ∧ (s.linkAt 3).state ≠ .up ∧ (s.linkAt 3).lanesLost < 2 ∧
    2 ≤ (s.linkAt 4).lanesLost ∧ (s.linkAt 2).state = .up ∧ (s.linkAt 2).partialGroup.length = 2 ∧ s.skid 2 = false ∧
    (s.linkAt 5).epoch < (s.linkAt 5).counter / 2 ^ 40 ∧ (s.linkAt 0).state = .up ∧ (1 : Nat) ≠ s.pos ∧ s.routeTo 3 = 2 ∧
    s.moves = [] ∧ (s.linkAt 2).owes 3 = false ∧
    ({ s.linkAt 2 with partialGroup := [flitOf true] }.owes ((flitOf true).dst / 4096) = decide ((flitOf true).cls % 2 = 0)) ∧
    s.ctxAt 1 ≠ Context.empty ∧ ((linked true).linkAt 2).state = .up := by decide +kernel

/-- Whether the other device's tenants select skid mode is not of this device (Config.peerSkid). -/
theorem wit_skid (h : Config.peerSkid 2 = true) : (linked true).skid 2 = true := by
  have : ((linked true).contexts.filter (fun p => decide (p.2.state = .bound ∨ p.2.state = .running ∨ p.2.state = .paused))).all
      (fun p => p.2.policy.flags.getLsbD 2) = true ∧
      ((linked true).contexts.filter (fun p => decide (p.2.state = .bound ∨ p.2.state = .running ∨ p.2.state = .paused))).isEmpty = false := by
    decide +kernel
  unfold State.skid
  simp only [this, h]
  rfl

theorem wit_skid_flit : flitOf true ∈ flits ++ [fifth []] ∧ (flitOf true).last = true ∧ (flitOf true).cls ≠ 0 ∧ (flitOf true).dst / 4096 = (linked true).pos := by
  decide +kernel

theorem wit_poison :
    let s := linked false
    (s.coreAt 1).poison.length < 64 ∧ (s.coreAt 1).handling = false ∧ (s.coreAt 1).pendingTrap = none ∧ (s.coreAt 1).events = [] ∧
    (s.coreAt 3).poison.length = 64 := by decide +kernel

theorem wit_unreachable :
    let s := linked false
    5 ≠ s.pos ∧ look s.declared 5 = none ∧
    ((s.claimAt 0).state = .announced ∧ 5 ∈ (s.claimAt 0).ann.members ∧ s.ftime + 2000 ≤ (s.claimAt 0).ann.te) ∧
    (s.claimAt 2).ann.te < s.ftime + 2000 ∧
    (look s.colls 12 = some (collOf 0 [(0, [])] []) ∧ 5 ∈ (collOf 0 [(0, [])] []).members) ∧
    (look s.declared 7 = some 150000 ∧ 150000 + 50000 ≤ s.ftime ∧ 7 ∉ s.unreachable) ∧
    (look s.declared 9 = some 199999 ∧ s.ftime < 199999 + 50000) ∧ s.halyardLost = false ∧
    { s with halyardLost := true }.halyardLost = true := by decide +kernel

/-- Two messages wait for device 6 of pod 2 and one for device 7; to 8 of pod 2 a datagram is not acknowledged. -/
def datagram (seq : Nat) (urgent : Bool) : Datagram := ⟨2, 0, 6, 0, seq, 0, [⟨8, 5, none, letter false urgent, none⟩]⟩

@[irreducible] def podded (full' : Bool) : State :=
  let s := { world with ftime := 30000 }
  let e (n : Nat) : PodEntry := ⟨n, 5, none, letter false false, none⟩
  let s := if full' then s.setCore 8 { s.coreAt 8 with
    urgentQ := (List.range 32).map (fun i => ⟨letter false true, 900, i, .here, false⟩), serial := 32 } else s
  { s with
    txbuf := [(2, 6, e 1), (2, 7, e 2), (2, 6, e 3)]
    peers := [(2 * 1024 + 6, ⟨3, 4, [], []⟩), (2 * 1024 + 8, ⟨1, 4, [], [(datagram 1 false, 10000)]⟩),
      (2 * 1024 + 9, ⟨1, 4, [], [(datagram 1 false, 10001)]⟩)] }

theorem wit_datagrams :
    let s := podded false
    (∃ e ∈ s.txbuf, e.1 = 2 ∧ e.2.1 = 6) ∧ (s.peerAt 2 8).unacked = [(datagram 1 false, 10000)] ∧ 10000 + 20000 ≤ s.ftime ∧
    (s.peerAt 2 9).unacked = [(datagram 1 false, 10001)] ∧ s.ftime < 10001 + 20000 ∧
    (datagram 5 false).dpod = s.pod ∧ (datagram 5 false).dpos = s.pos ∧ (s.peerAt 2 6).unacked = [] ∧
    (datagram 4 false).seq ≤ (s.peerAt 2 6).seen ∧ (datagram 5 false).seq = (s.peerAt 2 6).seen + 1 ∧
    (s.peerAt 2 6).beyond = [] ∧ s.evictedCluster (clusterOf 8) = false ∧ s.takesMessages 8 = true ∧ 0 < s.roomAt 8 false ∧
    (∀ x ∈ (s.coreAt 8).queue false, x.serial < (s.coreAt 8).serial) ∧ (podded true).roomAt 8 true = 0 ∧
    (podded true).takesMessages 8 = true := by decide +kernel

/-- The bytes of a datagram are authentic, longer ones are not. -/
theorem wit_authentic (seq : Nat) : authentic (datagramWire (datagram seq false)) (datagram seq false) = true ∧
    authentic (0 :: datagramWire (datagram seq false)) (datagram seq false) = false := by
  refine ⟨by simp [authentic, datagram], ?_⟩
  have h : (0 : Byte) :: datagramWire (datagram seq false) ≠ datagramWire (datagram seq false) := fun e => by
    simpa using congrArg List.length e
  simp [authentic]

/-! ### The ladder and the rings -/

/-- The tenant with a ladder: frame 0 of core 0 runs, frame 1 is parked on a fault, and frames 2 to 4 are stopped; T1 is 50, T2 30 and
T3 100. -/
@[irreducible] def laddering (ladder : Option Ladder) (state : CtxState) (stopped : Bool) (works : Bool) : State :=
  let s := world
  let s := s.setCtx 1 { s.ctxAt 1 with ladder := ladder, state := state, stopped := stopped, slice := 100, sliceAt := 900, pausedAt := 900,
                                       policy := { (s.ctxAt 1).policy with pauseMax := 100 } }
  let old (p : Option Park) (v : Saved) : Frame := { runner with state := .stopped, park := p, saved := some v }
  let s := s.setFrame 0 2 (old (some .fault) ⟨.parked, false⟩)
  let s := s.setFrame 0 3 (old (some .fault) ⟨.parked, true⟩)
  let s := s.setFrame 0 4 (old none ⟨.ready, false⟩)
  let s := if works then s.setFrame 0 1 { runner with state := .parked, park := some .fault }
    else (s.setFrame 0 0 (old none ⟨.ready, false⟩)).setFrame 8 0 (old none ⟨.ready, false⟩)
  s.setCore 0 { s.coreAt 0 with t1 := 50, t2 := 30, t3 := 100, normalQ := [queued false false] }

def stageOf (g : Stage) (start : Nat) : Ladder := ⟨g, start, .slice, [], 50, 30, 100⟩

theorem wit_reef :
    let s := laddering none .running false true
    (s.ctxAt 1).state = .running ∧ (s.ctxAt 1).ladder = none ∧ (s.ctxAt 1).slice ≠ 0 ∧
    (s.ctxAt 1).sliceAt + (s.ctxAt 1).slice ≤ s.ftime ∧
    { s with ftime := 999 }.ftime < (s.ctxAt 1).sliceAt + (s.ctxAt 1).slice := by decide +kernel

theorem wit_heave :
    let s := laddering (some (stageOf .reef 950)) .running false true
    (s.ctxAt 1).ladder = some (stageOf .reef 950) ∧ 950 + (stageOf .reef 950).t1 ≤ s.ftime ∧
    WorkFrame s 1 0 0 ∧ (s.frameAt 0 0).state = .running ∧ (s.frameAt 0 0).wait = none ∧
    WorkFrame s 1 0 1 ∧ (s.frameAt 0 1).state = .parked ∧ (s.frameAt 0 1).park = some .fault := by
  unfold WorkFrame
  decide +kernel

theorem wit_ladder_halt :
    let s := laddering (some (stageOf .heaveTo 920)) .running false true
    (s.ctxAt 1).ladder = some (stageOf .heaveTo 920) ∧ 920 + (stageOf .heaveTo 920).t1 + (stageOf .heaveTo 920).t2 ≤ s.ftime ∧
    WorkFrame s 1 0 0 ∧ (s.frameAt 0 0).state = .running ∧ (s.frameAt 0 0).wait = none ∧
    (∃ n f, WorkFrame s 1 n f ∧ (s.frameAt n f).state ≠ .free ∧ (s.frameAt n f).state ≠ .stopped) := by
  unfold WorkFrame
  exact ⟨by decide +kernel, by decide +kernel, by decide +kernel, by decide +kernel, by decide +kernel, 0, 0, by decide +kernel⟩

theorem wit_stopped (why : Why) (h : why ∈ [Why.slice, Why.pause]) :
    let s := laddering (some ⟨.halt, 920, why, [], 50, 30, 100⟩) .running false false
    (s.ctxAt 1).ladder = some ⟨.halt, 920, why, [], 50, 30, 100⟩ ∧ s.enginesIdle 1 = true ∧
    (∀ n f, WorkFrame s 1 n f → (s.frameAt n f).state = .free ∨ (s.frameAt n f).state = .stopped) := by
  have all : ∀ w ∈ [Why.slice, Why.pause],
      (laddering (some ⟨.halt, 920, w, [], 50, 30, 100⟩) .running false false).enginesIdle 1 = true ∧
      ((laddering (some ⟨.halt, 920, w, [], 50, 30, 100⟩) .running false false).ctxAt 1).ladder = some ⟨.halt, 920, w, [], 50, 30, 100⟩ ∧
      ∀ p ∈ (laddering (some ⟨.halt, 920, w, [], 50, 30, 100⟩) .running false false).framesOf 1, p.2 < 10 →
        ((laddering (some ⟨.halt, 920, w, [], 50, 30, 100⟩) .running false false).frameAt p.1 p.2).state = .free ∨
        ((laddering (some ⟨.halt, 920, w, [], 50, 30, 100⟩) .running false false).frameAt p.1 p.2).state = .stopped := by decide +kernel
  exact ⟨(all why h).2.1, (all why h).1, fun n f hw => (all why h).2.2 (n, f) hw.1 hw.2⟩

theorem wit_strike :
    let s := laddering (some (stageOf .halt 900)) .running false true
    (s.ctxAt 1).ladder = some (stageOf .halt 900) ∧ 900 + (stageOf .halt 900).t3 ≤ s.ftime ∧ s.stopComplete 1 = false ∧
    s.mayStrike 1 = true ∧ 0 ∈ (s.ctxAt 1).cores ∧ (s.coreAt 0).normalQ ≠ [] ∧ ¬ (901 + (stageOf .halt 901).t3 ≤ s.ftime) := by decide +kernel

theorem wit_restore :
    let s := laddering none .running true true
    (s.ctxAt 1).state = .running ∧ (s.ctxAt 1).stopped = true ∧ (s.ctxAt 1).cores.Nodup ∧ 0 ∈ (s.ctxAt 1).cores ∧
    (∀ q ∈ [(2, FState.parked, false), (3, .parked, true), (4, .ready, false)],
      (s.frameAt 0 q.1).state = .stopped ∧ (s.frameAt 0 q.1).saved = some ⟨q.2.1, q.2.2⟩) ∧
    ((laddering none .paused false true).ctxAt 1).state = .paused ∧
    ((laddering none .paused false true).ctxAt 1).pausedAt + ((laddering none .paused false true).ctxAt 1).policy.pauseMax ≤ 1000 ∧
    (laddering none .paused false true).ftime = 1000 ∧ ((laddering none .paused false true).ctxAt 1).leaving = false := by decide +kernel

/-- Ring 2 of VF 1: 16 units at 0x10000 with the packet w of two units at HEAD 3, completions at 0x20000; the ring's state, HEAD's
distance from TAIL, and its limits are the arguments. Ticket 4 is as far as stage. -/
def ringOf (state : BitVec 32) (tail : Nat) (ok : Bool) (stage : Nat) (ctail : Nat) : Ring where
  rbase := 0x10000
  rsize := if ok then 16 else 17
  rctl := 5
  tail := BitVec.ofNat 32 tail
  head := 3
  cbase := 0x20000
  csize := 16
  chead := 0
  ctail := BitVec.ofNat 32 ctail
  rstate := state
  maddr := 0x30000
  mark := 3
  phase := true
  reserved := 0
  next := 5
  tickets := [⟨4, 9, 2, false, true, stage, 0⟩]
  marks := [(5, 3, 77)]
  fences := [(5, 78, 2)]

@[irreducible] def ringed (x : Ring) (w : Nat) : State :=
  let s := { world with mem := memPut world.mem (dmaAddr 1 (0x10000 + 64 * 3)) (leBytes 8 w) }
  s.setRing 1 2 x

/-- A MSG of class 1 to object 2, sequence number 7. -/
def msgPacket : Nat := 1 + 2 ^ 8 * 2 + 2 ^ 16 + 2 ^ 32 * 7

theorem wit_ring :
    let x := ringOf 1 4 true 0 4
    vfExists 1 = true ∧ (x.rstate.extractLsb' 0 2 = 1 ∧ (ringOf 0 3 true 0 4).rstate.extractLsb' 0 2 = 0) ∧
    ((ringOf 0 3 true 0 4).limits = true ∧ (ringOf 0 3 false 0 4).limits = false) ∧ (ringOf 0 3 true 0 4).head = (ringOf 0 3 true 0 4).tail ∧
    (ringed x 0).ringAt 1 2 = x ∧ (ringed x 0).ringsRead 1 = true ∧ x.head.toNat ≠ 16 ∧ x.rsize.toNat ≤ 16 := by decide +kernel

theorem wit_packets :
    (∀ p ∈ [(2, 1, 2 + 2 ^ 8), (3, 1, 3 + 2 ^ 8), (4, 1, 4 + 2 ^ 8), (4, 1, 4 + 2 ^ 8 + 2 ^ 24), (2, 4, 2 + 2 ^ 10)],
      let x := ringOf 1 (3 + p.2.1) true 0 4
      PacketAt (ringed x p.2.2) 1 2 x p.2.1 p.1 p.2.2 0 ∧ (x.head.toNat + p.2.1) % x.rsize.toNat = x.tail.toNat) := by
  intro p hp
  fin_cases hp <;> (refine ⟨?_, by decide +kernel⟩; constructor <;> decide +kernel)

/-- A DMA error at HEAD, and one at CTAIL. -/
theorem wit_dma_error :
    let x := ringOf 1 4 true 1 4
    let s := { ringed x 0 with bad := [dmaAddr 1 (x.rbase.toNat + 64 * x.head.toNat), dmaAddr 1 (x.cbase.toNat + 128 * x.ctail.toNat)] }
    s.ringAt 1 2 = x ∧ x.rstate.extractLsb' 0 2 = 1 ∧ x.head.toNat ≠ 4 ∧ s.ringsRead 1 = true ∧ 4 < x.rsize.toNat ∧
    s.badAt (dmaAddr 1 (x.rbase.toNat + 64 * x.head.toNat)) 8 ≠ none ∧ (∀ q ∈ x.tickets, q.n < 5 → 1 ≤ q.stage) ∧
    s.badAt (dmaAddr 1 (x.cbase.toNat + 128 * x.ctail.toNat)) 128 ≠ none ∧
    (ringed x 0).badAt (dmaAddr 1 (x.cbase.toNat + 128 * x.ctail.toNat)) 128 = none := by decide +kernel

theorem wit_msg :
    let x := ringOf 1 5 true 0 4
    let s := { ringed x msgPacket with mem := memPut (ringed x msgPacket).mem (dmaAddr 1 (0x10000 + 64 * 3 + 8)) [2] }
    PacketAt s 1 2 x 2 1 (msgPacket + 2 ^ 64 * 2) 7 ∧ s.ctxOfVf 1 = some 1 ∧ (s.packetMsg 1 2 (msgPacket + 2 ^ 64 * 2)).sl = false ∧
    (s.packetMsg 1 2 (msgPacket + 2 ^ 64 * 2)).objid = 2 ∧
    s.liveAt (s.ctxAt 1) 2 = some (ob 2) ∧ s.far (ob 2) = false ∧ s.homeOf (s.ctxAt 1) (ob 2) 0 % 4096 = 0 ∧ s.takesMessages 0 = true ∧
    0 < s.roomAt 0 false ∧ (s.coreAt 0).queue false = [] ∧
    (s.setCore 0 { s.coreAt 0 with
      normalQ := (List.range 256).map (fun i => ⟨letter false false, 900, i, .here, false⟩) }).roomAt 0 false = 0 := by
  refine ⟨by constructor <;> decide +kernel, by decide +kernel⟩

/-- Object 5 lives on device 7, which can be reached; whether it has room is not of this device (Config.farReserve). -/
theorem wit_far_msg :
    let x := ringOf 1 5 true 0 4
    let w := 1 + 2 ^ 8 * 2 + 2 ^ 16 + 2 ^ 32 * 7 + 2 ^ 64 * 5
    let s := { ringed x msgPacket with mem := memPut (ringed x msgPacket).mem (dmaAddr 1 (0x10000 + 64 * 3 + 8)) [5] }
    PacketAt s 1 2 x 2 1 w 7 ∧ s.ctxOfVf 1 = some 1 ∧ (s.packetMsg 1 2 w).sl = false ∧
    (s.packetMsg 1 2 w).objid = 5 ∧ s.liveAt (s.ctxAt 1) 5 = some (ob 5) ∧ s.far (ob 5) = true ∧
    (ob 5).home / 4096 ∉ s.unreachable := by
  refine ⟨by constructor <;> decide +kernel, by decide +kernel⟩

theorem wit_marks :
    (∀ stage ∈ [0, 1, 2], (ringed (ringOf 1 3 true stage 4) 0).ringAt 1 2 = ringOf 1 3 true stage 4 ∧
      memWf (ringed (ringOf 1 3 true stage 4) 0).mem = true) ∧
    (∀ q ∈ (ringOf 1 3 true 2 4).tickets, q.n < 5 → 2 ≤ q.stage) ∧ (∃ q ∈ (ringOf 1 3 true 1 4).tickets, q.n < 5 ∧ q.stage < 2) ∧
    (∀ q ∈ (ringOf 1 3 true 1 4).tickets, q.n < 5 → 1 ≤ q.stage) ∧ (∃ q ∈ (ringOf 1 3 true 0 4).tickets, q.n < 5 ∧ q.stage = 0) ∧
    (ringOf 1 3 true 1 4).ctail.toNat + 1 < 16 ∧ (ringOf 1 3 true 1 15).csize.toNat ≤ (ringOf 1 3 true 1 15).ctail.toNat + 1 := by
  decide +kernel

/-! ### The mailbox and the firmware -/

def ruleOf (flags : BitVec 32) (dests : List (List Byte)) : Policy :=
  { Policy.empty with flags := flags, clMin := 1, clMax := 2, sliceMin := 10, sliceMax := 1000, dests := dests, t1 := 5, t3 := 7 }

def snapshotOf (bs : List Byte) : Snapshot := ⟨bs, [(40, Core.reset)], [(5, Cluster.reset)], [], [], [], [], []⟩

/-- The tenant under handle 71; a created context under 72, a paused one under 73 that holds clusters 2 and 3, an evicted one whose
image is 84, one that is gone with its clusters not yet free, a bound one under 76 that may not migrate. -/
@[irreducible] def rooted (ladder : Option Ladder) (migration : Option Migration) (dests : List (List Byte)) (bs : List Byte)
    (retry : Option Nat) : State :=
  let x : Context := { Context.empty with policy := ruleOf 3 dests }
  let s := { world with
    ftime := 200000
    contexts := [(1, { tenant with handle := 71, queue := 81, ladder := ladder, policy := ruleOf 3 dests, migration := migration }),
      (2, { x with state := .created, handle := 72 }),
      (3, { x with state := .paused, handle := 73, clusters := [2, 3], vf := 3, keyid := 2 }),
      (4, { x with state := .evicted, handle := 74, image := 84, clusters := [5], vf := 4, saved := some (snapshotOf bs) }),
      (5, { x with state := .gone, vf := 5, teardown := some ⟨9, 1, 100000, none, 0, 5, [6], retry, true, true⟩ }),
      (6, { x with state := .bound, handle := 76, vf := 6, policy := ruleOf 0 [] })] }
  (s.setCluster 2 { Cluster.reset with owner := some 3 }).setCluster 3 { Cluster.reset with owner := some 3 }

def plainRoot : State := rooted none none [] [1, 2] none

theorem wit_handles_of_contexts :
    plainRoot.byHandle 99 = none ∧ plainRoot.byQueue 99 = none ∧ plainRoot.byImage 99 = none ∧
    (∀ q ∈ [(71, 1, CtxState.running), (72, 2, .created), (73, 3, .paused), (74, 4, .evicted), (76, 6, .bound)],
      plainRoot.byHandle q.1 = some (q.2.1, plainRoot.ctxAt q.2.1) ∧ (plainRoot.ctxAt q.2.1).state = q.2.2) ∧
    (plainRoot.ctxAt 1).ladder = none ∧ ((rooted (some (stageOf .reef 900)) none [] [] none).ctxAt 1).ladder = some (stageOf .reef 900) ∧
    (plainRoot.ctxAt 2).ladder = none ∧ (plainRoot.ctxAt 2).waiting = [] ∧ (plainRoot.ctxAt 3).leaving = false ∧
    (plainRoot.ctxAt 6).leaving = false ∧ (plainRoot.ctxAt 3).holds = true ∧ (plainRoot.ctxAt 6).holds = true := by decide +kernel

theorem wit_bind :
    (plainRoot.ctxAt 2).policy.clMin ≤ (2 : Word).toNat ∧ (2 : Word).toNat ≤ (plainRoot.ctxAt 2).policy.clMax ∧
    (plainRoot.ctxAt 2).policy.clMax < (3 : Word).toNat ∧ (0 : Word).toNat < (plainRoot.ctxAt 2).policy.clMin ∧
    plainRoot.pickClusters 2 = some [4, 6] ∧ plainRoot.freeKey = some 1 ∧
    (∀ q ∈ plainRoot.contexts, q.2.vf = (384 : Word).toNat → q.2.state = .gone) ∧
    (∃ q ∈ plainRoot.contexts, q.2.vf = (3 : Word).toNat ∧ q.2.state ≠ .gone) := by decide +kernel

theorem wit_slices :
    (∀ k ∈ [3, 6], (plainRoot.ctxAt k).policy.sliceMin ≤ (10 : Word).toNat ∧ (1000 : Word).toNat ≤ (plainRoot.ctxAt k).policy.sliceMax ∧
      (9 : Word).toNat < (plainRoot.ctxAt k).policy.sliceMin ∧ (plainRoot.ctxAt k).policy.sliceMax < (1001 : Word).toNat ∧
      (plainRoot.ctxAt k).policy.sliceMax ≠ 0) ∧ Policy.empty.sliceMax = 0 := by decide +kernel

/-- A policy blob: magic, version 1, its length, T1 and T3, 1 to 2 clusters, one claim group 5 with a grant, whose member is this device. -/
@[irreducible] def blob (dev : Byte) : List Byte :=
  leBytes 4 0x4C504B45 ++ leBytes 4 1 ++ leBytes 4 7547 ++ List.replicate 56 0 ++ [dev] ++ List.replicate 63 0 ++
  List.replicate 2592 0 ++ leBytes 2 1 ++ leBytes 2 2 ++ leBytes 8 10 ++ leBytes 8 1000 ++ leBytes 8 0 ++
  leBytes 4 5 ++ leBytes 4 6 ++ leBytes 4 7 ++ leBytes 4 3 ++ leBytes 2 0 ++ leBytes 2 1 ++ leBytes 2 0 ++ leBytes 2 0 ++
  leBytes 8 0 ++ [5, 1] ++ List.replicate 6 0 ++ [1] ++ List.replicate 127 0 ++ List.replicate 4627 0

/-- Whether a signature verifies is left open (Config.verify); where it does, the blob is a policy. -/
theorem wit_policy (h : ∀ a b c, Config.verify a b c = true) (dev : Byte) (hd : dev ∈ [(0 : Byte), 1]) :
    ∃ p, parsePolicy (blob dev) = some p ∧ p.groups = [(5, true, [0])] ∧ p.devid = dev :: List.replicate 63 0 ∧ p.clMax = 2 ∧
      p.agmask = 0 := by
  have hc : ∀ d ∈ [(0 : Byte), 1],
      (¬ ((blob d).length < 2784 + 4627) ∧
        ¬ (blobNat (blob d) 0 4 ≠ 0x4C504B45 ∨ blobNat (blob d) 4 4 ≠ 1 ∨ blobNat (blob d) 8 4 ≠ (blob d).length ∨
          (!blobZero (blob d) 12 56) = true)) ∧
      (blob d).length = 7547 ∧
      [blobNat (blob d) 2768 2, blobNat (blob d) 2770 2, blobNat (blob d) 2772 2, blobNat (blob d) 2774 2, blobNat (blob d) 2724 2,
        blobNat (blob d) 2726 2, blobNat (blob d) 2728 8, blobNat (blob d) 2736 8, blobNat (blob d) 2764 4, blobNat (blob d) 2776 8] =
        [0, 1, 0, 0, 1, 2, 10, 1000, 3, 0] ∧
      ((blob d).drop 2784).take 136 = [5, 1] ++ List.replicate 6 0 ++ [1] ++ List.replicate 127 0 ∧
      ((blob d).drop 68).take 64 = d :: List.replicate 63 0 := by decide +kernel
  obtain ⟨⟨c1, c2⟩, c3, c4, c5, c6⟩ := hc dev hd
  simp only [List.cons.injEq, and_true] at c4
  obtain ⟨n1, n2, n3, n4, n5, n6, n7, n8, n9, n10⟩ := c4
  have hz : ∀ l : List Byte, l = [5, 1] ++ List.replicate 6 0 ++ [1] ++ List.replicate 127 0 →
      blobNat l 0 1 = 5 ∧ blobNat l 1 1 = 1 ∧ blobZero l 2 6 = true ∧ bitmapMembers (l.drop 8) = [0] := by
    rintro l rfl
    decide +kernel
  obtain ⟨z1, z2, z3, z4⟩ := hz _ c5
  unfold parsePolicy
  simp only [n1, n2, n3, n4, n5, n6, n7, n8, n9, n10, c3, c6, h]
  have hr : List.range 1 = [0] := rfl
  simp only [hr, List.range_zero, List.any_cons, List.any_nil, List.map_cons, List.map_nil, Nat.mul_zero, Nat.add_zero, z1, z2, z3, z4]
  rw [if_neg (by decide), if_neg (by rw [c3] at c2; exact c2), if_neg (by decide), if_neg (by decide),
    if_neg (by decide), if_neg (by decide), if_neg (by decide)]
  exact ⟨_, rfl, rfl, rfl, rfl, rfl⟩

/-- A blob of no device, and one for another (what the identity key is is not of the model). -/
theorem wit_policy_device (p : Policy) (i : identity ≠ 1 :: List.replicate 63 0) :
    (p.devid = 0 :: List.replicate 63 0 → p.namesDevice = true) ∧ (p.devid = 1 :: List.replicate 63 0 → p.namesDevice = false) := by
  constructor <;> intro h <;> unfold Policy.namesDevice <;> rw [h]
  · have : (((0 : Byte) :: List.replicate 63 0).all (fun x => decide (x = 0))) = true := by decide
    rw [this]
    rfl
  · have : (((1 : Byte) :: List.replicate 63 0).all (fun x => decide (x = 0))) = false := by decide
    rw [this, decide_eq_false (Ne.symm i)]
    rfl

/-- The root reads any blob from host memory that holds it. -/
theorem wit_blob (b : List Byte) (hb : b.length < 2 ^ 64) :
    { plainRoot with mem := memPut [] (dmaAddr 0 0x1000) b }.hostBytes 0x1000 (BitVec.ofNat 64 b.length) = b := by
  have hl : (BitVec.ofNat 64 b.length).toNat = b.length := by
    rw [BitVec.toNat_ofNat, Nat.mod_eq_of_lt hb]
  have hw : memWf ([] : List Host.Cell) = true := rfl
  unfold State.hostBytes memBytes
  rw [hl]
  apply List.ext_getElem
  · simp
  · intro i h1 h2
    simpa using memGet_memPut_same b hw h2

/-- Nobody is gone in a device with the tenant alone, which has group 5 or not. -/
theorem wit_groups :
    (∀ q ∈ world.contexts, q.2.state ≠ .gone) ∧ world.groupsTaken { ruleOf 3 [] with groups := [(5, true, [0])] } = false ∧
    { world with groups := [(5, { Group.reset with owner := some 1 })] }.groupsTaken
      { ruleOf 3 [] with groups := [(5, true, [0])] } = true := by decide +kernel

/-- How long an image is is the root's own (Config.imageSize). -/
theorem wit_migrate_image (h : 64 + Config.imageSize 2 0 < 2 ^ 64) :
    (plainRoot.ctxAt 3).state = .paused ∧ (plainRoot.ctxAt 3).leaving = false ∧ (plainRoot.ctxAt 3).policy.flags.getLsbD 0 = true ∧
    (∃ n : Word, plainRoot.imageLen 3 ≤ n.toNat ∧ plainRoot.deltaLen 3 ≤ n.toNat) ∧ (0 : Word).toNat < plainRoot.imageLen 3 ∧
    (0 : Word).toNat < plainRoot.deltaLen 3 ∧
    ((plainRoot.ctxAt 6).state ≠ .paused ∧ (plainRoot.ctxAt 6).policy.flags.getLsbD 1 = false) ∧
    (plainRoot.ctxAt 3).policy.flags.getLsbD 1 = true ∧ (plainRoot.ctxAt 1).state = .running ∧ (plainRoot.ctxAt 3).ladder = none ∧
    plainRoot.answered 3 = true := by
  have e : plainRoot.imageLen 3 = 64 + Config.imageSize 2 0 := by
    have h1 : (plainRoot.ctxAt 3).saved = none ∧ (plainRoot.ctxAt 3).clusters.length = 2 ∧
        (plainRoot.pageOwner.filter (fun p => decide (p.2 = 3))).length = 0 := by decide +kernel
    unfold State.imageLen
    rw [h1.1, h1.2.1, h1.2.2]
  have d : plainRoot.deltaLen 3 = plainRoot.imageLen 3 := by
    have h1 : (plainRoot.ctxAt 3).migration = none := by decide +kernel
    unfold State.deltaLen
    simp [h1]
  have g : (0 : Word).toNat < plainRoot.imageLen 3 := by
    rw [e]
    exact Nat.lt_of_lt_of_le (by decide : (0 : Word).toNat < 64) (Nat.le_add_right _ _)
  refine ⟨by decide +kernel, by decide +kernel, by decide +kernel, ⟨BitVec.ofNat 64 (64 + Config.imageSize 2 0), ?_⟩, g, d ▸ g,
    by decide +kernel⟩
  rw [d, e, BitVec.toNat_ofNat, Nat.mod_eq_of_lt h]
  exact ⟨Nat.le_refl _, Nat.le_refl _⟩

theorem wit_keyx (b : List Byte) :
    Config.keyxPeer b ∉ ((rooted none none [] [] none).ctxAt 1).policy.dests ∧
    Config.keyxPeer b ∈ ((rooted none none [Config.keyxPeer b] [] none).ctxAt 1).policy.dests := by
  constructor
  · have : ((rooted none none [] [] none).ctxAt 1).policy.dests = [] := by decide +kernel
    simp [this]
  · have : ∀ d, ((rooted none none [d] [] none).ctxAt 1).policy.dests = [d] := fun d => by unfold rooted; rfl
    simp [this]

def migrationOf : Migration := ⟨100, 0x1000, 64, 100000, none, false, none⟩

theorem wit_migration :
    let s := rooted none (some migrationOf) [] [] none
    (s.ctxAt 1).migration = some migrationOf ∧ (s.ctxAt 1).holds = true ∧ memWf s.mem = true ∧ 100000 + 1000 * 100 ≤ s.ftime ∧
    { s with ftime := 199999 }.ftime < 100000 + 1000 * 100 ∧ (plainRoot.ctxAt 1).migration = none := by decide +kernel

/-- The tenant after MIGRATE FINAL, its ladder over, its last loads arrived; and with the ladder still running. -/
theorem wit_final :
    let m : Migration := { migrationOf with final := some (0x1000, 64, 9) }
    let s := plainRoot.setCtx 3 { plainRoot.ctxAt 3 with migration := some m }
    let r := rooted (some (stageOf .reef 900)) (some m) [] [] none
    (s.ctxAt 3).migration = some m ∧ m.final = some (0x1000, 64, 9) ∧ (s.ctxAt 3).state = .paused ∧ (s.ctxAt 3).ladder = none ∧
    s.answered 3 = true ∧ (s.ctxAt 3).leaving = true ∧ (r.ctxAt 1).migration = some m ∧ (r.ctxAt 1).ladder.isSome = true := by
  decide +kernel

theorem wit_restore_image :
    (∀ bs ∈ [[1, 2], [0, 0]], let s := rooted none none [] bs none
      s.byImage 84 = some (4, s.ctxAt 4) ∧ (s.ctxAt 4).saved = some (snapshotOf bs) ∧ (s.ctxAt 4).policy.namesDevice = true ∧
      s.canRestore 4 (s.ctxAt 4) (snapshotOf bs) = true ∧
      ((s.hostBytes 0x1000 2).take 2 = bs ↔ bs = [0, 0])) ∧
    ((rooted none none [] [0, 0] none).setCluster 5 { Cluster.reset with owner := some 1 }).canRestore 4
      ((rooted none none [] [0, 0] none).ctxAt 4) (snapshotOf [0, 0]) = false := by decide +kernel

/-- Whether an image of another root comes with a handle, and what it holds, is not of this device. -/
theorem wit_incoming (h : Word) (hh : h ∉ [(84 : Word)]) (hi : Config.incomingHandle h = true) :
    plainRoot.byImage h = none ∧ Config.incomingHandle h = true ∧ plainRoot.usedImages.contains h = false ∧
    plainRoot.freeKey = some 1 ∧ ({ plainRoot with usedImages := [h] } : State).usedImages.contains h = true ∧
    ({ plainRoot with usedImages := [h] } : State).byImage h = none := by
  have none_at : ∀ s : State, s.contexts = plainRoot.contexts → s.byImage h = none := by
    intro s hs
    have all : ∀ q ∈ plainRoot.contexts, q.2.image = 0 ∨ q.2.image = 84 := by decide +kernel
    unfold State.byImage
    rw [hs, List.find?_eq_none]
    intro q hq hp
    rcases all q hq with e | e <;> simp [e] at hp
    · exact hp.1.2.1 hp.1.1.symm
    · exact hh (by simp [hp.1.1.symm])
  refine ⟨none_at _ rfl, hi, ?_, by decide +kernel, by simp, none_at _ rfl⟩
  have : plainRoot.usedImages = [] := by decide +kernel
  simp [this]

/-- An image that fits this device and whose clusters and VF are free. -/
theorem wit_incoming_fits :
    let x : Context := { Context.empty with state := .evicted, clusters := [7], vf := 9, policy := ruleOf 3 [] }
    x.policy.namesDevice = true ∧ plainRoot.groupsTaken x.policy = false ∧
    plainRoot.canRestore plainRoot.nextCtx x (snapshotOf []) = true := by decide +kernel

/-- Core 0 of the tenant installs a version: a strike waits; so does a teardown that has begun. -/
@[irreducible] def stillInstalling : State :=
  let s := plainRoot.setFrame 0 0 { plainRoot.frameAt 0 0 with wait := some (.install 2) }
  s.setCtx 1 { s.ctxAt 1 with teardown := some ⟨9, 0, 0, none, 0, 1, [0, 1], none, false, false⟩ }

@[irreducible] def tearing : State :=
  plainRoot.setCtx 3 { plainRoot.ctxAt 3 with teardown := some ⟨9, 0, 0, none, 0, 3, [2, 3], none, false, false⟩ }

theorem wit_teardown :
    plainRoot.retire.stale = false ∧ (plainRoot.claimAt 0).state = .free ∧ plainRoot.mayStrike 1 = true ∧
    (∀ t ∈ [none, some 200000, some 200001],
      ((rooted none none [] [] t).ctxAt 5).teardown = some ⟨9, 1, 100000, none, 0, 5, [6], t, true, true⟩ ∧
      ((rooted none none [] [] t).ctxAt 5).state = .gone ∧ (rooted none none [] [] t).ftime = 200000) ∧
    (plainRoot.clusterAt 6).owner = none ∧ (plainRoot.setFrame 0 0 { plainRoot.frameAt 0 0 with wait := some (.install 2) }).mayStrike 1 = false ∧
    ((stillInstalling.ctxAt 1).teardown.map (·.struck) = some false ∧ stillInstalling.mayStrike 1 = false) ∧
    ((tearing.ctxAt 3).teardown.map (·.struck) = some false ∧ tearing.mayStrike 3 = true ∧ tearing.retire.stale = false ∧
      (tearing.claimAt 0).state = .free) := by decide +kernel

/-- Which slots boot is for their signatures to say (Config.verify). -/
theorem wit_boot (b : Bool) (h : ∀ x y z, Config.verify x y z = b) (v : ∀ i, Config.fwVersion i = 0) :
    world.bootSlot = (if b then some 0 else none) := by
  have h1 : world.slotSelect = 0 ∧ world.secCounter = 0 := by decide +kernel
  unfold State.bootSlot State.slotBoots
  simp only [h, v, h1]
  cases b <;> rfl

theorem wit_firmware :
    { world with power := .recovery }.power = .recovery ∧ world.power = .p0 ∧ (world.coreAt 0).handling = false ∧
    (world.coreAt 0).pendingTrap = none ∧ (world.coreAt 0).events = [] ∧
    (∀ i ∈ [0, 1], { world with booted := some i }.booted = some i ∧ { world with booted := some i }.power ≠ .recovery) := by decide +kernel

theorem wit_tdisp :
    vfExists 1 = true ∧ vfExists 385 = false ∧
    (∀ t ∈ [Tdi.unlocked, .locked, .run], ((plainRoot.setVf 1 ⟨0, true, t, some 3, []⟩).vfAt 1).tdi = t) ∧
    (∃ p ∈ (plainRoot.setVf 1 ⟨0, true, .locked, some 3, []⟩).contexts, p.2.vf = 1 ∧ (1 : Nat) ≠ 0 ∧ p.2.holds = true) ∧
    (((plainRoot.setVf 1 ⟨0, true, .locked, none, []⟩).vfAt 1).ide = none ∧ plainRoot.linkIde = none) ∧
    (∀ p ∈ plainRoot.contexts, p.2.vf = 9 → p.2.holds = false) ∧ plainRoot.secured = false ∧
    { plainRoot with secured := true }.secured = true := by
  decide +kernel
/-! ### Ill-formed terms and words -/

/-- A term for each check of R37 to R60 on either side of it that is ill-formed; none has a word that decodes to it. -/
theorem test_ill_formed :
    ∀ i ∈ ([.sext 3 0 0, .zext 31 0 0, .shlImm 1 32 0 0, .shrImm 1 63 0 0, .shraImm 1 32 0 0, .rotImm 1 32 0 0, .lds 0 0 3 0 0,
        .ldsIndexed 0 0 3 0 0, .cget 6 0 0, .send 0 0 0 0 0 0 0 0, .send 0 0 0 0 0 1 31 0, .minst 3 0 0 0, .minst 2 1 0 0] :
        List Instr), i.wf = false ∧ decodeBytes (leBytes i.size (encode i)) ≠ .ok (i, i.size) := by decide +kernel

theorem test_ill_formed_atomics_and_engines :
    ∀ i ∈ ([.amo 0 0 0 13 0 0 0, .amo 0 0 1 9 0 0 0, .amo 0 1 0 0 0 0 1, .fence 0, .fenceAcq 0, .fenceRel 0, .hbar 0 0, .hbar 0 7,
        .barany 0 0, .mmctx 31, .mmjob 28 0 15 0, .mmjob 28 15 0 0, .mmjob 29 0 0 0, .reply 0 0 0, .reply 1 31 0] : List Instr),
      i.wf = false ∧ decodeBytes (leBytes i.size (encode i)) ≠ .ok (i, i.size) := by decide +kernel

theorem test_ill_formed_vectors :
    ∀ i ∈ ([.vadd 3 0 0 0 0, .vsub 3 0 0 0 0, .vmul 7 0 0 0 0, .vmin 3 0 0 0 0, .vmax 4 0 0 0 0, .vand 0 0 0 0 0, .vor 3 0 0 0 0,
        .vxor 0 0 0 0 0, .vshl 0 0 0 0 0, .vshr 3 0 0 0 0, .vshra 0 0 0 0 0, .vfn 7 0 0 0, .vcmp 6 0 0 0 0 1, .vcmp 0 3 0 0 0 1,
        .vcmp 0 0 0 0 0 0, .vld 0 3 0 0 0, .vst 0 3 0 0 0, .vgath 0 3 0 0 0, .vscat 0 3 0 0 0, .vred 3 0 0 0 0, .vred 0 3 0 0 0,
        .vcvt 1 4 0 0 4 0 0] : List Instr),
      i.wf = false ∧ decodeBytes (leBytes i.size (encode i)) ≠ .ok (i, i.size) := by decide +kernel

/-- Patterns that R62 lists: nothing, a reserved major opcode, reserved bits that are set, half of a word. -/
theorem test_no_instruction :
    (∀ w ∈ [0x0000, 0x001C, 0x8002, 0x801A], (decodeBytes (leBytes 2 w)).toOption = none) ∧
    (∀ w ∈ [0xFFFFFFFF, 0x80000003, 0x00000003 + 2 ^ 29, 0x10000035 + 2 ^ 7], (decodeBytes (leBytes 4 w)).toOption = none) ∧
    (decodeBytes (leBytes 2 0x5203)).toOption = none ∧ (decodeBytes []).toOption = none := by decide +kernel

/-! ### A word of every instruction, from its row of the encoding tables (R37 to R61) -/

/-- The words, as many bytes as each takes, decode to the instructions beside them. -/
def reads (l : List (Nat × Nat × Instr)) : Bool :=
  l.all (fun p => decide (decodeBytes (leBytes p.1 p.2.1) = .ok (p.2.2, p.1)) && p.2.2.wf)

theorem test_words_1 :
    reads
      [(4, 0x00078703, .add 0 3 24 14), (4, 0x10499703, .sub 1 4 25 14), (4, 0x008BA783, .mul 0 5 26 15),
       (4, 0x10CDB803, .mulh 1 6 27 16), (4, 0x010FC883, .mulhn 0 7 28 17), (4, 0x1151D903, .div 1 8 29 18),
       (4, 0x1193E983, .divn 1 9 30 19), (4, 0x01D5FA03, .rem 0 10 31 20), (4, 0x1215EA83, .remn 1 10 30 21),
       (4, 0x02561B03, .and 0 11 1 22), (4, 0x12982B83, .or 1 12 2 23), (4, 0x02DA2C03, .xor 0 13 2 24),
       (4, 0x131C3C83, .andn 1 14 3 25), (4, 0x035E4C83, .shl 0 15 4 25), (4, 0x13A05D03, .shr 1 16 5 26),
       (4, 0x03E26D83, .shra 0 17 6 27), (4, 0x14247E03, .rot 1 18 7 28),
       (4, 0x14668E83, .min 1 19 8 29)] = true := by decide +kernel

theorem test_words_2 :
    reads
      [(4, 0x04A89F03, .max 0 20 9 30), (4, 0x14EAAF83, .minn 1 21 10 31), (4, 0x052ABF03, .maxn 0 21 11 30),
       (4, 0x156CC083, .slt 1 22 12 1), (4, 0x05AEC103, .sltn 0 23 12 2), (4, 0x15F0D183, .seq 1 24 13 3),
       (4, 0x06019703, .clz 0 25 14), (4, 0x1641A783, .popc 1 26 15), (4, 0x0683B803, .sext 1 27 16),
       (4, 0x06C5C883, .zext 2 28 17), (4, 0x3A81D905, .addImm 0x3a8 29 18), (4, 0xE683E985, .andImm 0xe68 30 19),
       (4, 0x9295FA05, .orImm 0x929 31 20), (4, 0x3EA7FA85, .xorImm 0x3ea 31 21), (4, 0xEAB9EB05, .sltImm 0xeab 30 22),
       (4, 0x96CA1B85, .sltnImm 0x96c 1 23), (4, 0x42DC2B85, .seqImm 0x42d 2 23),
       (4, 0x023F8705, .shlImm 0 35 24 14)] = true := by decide +kernel

theorem test_words_3 :
    reads
      [(4, 0x154F9705, .shrImm 1 20 25 14), (4, 0x0A5FA785, .shraImm 0 37 26 15), (4, 0x1D5FB805, .rotImm 1 21 27 16),
       (4, 0x869F2387, .li 0x869f2 7), (4, 0x694B3409, .lis 0x694b3 8), (4, 0xDCCA340B, .ld 0x373 1 2 3 8),
       (4, 0x8D16448B, .lds 0x234 2 2 4 9), (4, 0x0550550D, .ldIndexed 21 2 0 5 10),
       (4, 0x059D658D, .ldsIndexed 22 3 1 6 11), (4, 0x9DE2760F, .st 0x277 4 2 7 12), (4, 0x062A8691, .stx 24 5 2 8 13),
       (4, 0xCCDFFC93, .br 0x199bff9), (4, 0xE3F55D15, .call 0x1c7eaba), (4, 0x57B10297, .beq 0x57b 16 5),
       (4, 0x03C31317, .bne 60 17 6), (4, 0xAFD52397, .blt 0xafd 18 7), (4, 0x5BD73417, .bge 0x5bd 19 8),
       (4, 0x07E94497, .bltn 0x7e 20 9)] = true := by decide +kernel

theorem test_words_4 :
    reads
      [(4, 0xB3FB5517, .bgen 0xb3f 21 10), (4, 0x60000A99, .loop 0x600 21), (4, 0x0000101B, .jr 1),
       (4, 0x0040201B, .callr 2), (4, 0x0080301B, .ret 3), (4, 0x0608249D, .xcall 0xc104 9), (4, 0x0000551F, .cmov 5 10),
       (4, 0x004CB71F, .cinc 6 11 14), (4, 0x008EC09F, .cbnd 7 12 1), (4, 0x00D0D11F, .cperm 8 13 2),
       (4, 0x0108E99F, .cget 4 14 19), (4, 0x0152FA1F, .ceq 9 15 20), (4, 0x12BB5521, .cldc 74 7 5 10),
       (4, 0xC2F765A1, .cstc 0x30b 6 6 11), (4, 0x350E58A3, .send 0 1 1 0 0xa1 6 11 1), (4, 0x002076A5, .minst 2 0 7 13),
       (4, 0x1000E1A5, .mpurgeSoft 14 3), (4, 0x1010F225, .mpurgeHard 15 4)] = true := by decide +kernel

theorem test_words_5 :
    reads
      [(4, 0x2000E2A5, .mqry 14 5), (4, 0x30000025, .cvtend), (4, 0x400023A5, .objver 2 7),
       (4, 0x04D1D927, .clprop 19 8 29 18), (4, 0x10269F27, .clobj 19 9 30), (4, 0x20014527, .clwait 20 10),
       (4, 0x3540AF27, .clread 21 10 30), (4, 0x45961B27, .clgrp 22 11 1 22), (4, 0x74AC1B29, .amo 7 0 1 5 12 1 22),
       (4, 0x65A286A9, .cas 6 1 2 8 13), (4, 0x04E3972B, .mcredAdd 1 14 3 9 14), (4, 0x18F497AB, .mcredMax 2 15 4 9 15),
       (4, 0x2D05A82B, .mcredMin 3 16 5 10 16), (4, 0x31C16DAB, .mcst 28 1 6 27), (4, 0x41D203AB, .agset 29 2 7),
       (4, 0x000002AD, .fence 5), (4, 0x0000072D, .fenceAcq 6), (4, 0x00000BAD, .fenceRel 7)] = true := by decide +kernel

theorem test_words_6 :
    reads
      [(4, 0x101E55AD, .waita 30 5 11), (4, 0x2000002D, .pause), (4, 0x300022AD, .hbar 2 5),
       (4, 0x003C69AF, .qpush 3 24 13 3), (4, 0x104CF22F, .qpusht 4 25 14 4), (4, 0x25A7A52F, .qgath 5 10 15 4 10),
       (4, 0x3003582F, .wmset 6 11), (4, 0x4003802F, .wmget 7), (4, 0x0008D031, .barinit 8 13), (4, 0x10008031, .bararr 8),
       (4, 0x2009F031, .barpend 9 15), (4, 0x3000AFB1, .barwait 10 31), (4, 0x46B00F31, .barany 0x6b 30),
       (4, 0x00C00033, .mmctx 12), (4, 0x10D276B3, .mmjob 13 2 7 13), (4, 0x20000733, .mmwait 14),
       (4, 0x30F04033, .mmldt 15 4), (4, 0x41005033, .mmdrain 16 5)] = true := by decide +kernel

theorem test_words_7 :
    reads
      [(4, 0x51100033, .mmzero 17), (4, 0x000D5935, .trap 0x1ab2), (4, 0x10000035, .eret), (4, 0x200334B5, .mfs 51 9),
       (4, 0x30AF4535, .mts 0xaf4 10), (4, 0x40000AB5, .fresume 21), (4, 0x50783B35, .safe 0xf076), (4, 0x60000035, .bkpt),
       (4, 0x70000035, .halt), (4, 0x80000035, .nop32), (4, 0x00027A37, .reply 2 15 4), (4, 0x10000037, .done32),
       (4, 0x20000037, .defer), (4, 0x048FC8C1, .vadd 2 2 7 28 17), (4, 0x12D1D941, .vsub 1 3 8 29 18),
       (4, 0x2513E9C1, .vmul 2 4 9 30 19), (4, 0x3355FA41, .vmin 1 5 10 31 20),
       (4, 0x4557EAC1, .vmax 2 5 11 30 21)] = true := by decide +kernel

theorem test_words_8 :
    reads
      [(4, 0x53981B41, .vand 1 6 12 1 22), (4, 0x65D82BC1, .vor 2 7 12 2 23), (4, 0x759A3C41, .vxor 2 6 13 3 24),
       (4, 0x845C3CC1, .vshl 2 1 14 3 25), (4, 0x929E4D41, .vshr 1 2 15 4 26), (4, 0xA4E05DC1, .vshra 2 3 16 5 27),
       (4, 0x01F91343, .vfma 7 28 17 6), (4, 0x11BB23C3, .vfmaNeg 6 29 18 7), (4, 0x61813445, .vfn 6 6 19 8),
       (4, 0x5513E1C7, .vcmp 5 2 4 9 30 3), (4, 0x80BF5547, .vsel 2 31 21 10), (4, 0x0196BF49, .vld 3 0 22 11 30),
       (4, 0x0637C0C9, .vst 4 1 23 12 1), (4, 0x02D7D14B, .vgath 5 2 23 13 2), (4, 0x0758E1CB, .vscat 6 2 24 14 3),
       (4, 0x2440E24D, .vred 2 2 1 14 4), (4, 0x41805D4D, .vbcast 6 5 26),
       (4, 0x504DB84D, .vperm 1 6 27 16)] = true := by decide +kernel

theorem test_words_9 :
    reads
      [(4, 0x0F1DC8CF, .vcvt 0 7 4 1 6 28 17), (4, 0x10808ECF, .vdec 2 8 29), (4, 0x20C09F4F, .venc 3 9 30),
       (2, 0x5142, .mov 20 10), (2, 0x5544, .add16 21 10), (2, 0x5966, .sub16 22 11), (2, 0x5D88, .addi16 23 12),
       (2, 0x61AA, .and16 24 13), (2, 0x65CC, .shli16 25 14), (2, 0x69EE, .shri16 26 15), (2, 0x2E10, .ldD16 11 16),
       (2, 0x3232, .stD16 12 17), (2, 0x83B4, .br16 0x41d), (2, 0x7676, .bez 29 19), (2, 0x7A98, .bnz 30 20),
       (2, 0x001A, .done), (2, 0x003A, .nop), (2, 0x005A, .ret16)] = true := by decide +kernel

/-! ### Examples that the spec works out, with its results -/

/-- The example of R173: f32 to e4m3 under RNE, RTZ, RUP without saturation and RNE with it. -/
def toE4m3 (a : Lane) : List Lane :=
  [convertLane false 5 0 .rne a, convertLane false 5 0 .rtz a, convertLane false 5 0 .rup a, convertLane true 5 0 .rne a]

theorem test_to_e4m3 :
    toE4m3 0x43960000 = [0x79, 0x79, 0x7A, 0x79] ∧ toE4m3 0x43E60000 = [0x7E, 0x7E, 0x7F, 0x7E] ∧
    toE4m3 0x43EB0000 = [0x7F, 0x7E, 0x7F, 0x7E] ∧ toE4m3 0x3A83126F = [0x01, 0x00, 0x01, 0x01] ∧
    toE4m3 0x44160000 = [0x7F, 0x7E, 0x7F, 0x7E] ∧ toE4m3 0xC4160000 = [0x7F, 0xFE, 0xFE, 0xFE] := by decide +kernel

/-- The examples of R428. -/
theorem test_lanes :
    laneAdd 1 0x7FFFFFFF 1 = 0x80000000 ∧ laneMin 0 0x80000000 0 = 0x80000000 ∧ laneMax 0 0x7FC00001 0x3F800000 = 0x7FC00000 := by
  decide +kernel

/-- The example after R190, a sum that the guard bits lose: A scales 0x82, 0x82 and 0x57 or 0x6B of three blocks of e4m3. -/
def guardBits (scale : Byte) : Lane :=
  let ones (x y z : Byte) : Array Byte := ((x :: List.replicate 31 0) ++ (y :: List.replicate 31 0) ++ (z :: List.replicate 31 0)).toArray
  outputWord Core.reset { matrixJob 0x133 with m := 1, n := 1, k := 96 }
    ⟨ones 0x38 0xB8 0x38, ones 0x38 0x38 0x01, #[0x82, 0x82, scale], #[0x7F, 0x7F, 0x7F]⟩ 0 0 5

theorem test_guard_bits :
    guardBits 0x57 = 0 ∧ guardBits 0x6B = 0x31000000 ∧ drainWord 0x233 0x3F8000003F800000 2 0x31000000 = 0x3100 := by decide +kernel

/-- Output (1, 2) of the projection of R213: 9 + 558 in block 0; 8 products of 3 in block 1, of 32 elements that K = 40 cuts
to 8, with an A scale of 2. All pad codes are -6. -/
def projection : Lane :=
  let a : Array Byte := (List.replicate 32 (0 : Byte) ++ List.replicate 20 (0x77 : Byte) ++ List.replicate 12 (0xFF : Byte)).toArray
  let b : Array Byte := (List.replicate 64 (0 : Byte) ++ (0x53 :: List.replicate 15 (0x55 : Byte)) ++ List.replicate 4 (0x11 : Byte) ++
    List.replicate 12 (0xFF : Byte)).toArray
  outputWord Core.reset { matrixJob 0x200 with m := 2, n := 3, k := 40 } 
    ⟨a, b, #[0x7F, 0x7F, 0x7F, 0x80], (List.replicate 6 (0x7F : Byte)).toArray⟩ 1 2 5

/-- R214 has tile word 0x4419C000 for it, and three drained words with TSA = 0.5 and TSB = 2.0. -/
theorem test_projection :
    projection = 0x4419C000 ∧ drainWord 0x200 0x400000003F000000 2 0x4419C000 = 0x441A ∧
    drainWord 0x200 0x400000003F000000 2 0x44178000 = 0x4418 ∧ drainWord 0x200 0x400000003F000000 2 0x44190000 = 0x4419 := by
  decide +kernel

/-- The example of R390: 606.0 drained with TSA = 1.0 and TSB = 0.25 to f32, bf16 and e4m3. -/
theorem test_drain_formats :
    drainWord 0 0x3E8000003F800000 1 0x44178000 = 0x43178000 ∧ drainWord 0 0x3E8000003F800000 2 0x44178000 = 0x4318 ∧
    drainWord 0 0x3E8000003F800000 4 0x44178000 = 0x71 := by decide +kernel

/-- R174: f32 infinity and NaN become 0x3FE00, the greatest f32 the greatest entry; 1 + 1.5 steps of 2^-10 ties to even. -/
theorem test_table_entries :
    lutOf 0x7F800000 = 0x3FE00 ∧ lutOf 0xFFC00000 = 0x3FE00 ∧ lutOf 0x7F7FFFFF = 0x3FBFF ∧ lutOf 0x3F803000 = 0x1FC02 := by
  decide +kernel

/-- The example of R328: two lanes of FADDBF, and a float sum that ties to even. -/
theorem test_float_atomics :
    combine 10 false 0 0x3F804B80 0x3F803F80 = 0x40004B80 ∧ combine 9 false 0 0x4B800000 0x3F800000 = 0x4B800000 := by decide +kernel

def nextOf (x : Host.Outcome State Fault Refusal) : State :=
  match x with
  | .next t => t
  | _ => State.reset

/-- The example of R351, narrowing a window: c6 with rights R and W, BASE 0x100 and LEN 0x400. -/
@[irreducible] def narrowing : State :=
  let fr := (((runner.setGpr 12 0x40).setGpr 2 0x20).setGpr 3 1).setGpr 5 0x21
  world.setFrame 0 0 ({ fr with c := fr.c.set 6 ⟨true, 3, 1, 0x77, 0x100, 0x400⟩ })

theorem test_narrowing :
    let s1 := nextOf (execCinc 12 6 10 narrowing)
    let s2 := nextOf (execCbnd 2 10 10 s1)
    let s3 := nextOf (execCperm 3 10 10 s2)
    s1.cur.cap 10 = ⟨true, 3, 1, 0x77, 0x140, 0x3C0⟩ ∧ s2.cur.cap 10 = ⟨true, 3, 1, 0x77, 0x140, 0x20⟩ ∧
    s3.cur.cap 10 = ⟨true, 1, 1, 0x77, 0x140, 0x20⟩ ∧ (nextOf (execCget 1 10 4 s3)).cur.gpr 4 = 0x140 ∧
    capNat (s3.cur.cap 10) = 0x01010000000077000000140000000020 := by decide +kernel

/-- The examples of widths of loads (R370) and stores (R424): c1's object holds F0 80 01 7F, g20 is 0x1122334455667788. -/
@[irreducible] def widths : State :=
  ({ world with mem := memPut world.mem (2 ^ 43) [0xF0, 0x80, 1, 0x7F] }).setFrame 0 0 (runner.setGpr 20 0x1122334455667788)

theorem test_load_widths :
    (nextOf (execLd 0 0 0 1 4 widths)).cur.gpr 4 = 0xF0 ∧ (nextOf (execLds 0 0 0 1 4 widths)).cur.gpr 4 = 0xFFFFFFFFFFFFFFF0 ∧
    (nextOf (execLd 0 0 1 1 4 widths)).cur.gpr 4 = 0x80F0 ∧ (nextOf (execLds 0 0 1 1 4 widths)).cur.gpr 4 = 0xFFFFFFFFFFFF80F0 ∧
    (nextOf (execLds 0 0 2 1 4 widths)).cur.gpr 4 = 0x7F0180F0 := by decide +kernel

theorem test_store_widths :
    let s := nextOf (execSt 1 0 2 1 20 (nextOf (execSt 1 0 1 1 20 (nextOf (execSt 0 0 0 1 20 (world.setFrame 0 0 (runner.setGpr 20 0x1122334455667788)))))))
    s.readOwn 0 0 (2 ^ 43) 8 = [0x88, 0, 0x88, 0x77, 0x88, 0x77, 0x66, 0x55] := by decide +kernel

/-- The example of R440, a sum of squares: the last pass has 8 values left, and lane 1 of v2 holds 2.0. -/
@[irreducible] def squares : State :=
  let lanes (x y : Lane) : VReg := (Vector.replicate 32 x).set 1 y
  let fr := runner.setGpr 2 8
  let v := (fr.v.set 8 (Vector.ofFn (fun i => BitVec.ofNat 32 i.val))).set 2 (lanes 0x3F800000 0x40000000)
  world.setFrame 0 0 { fr with v := v.set 1 (lanes 0x3F800000 0x3F800000) }

theorem test_squares :
    let s1 := nextOf (execVbcast 0 2 9 squares)
    let s2 := nextOf (execVcmp 2 1 0 9 8 1 s1)
    let s3 := nextOf (execVfma 1 2 2 1 s2)
    s2.cur.mask 1 = 0xFF ∧ (s3.cur.vreg 1)[1] = 0x40A00000 ∧ (s3.cur.vreg 1)[0] = 0x40000000 ∧ (s3.cur.vreg 1)[8] = 0x3F800000 := by
  decide +kernel

/-- Its last step: eight lanes of 5.0 and 24 of 1.0 fold to 64.0. -/
theorem test_fold : reduce 0 0 (List.replicate 8 0x40A00000 ++ List.replicate 24 0x3F800000) = 0x42800000 := by decide +kernel

/-- The example of R373: 0x0123456789ABCDEF in three instructions. -/
theorem test_long_constant :
    let s1 := nextOf (execLi 0x12345 5 world)
    let s2 := nextOf (execLis 0x6789A 5 s1)
    s1.cur.gpr 5 = 0x12345 ∧ s2.cur.gpr 5 = 0x123456789A ∧ (nextOf (execLis 0xBCDEF 5 s2)).cur.gpr 5 = 0x0123456789ABCDEF ∧
    (nextOf (execLi 0xFFFFF 5 world)).cur.gpr 5 = 0xFFFFFFFFFFFFFFFF := by decide +kernel

/-- The example of five messages (after R84): their objects X, Y and Z, their senders, and DSLACK = 100,000; a lock of X is
held until 4,000. -/
def mail (n arrival obj sender : Nat) (deadline : Option Nat) : QEntry :=
  ⟨{ letter false false with
      objid := BitVec.ofNat 40 obj
      sender := BitVec.ofNat 22 sender
      dlv := deadline.isSome
      deadline := BitVec.ofNat 64 (deadline.getD 0) }, arrival, n, .here, false⟩

@[irreducible] def five (gone : List Nat) (locked : Bool) : State :=
  let m := [mail 1 0 101 1 none, mail 2 100 102 2 (some 50000), mail 3 200 101 3 (some 20000), mail 4 300 102 2 (some 10000),
    mail 5 400 103 4 (some 350)].filter (fun e => !gone.contains e.serial)
  let s := world.setCore 0 { world.coreAt 0 with normalQ := m, dslack := 100000 }
  s.setCtx 1 { tenant with locks := if locked then [⟨101, 0, 0, 1, none⟩] else [] }

/-- They are dispatched in the order m5 (late by its key of 400), m2, m4, m3, m1. -/
theorem test_five_messages :
    [((five [] true).chosen 0 false).map (·.serial), ((five [5] true).chosen 0 false).map (·.serial),
      ((five [5, 2] false).chosen 0 false).map (·.serial), ((five [5, 2, 4] false).chosen 0 false).map (·.serial),
      ((five [5, 2, 4, 3] false).chosen 0 false).map (·.serial)] = [some 5, some 2, some 4, some 3, some 1] ∧
    ((five [] true).chosen 0 false).map (·.key 100000) = some 400 := by decide +kernel


/-- FIPS 202: the digests of the empty message and of "abc". -/
theorem test_sha3 :
    (sha3 []).take 8 = [0xA6, 0x9F, 0x73, 0xCC, 0xA2, 0x3A, 0x9A, 0xC5] ∧
    (sha3 [0x61, 0x62, 0x63]).take 8 = [0xB7, 0x51, 0x85, 0x0B, 0x1A, 0x57, 0x16, 0x8A] := by decide +kernel

/-! ### Lines at a home, tables, errors, and what else the statements ask for -/

/-- A location in error lies in the barrier at 96 of object 8. -/
theorem wit_barrier_error :
    let s := { barriers with bad := [padAddr 0 100] }
    s.barAddr 1 8 96 = some (padAddr 0 96) ∧ s.badAt (padAddr 0 96) 12 ≠ none ∧ barriers.badAt (padAddr 0 96) 12 = none ∧
    barriers.keeper 0 = none := by decide +kernel

theorem wit_own_buffered :
    (buffered none).ownBuffered 0 0 (2 ^ 43) 8 = true ∧ world.ownBuffered 0 0 (2 ^ 43) 8 = false := by decide +kernel

/-- Page 16 of object 2 has been written under the tenant's key. -/
theorem wit_keyed_page : Keyed { world with keys := (0x100000 / 64, 0) :: world.keys } 1 0x100000 64 := by
  refine .inr ?_
  decide +kernel

/-- A request that the home core 0 holds, another one that comes behind it, and one of a context that is EVICTED. -/
theorem wit_line :
    let q : Request := { ask (.load 8) 2 0 with rid := 6 }
    let s := { world with inflight := [.remoteRequest q], arrived := [(q.core, q.rid)] }
    s.behind (.remoteRequest (ask (.load 8) 2 0)) = true ∧ world.behind (.remoteRequest (ask (.load 8) 2 0)) = false ∧
    (s.ctxAt 1).state ≠ .evicted ∧ ((world.setCtx 1 { tenant with state := .evicted }).ctxAt 1).state = .evicted := by decide +kernel

/-- The same for the accesses of a collective of device 3 at object 8. -/
theorem wit_member_line :
    let i : Instr := .memberRead 12288 1 1 8 0 64
    let s := { world with inflight := [.memberWrite 12288 0 1 8 0 [1]], arrived := [(12288, 0)] }
    world.behind i = false ∧ world.tainted = [] ∧ s.arrivalAt (.memberWrite 12288 0 1 8 0 [1]) = some (0, 12288, 0) ∧
    s.behind i = true := by decide +kernel

theorem wit_host_request :
    granted.liveAt (granted.ctxAt 1) 3 = some (ob 3) ∧
    granted.placeOf (granted.ctxAt 1) (ob 3) 8 (dieOf (0 % 4096)) = .host 5 0x4008 ∧
    granted.translation (dieOf (0 % 4096)) 5 (0x4008 / 4096) true = some true ∧ memWf granted.mem = true := by decide +kernel

/-- Core 8 holds a store to object 8, which is the constant table of the tenant's versions. -/
theorem wit_table_busy :
    let s := (modules false false).setCore 8 { (modules false false).coreAt 8 with
      buffer := [⟨0, 1, 8, padAddr 0 0, [1], none, none⟩] }
    s.tableBusy (s.ctxOf s.core) 1 = true ∧ ((s.ctxAt 1).moduleAt 1).purging = false ∧
    (modules false false).tableBusy ((modules false false).ctxOf 0) 1 = false := by decide +kernel

theorem wit_table_cap : ModuleCap ((modules false false).cur.cap 9) 1 := by
  unfold ModuleCap
  decide +kernel

/-- A copy request whose destination, object 9, is gone; another that still has a write under way. -/
theorem wit_copy_abort :
    let q : CopyReq := { copyOf false with dst := ⟨true, 0x0F, 1, 9, 512, 256⟩ }
    let s := (copying false).setCluster 0 { (copying false).clusterAt 0 with accepted := [q] }
    (s.clusterAt 0).accepted.find? (fun r => decide (r.id = q.id)) = some q ∧ 0 ∈ q.left ∧ 0 ∉ q.held ∧ q.busy 0 = false ∧
    q.inOrder 0 = true ∧ q.ending ≠ 3 ∧ s.liveAt (s.ctxAt q.ctx) q.dst.oid = none ∧ q.wsent = [] ∧
    s.liveAt (s.ctxAt q.ctx) q.bar.oid = some (ob 8) ∧ s.far (ob 8) = false ∧
    s.barAddr q.ctx (ob 8).oid q.bar.base.toNat = some (padAddr 0 96) ∧ s.badAt (padAddr 0 96) 12 = none ∧
    (barAt s.mem (padAddr 0 96)).arr ≤ (barAt s.mem (padAddr 0 96)).exp := by decide +kernel

/-- The core that the poisoned flit was for has met it, or holds it in a queue. -/
theorem wit_poison_met :
    let f : Flit := { flitOf true with kind := 1, src := 9, oid := 5 }
    let p : Poison := ⟨7, 2, f.kind, f.cls, f.src, false, f.oid, 0, f.data.length⟩
    let s := { linked true with met := [(f.dst % 4096, 1, 9, 5)] }
    let m : Msg := { letter false false with sender := 9, objid := 5 }
    s.unmet (f.dst % 4096) p = false ∧ (∃ q ∈ s.met, q.1 = f.dst % 4096 ∧ poisonAbout p q.2.1 q.2.2.1 q.2.2.2 = true) ∧
    { s with inflight := [.messageArrival (f.dst % 4096) m .here] }.unmet (f.dst % 4096) p = true := by decide +kernel

/-- The answer to a page request of a context that is EVICTED. -/
theorem wit_page_evicted :
    let s := (faulting false).setCtx 1 { tenant with state := .evicted }
    s.pageReqs[1]? = some ⟨1, 8, 1, 5, 7, true, 3⟩ ∧ (s.ctxAt 1).state = .evicted ∧ ((faulting false).ctxAt 1).state ≠ .evicted := by
  decide +kernel

/-- A delta that its buffer of 0 bytes does not hold. -/
theorem wit_final_small : 0 < plainRoot.deltaLen 3 := by
  have h : (plainRoot.ctxAt 3).migration = none ∧ (plainRoot.ctxAt 3).saved = none := by decide +kernel
  unfold State.deltaLen State.imageLen
  simp [h]

/-- The lane 1.0 is the real number 1. -/
theorem wit_real_lane : ∃ x : ℝ, IsReal (fpOf 0x3F800000) x ∧ 0 < x := by
  have h : fpOf 0x3F800000 = .num false (2 ^ 23) (-23) := by decide +kernel
  exact ⟨1, ⟨false, 2 ^ 23, -23, h, by norm_num⟩, one_pos⟩

/-- A number with a mantissa of zero. -/
def isZero : Fp → Bool
  | .num _ 0 _ => true
  | _ => false

theorem isReal_zero : ∀ x : Fp, isZero x = true → IsReal x 0
  | .num n 0 e, _ => ⟨n, 0, e, rfl, by simp⟩

/-- A job of e4m3 elements whose operands hold zeros. -/
theorem wit_float_job :
    let s := matrices 0x111 [] (some (matrixJob 0x111))
    FloatPair (ctxA 0x111) (ctxB 0x111) ∧
    ∀ e < (matrixJob 0x111).k, IsReal ((elemAt s (matrixJob 0x111) (padAddr 0 1024) 1 2 0 e).mul
      (elemAt s (matrixJob 0x111) (padAddr 0 2048) 1 2 0 e)) 0 := by
  refine ⟨by unfold FloatPair; decide +kernel, fun e he => isReal_zero _ ?_⟩
  have all : ∀ e < 40, isZero ((elemAt (matrices 0x111 [] (some (matrixJob 0x111))) (matrixJob 0x111) (padAddr 0 1024) 1 2 0 e).mul
      (elemAt (matrices 0x111 [] (some (matrixJob 0x111))) (matrixJob 0x111) (padAddr 0 2048) 1 2 0 e)) = true := by decide +kernel
  exact all e he
end Sys2Proof.Tests
end

/-! Lemmas about special registers (R53, R54): the access check, what a read gives, what a write makes of the state. -/
namespace Sys2Proof.Machine
open Sys2Proof.Says

/-! ### Maps and updates of one core twice -/

@[simp] theorem put_put {α : Type} (m : List (Nat × α)) (k : Nat) (v w : α) : put (put m k v) k w = put m k w := by
  induction m with
  | nil => simp [put]
  | cons p m ih =>
    obtain ⟨i, x⟩ := p
    by_cases hlt : k < i
    · simp [put, hlt]
    · by_cases heq : k = i
      · simp [put, heq]
      · simp [put, hlt, heq, ih]

@[simp] theorem State.setCore_setCore (s : State) (n : Nat) (c d : Core) : (s.setCore n c).setCore n d = s.setCore n d := by
  simp [State.setCore]

@[simp] theorem Core.setFrame_setFrame (c : Core) (f : Nat) (fr gr : Frame) :
    (c.setFrame f fr).setFrame f gr = c.setFrame f gr := by
  simp [Core.setFrame]

/-! ### The access check (R54) -/

theorem srPattern_eq_word (sub : Nat) (r : BitVec 12) (d : BitVec 5) : srPattern sub r d =
    BitVec.ofNat 64 (word32 53 laySys [d.toNat, r.toNat % 2048, r.toNat / 2048, 0, sub]) := by
  simp only [srPattern, word32, laySys, join]
  congr 1
  omega

theorem srPattern_mfs (r : BitVec 12) (d : BitVec 5) : srPattern 2 r d = BitVec.ofNat 64 (encode (.mfs r d)) :=
  srPattern_eq_word 2 r d

theorem srPattern_mts (r : BitVec 12) (d : BitVec 5) : srPattern 3 r d = BitVec.ofNat 64 (encode (.mts r d)) :=
  srPattern_eq_word 3 r d

/-- A register of every frame, or of the supervisor in its frame, which is not written where it is read-only. -/
theorem srCheck_ok {f : Nat} {r : BitVec 12} (d : BitVec 5) {write : Bool} (hlisted : (srListed r || srSupervisor r) = true)
    (hframe : r.toNat < 0x100 ∨ f = 10) (hwrite : (write && srReadOnly r) = false) : srCheck f r d write = .ok () := by
  have hpriv : ¬ (0x100 ≤ r.toNat ∧ r.toNat ≤ 0x1FF ∧ f ≠ 10) := by omega
  simp [srCheck, hpriv, hwrite, hlisted]

theorem srCheck_priv {f : Nat} {r : BitVec 12} (d : BitVec 5) (write : Bool) (hr : 0x100 ≤ r.toNat ∧ r.toNat ≤ 0x1FF)
    (hf : f ≠ 10) : srCheck f r d write = .error (.trap PRIV 0) := by
  simp [srCheck, hr, hf]

theorem srCheck_readOnly {f : Nat} {r : BitVec 12} (d : BitVec 5) (hr : readOnlySr r) :
    srCheck f r d true = .error (.trap ILLEGAL (srPattern 3 r d)) := by
  have hlow : r.toNat < 0x100 := by unfold readOnlySr at hr; bv_omega
  have hro : srReadOnly r = true := by simpa [srReadOnly, readOnlySr] using hr
  have hpriv : ¬ (0x100 ≤ r.toNat ∧ r.toNat ≤ 0x1FF ∧ f ≠ 10) := by omega
  simp [srCheck, hpriv, hro]

theorem not_listed_of_unlistedSr {r : BitVec 12} (hr : unlistedSr r) :
    srListed r = false ∧ srSupervisor r = false ∧ srReadOnly r = false := by
  unfold unlistedSr at hr
  simp only [srListed, srSupervisor, srReadOnly, beq_eq_false_iff_ne, Bool.or_eq_false_iff, decide_eq_false_iff_not]
  bv_omega

theorem srCheck_unlisted {f : Nat} {r : BitVec 12} (d : BitVec 5) (write : Bool) (hr : unlistedSr r)
    (hf : f = 10 ∨ ¬ (0x100 ≤ r.toNat ∧ r.toNat ≤ 0x1FF)) :
    srCheck f r d write = .error (.trap ILLEGAL (srPattern (if write then 3 else 2) r d)) := by
  obtain ⟨hlisted, hsup, hro⟩ := not_listed_of_unlistedSr hr
  have hpriv : ¬ (0x100 ≤ r.toNat ∧ r.toNat ≤ 0x1FF ∧ f ≠ 10) := by omega
  simp [srCheck, hpriv, hlisted, hsup, hro]

/-! ### MFS and MTS behind their check -/

theorem exec_mfs_of_ok {s : State} {r : BitVec 12} {d : BitVec 5} (h : srCheck s.frame r d false = .ok ()) :
    exec (.mfs r d) s = .next (s.writeG d (s.srRead s.core s.frame r) 4) := by
  rw [exec_mfs, execMfs, h]; rfl

theorem exec_mfs_of_error {s : State} {r : BitVec 12} {d : BitVec 5} {e : Stop} (h : srCheck s.frame r d false = .error e) :
    exec (.mfs r d) s = s.finish (.error e) := by
  rw [exec_mfs, execMfs, h]; rfl

theorem exec_mts_of_ok {s : State} {r : BitVec 12} {d : BitVec 5} (h : srCheck s.frame r d true = .ok ())
    (hodd : r = 0x020 → (s.cur.gpr d).getLsbD 0 = false) :
    exec (.mts r d) s = .next ((s.srWrite s.core s.frame r (s.cur.gpr d)).skip 4) := by
  have hfupc : ¬ (r = 0x20 ∧ (s.cur.gpr d).getLsbD 0 = true) := fun ⟨hr, hbit⟩ => by rw [hodd hr] at hbit; cases hbit
  simp only [exec_mts, execMts, h, if_neg hfupc]
  rfl

theorem exec_mts_of_error {s : State} {r : BitVec 12} {d : BitVec 5} {e : Stop} (h : srCheck s.frame r d true = .error e) :
    exec (.mts r d) s = s.finish (.error e) := by
  rw [exec_mts, execMts, h]; rfl

/-- FUPC holds no odd address (R382). -/
theorem exec_mts_fupc_odd {s : State} {d : BitVec 5} (hodd : (s.cur.gpr d).getLsbD 0 = true) :
    exec (.mts 0x020 d) s = s.finish (.error (.trap ILLEGAL (s.cur.gpr d))) := by
  have h : srCheck s.frame 0x020 d true = .ok () := srCheck_ok d (by decide) (.inl (by decide)) (by decide)
  simp only [exec_mts, execMts, h, hodd, and_self, if_true]
  rfl

/-! ### What MFS reads (R53) -/

/-- The registers that every frame reads, VCTX aside. -/
def everyFrameSr : List (BitVec 12) :=
  [0x000, 0x001, 0x002, 0x003, 0x004, 0x010, 0x011, 0x012, 0x013, 0x014, 0x015, 0x016, 0x017, 0x020, 0x021]

/-- The registers of the supervisor frame. -/
def supervisorSr : List (BitVec 12) := [0x100, 0x101, 0x102, 0x103, 0x104, 0x105, 0x106, 0x107]

theorem readable_eq (s : State) : readable s = everyFrameSr.map (fun r => (r, s.srRead s.core s.frame r)) := rfl

theorem supervisorOnly_eq (s : State) : supervisorOnly s = supervisorSr.map (fun r => (r, s.srRead s.core s.frame r)) := rfl

/-- A special register reads back as MFS reads it. -/
theorem reads_iff {s : State} {r : BitVec 12} {v : Word} :
    Reads s r v ↔ r ∈ everyFrameSr ++ supervisorSr ∧ s.srRead s.core s.frame r = v := by
  rw [Reads, readable_eq, supervisorOnly_eq, ← List.map_append]
  simp only [List.mem_map, Prod.mk.injEq]
  exact ⟨fun ⟨q, hq, hr, hv⟩ => hr ▸ ⟨hq, hv⟩, fun ⟨hr, hv⟩ => ⟨r, hr, rfl, hv⟩⟩

theorem everyFrameSr_listed : ∀ r ∈ everyFrameSr, srListed r = true ∧ r.toNat < 0x100 := by decide

theorem supervisorSr_supervisor : ∀ r ∈ supervisorSr, srSupervisor r = true := by decide

theorem writesG_mfs {s : State} (hf : s.frame < 11) {r : BitVec 12} (d : BitVec 5)
    (hlisted : (srListed r || srSupervisor r) = true) (hframe : r.toNat < 0x100 ∨ s.frame = 10) :
    WritesG (.mfs r d) s d (s.srRead s.core s.frame r) 4 :=
  writesG_of hf (exec_mfs_of_ok (srCheck_ok d hlisted hframe rfl))

theorem isExuvia_iff (x : Context) (m : BitVec 24) (ver : BitVec 8) :
    x.isExuvia m ver = true ↔ (x.moduleAt m).exuvia = true ∧ ∃ w, (x.moduleAt m).other = some w ∧ w.ver = ver := by
  unfold Context.isExuvia
  cases hother : (x.moduleAt m).other with
  | none => simp [hother]
  | some w => simp [hother]

/-- The fields of VCTX (R140). -/
theorem vctx_fields (ver : BitVec 8) (m : BitVec 24) (exu cvt : Bool) (v : Word)
    (hv : v = BitVec.ofNat 64 (ver.toNat * 2 ^ 56 + m.toNat * 2 ^ 32 + 2 * bitOf exu + bitOf cvt)) :
    v.extractLsb' 56 8 = ver ∧ v.extractLsb' 32 24 = m ∧ v.getLsbD 0 = cvt ∧ v.extractLsb' 2 30 = 0 ∧
      v.getLsbD 1 = exu := by
  have hver := ver.isLt
  have hm := m.isLt
  have hexu : bitOf exu < 2 := by cases exu <;> decide
  have hcvt : bitOf cvt < 2 := by cases cvt <;> decide
  have hn : v.toNat = ver.toNat * 2 ^ 56 + m.toNat * 2 ^ 32 + 2 * bitOf exu + bitOf cvt := by
    rw [hv, BitVec.toNat_ofNat]; omega
  refine ⟨BitVec.eq_of_toNat_eq ?_, BitVec.eq_of_toNat_eq ?_, ?_, BitVec.eq_of_toNat_eq ?_, ?_⟩
  · rw [BitVec.extractLsb'_toNat, Nat.shiftRight_eq_div_pow, hn]; omega
  · rw [BitVec.extractLsb'_toNat, Nat.shiftRight_eq_div_pow, hn]; omega
  · have hbit : v.toNat % 2 = bitOf cvt := by omega
    rw [BitVec.getLsbD, Nat.testBit_zero, hbit]
    cases cvt <;> rfl
  · rw [BitVec.extractLsb'_toNat, Nat.shiftRight_eq_div_pow, hn]
    simp only [BitVec.ofNat_eq_ofNat, BitVec.toNat_ofNat]; omega
  · have hbit : v.toNat / 2 % 2 = bitOf exu := by omega
    rw [BitVec.getLsbD, Nat.testBit_succ, Nat.testBit_zero, hbit]
    cases exu <;> rfl

/-! ### What MTS writes (R382) -/

/-- The frame's registers after MTS of r. -/
def Frame.srWritten (fr : Frame) (r : BitVec 12) (v : Word) : Frame :=
  { fr with
    status  := if r = 0x000 then statusMts fr.status v else fr.status
    dlnext  := if r = 0x010 then v else fr.dlnext
    clprio  := if r = 0x011 then v &&& 0xFF else fr.clprio
    qrowlen := if r = 0x012 then v &&& 0x1FFFF else fr.qrowlen
    barrot  := if r = 0x013 then v &&& 7 else fr.barrot
    rstat   := if r = 0x014 then v &&& 0xFF else fr.rstat
    clstat  := if r = 0x015 then v &&& 3 else fr.clstat
    amoerr  := if r = 0x016 then v &&& 0xFFFFF0FFFFFFFFFF else fr.amoerr }

/-- The core's registers after MTS of r. -/
def Core.srWritten (c : Core) (r : BitVec 12) (v : Word) : Core :=
  { c with
    dslack  := if r = 0x017 then v &&& 0xFFFFFFFF else c.dslack
    fupc    := if r = 0x020 then v &&& 0xFFFFFFFFFFFFFF else c.fupc
    epc     := if r = 0x100 then v else c.epc
    ecause  := if r = 0x101 then v &&& 0xFF else c.ecause
    eval    := if r = 0x102 then v else c.eval
    sstatus := if r = 0x103 then (c.sstatus &&& ~~~3) ||| (v &&& 3) else c.sstatus
    uquota  := if r = 0x104 then v &&& 0xFFFFFFFFFF else c.uquota
    t1      := if r = 0x105 then v &&& 0xFFFFFFFF else c.t1
    t2      := if r = 0x106 then v &&& 0xFFFFFFFF else c.t2
    t3      := if r = 0x107 then v &&& 0xFFFFFFFF else c.t3 }

/-- The state after MTS of r: the current frame and its core have their registers written, and the frame goes on. -/
def State.srWritten (s : State) (r : BitVec 12) (v : Word) : State :=
  s.setCore s.core (((s.coreAt s.core).srWritten r v).setFrame s.frame ((s.cur.srWritten r v).advance 4))

/-- The registers of a frame that MTS writes, and those of a core. -/
def frameSr : List (BitVec 12) := [0x000, 0x010, 0x011, 0x012, 0x013, 0x014, 0x015, 0x016]
def coreSr : List (BitVec 12) := [0x017, 0x020, 0x100, 0x101, 0x102, 0x103, 0x104, 0x105, 0x106, 0x107]

theorem State.skip_setFrame (s : State) (hf : s.frame < 11) (fr : Frame) (n : Nat) :
    (s.setFrame s.core s.frame fr).skip n = s.setCore s.core ((s.coreAt s.core).setFrame s.frame (fr.advance n)) := by
  simp [State.skip, State.setCur, State.cur, State.setFrame, State.frameAt, hf]

theorem State.skip_setCore (s : State) (c : Core) (n : Nat) (hc : c.frameAt s.frame = s.cur) :
    (s.setCore s.core c).skip n = s.setCore s.core (c.setFrame s.frame (s.cur.advance n)) := by
  have hcur : (s.setCore s.core c).cur = s.cur := by simpa [State.cur, State.frameAt] using hc
  simp [State.skip, State.setCur, State.setFrame, hcur]

theorem srWrite_skip_frameSr (s : State) (hf : s.frame < 11) (v : Word) : ∀ r ∈ frameSr,
    (s.srWrite s.core s.frame r v).skip 4 = s.srWritten r v := by
  intro r hr
  fin_cases hr <;> exact State.skip_setFrame s hf _ 4

theorem srWrite_skip_coreSr (s : State) (v : Word) : ∀ r ∈ coreSr,
    (s.srWrite s.core s.frame r v).skip 4 = s.srWritten r v := by
  intro r hr
  fin_cases hr <;> exact State.skip_setCore s _ 4 rfl

theorem cur_srWritten (s : State) (hf : s.frame < 11) (r : BitVec 12) (v : Word) :
    (s.srWritten r v).cur = (s.cur.srWritten r v).advance 4 := by
  simp [State.srWritten, State.cur, State.frameAt, hf]

theorem coreAt_srWritten (s : State) (r : BitVec 12) (v : Word) : (s.srWritten r v).coreAt s.core =
    ((s.coreAt s.core).srWritten r v).setFrame s.frame ((s.cur.srWritten r v).advance 4) := by
  simp [State.srWritten]

/-- Every other special register reads as before. -/
theorem srRead_srWritten_ne (s : State) (hf : s.frame < 11) (v : Word) {r : BitVec 12} :
    ∀ q ∈ everyFrameSr ++ supervisorSr, q ≠ r →
      (s.srWritten r v).srRead s.core s.frame q = s.srRead s.core s.frame q := by
  intro q hq hne
  fin_cases hq <;> simp only [BitVec.ofNat_eq_ofNat, ne_comm (b := r)] at hne <;>
    simp [State.srRead, State.srWritten, State.coreid, hf, Core.srWritten, Frame.srWritten, hne, State.cur, State.frameAt]

/-- A register that MTS writes whole reads back without its reserved bits. -/
theorem srRead_srWritten_same (s : State) (hf : s.frame < 11) (v : Word) : ∀ p ∈ writable,
    (s.srWritten p.1 v).srRead s.core s.frame p.1 = v &&& p.2 := by
  have hall : v &&& 0xFFFFFFFFFFFFFFFF#64 = v := BitVec.and_allOnes
  intro p hp
  fin_cases hp <;> simp [State.srRead, coreAt_srWritten, hf, Core.srWritten, Frame.srWritten, hall]

/-- MTS of r leaves everything else as it was. -/
theorem onlySr_srWritten (s : State) (hf : s.frame < 11) (r : BitVec 12) (v : Word) : OnlySr r s (s.srWritten r v) where
  sr q w hne hread := by
    obtain ⟨hq, hw⟩ := reads_iff.1 hread
    exact reads_iff.2 ⟨hq, (srRead_srWritten_ne s hf v q hq hne).trans hw⟩
  rest := rfl
  cores n hn := State.coreAt_setCore_ne s _ hn
  frames f hn := by
    rw [State.frameAt, coreAt_srWritten]
    exact Core.frameAt_setFrame_ne _ _ hn
  frame := by rw [cur_srWritten s hf]; rfl
  core := by rw [coreAt_srWritten]; rfl
  bytes _ := rfl

theorem pcPast_srWritten (s : State) (hf : s.frame < 11) (r : BitVec 12) (v : Word) : PcPast 4 s (s.srWritten r v) :=
  pcPast_of s _ 4 (by rw [cur_srWritten s hf]; rfl)

/-- The low k bits written, the others kept. -/
theorem getLsbD_low_replaced (k : Nat) (old new : Word) (i : Nat) :
    ((old &&& ~~~BitVec.ofNat 64 (2 ^ k - 1)) ||| (new &&& BitVec.ofNat 64 (2 ^ k - 1))).getLsbD i =
      if i < k then new.getLsbD i else old.getLsbD i := by
  have hmask : (BitVec.ofNat 64 (2 ^ k - 1)).getLsbD i = (decide (i < 64) && decide (i < k)) := by
    rw [BitVec.getLsbD_ofNat, Nat.testBit_two_pow_sub_one]
  rw [BitVec.getLsbD_or, BitVec.getLsbD_and, BitVec.getLsbD_and, BitVec.getLsbD_not, hmask]
  by_cases hi : i < 64
  · by_cases hk : i < k <;> simp [hi, hk]
  · have hge : 64 ≤ i := by omega
    simp [hi, BitVec.getLsbD_of_ge _ i hge]

/-- OVD alone of STATUS (R84). -/
theorem statusMts_getLsbD (old new : Word) (i : Nat) :
    (statusMts old new).getLsbD i = if i < 1 then new.getLsbD i else old.getLsbD i :=
  getLsbD_low_replaced 1 old new i

theorem mtsSr_allowed : ∀ r ∈ frameSr ++ coreSr, (srListed r || srSupervisor r) = true ∧ (true && srReadOnly r) = false :=
  List.forall_mem_append.2 ⟨by decide, by decide⟩

/-- MTS of a register that it may write. -/
theorem exec_mts_srWritten {s : State} (hf : s.frame < 11) {r : BitVec 12} (d : BitVec 5) (hr : r ∈ frameSr ++ coreSr)
    (hframe : r.toNat < 0x100 ∨ s.frame = 10) (hodd : r = 0x020 → (s.cur.gpr d).getLsbD 0 = false) :
    exec (.mts r d) s = .next (s.srWritten r (s.cur.gpr d)) := by
  obtain ⟨hlisted, hro⟩ := mtsSr_allowed r hr
  rw [exec_mts_of_ok (srCheck_ok d hlisted hframe hro) hodd]
  rcases List.mem_append.1 hr with h | h
  · rw [srWrite_skip_frameSr s hf _ r h]
  · rw [srWrite_skip_coreSr s _ r h]

theorem writable_mtsSr : ∀ p ∈ writable, p.1 ∈ frameSr ++ coreSr := by simp [writable, frameSr, coreSr]

theorem writable_mfsSr : ∀ p ∈ writable, p.1 ∈ everyFrameSr ++ supervisorSr := by
  simp [writable, everyFrameSr, supervisorSr]

/-! ### Traps -/

/-- What trap entry leaves when the trap is the supervisor frame's own. -/
theorem enterTrap_taken_supervisor (s : State) (n : Nat) (cause : BitVec 8) (eval : Word) :
    TrapTaken n 10 cause eval s (s.enterTrap n 10 ⟨cause, eval, false, false, false⟩) := by
  obtain ⟨htframe, hkill, hskip⟩ := sstatus_fields 10 (by omega) false
  constructor <;> simp only [State.enterTrap, State.frameAt, State.coreAt_setCore_same]
  case ecause => rfl
  case tframe => exact htframe
  case kill => exact hkill
  case skip => exact hskip
  case ready => simp [Core.frameAt]
  case vector => simp [Core.frameAt]
  case bytes => exact fun _ => rfl
  case others => exact fun m hm => State.coreAt_setCore_ne _ _ hm

/-- Neither recording the trap nor giving up a SEND before it changes what trap entry leaves. -/
theorem trapped_enterTrap_supervisor (s : State) (n : Nat) (cause : BitVec 8) (eval : Word) {u : State}
    (hu : u = s ∨ u = s.dropSending n 10) : TrapTaken n 10 cause eval s
      ((u.setFrame n 10 ((u.frameAt n 10).trapped cause eval false)).enterTrap n 10 ⟨cause, eval, false, false, false⟩) := by
  have ht := enterTrap_taken_supervisor (u.setFrame n 10 ((u.frameAt n 10).trapped cause eval false)) n cause eval
  have hlink : linkValue (u.frameAt n 10).ver (u.frameAt n 10).modid (u.frameAt n 10).pc =
      linkValue (s.frameAt n 10).ver (s.frameAt n 10).modid (s.frameAt n 10).pc := by
    rcases hu with rfl | rfl
    · rfl
    · rw [State.dropSending_frameAt s n 10 (by omega)]
  have hothers : ∀ m, m ≠ n → u.coreAt m = s.coreAt m := by
    intro m hm
    rcases hu with rfl | rfl
    · rfl
    · exact State.dropSending_coreAt_ne s 10 hm
  exact { ht with
    epc := by
      rw [ht.epc, State.frameAt_setFrame_same _ n 10 _ (by omega)]
      exact hlink
    vector := ht.vector.trans (by rcases hu with rfl | rfl <;> rfl)
    bytes := fun a => (ht.bytes a).trans (by rcases hu with rfl | rfl <;> rfl)
    others := fun m hm => by rw [ht.others m hm, State.coreAt_setFrame_ne _ 10 _ hm, hothers m hm] }

/-- A trap of the supervisor frame is taken at once, whatever it was doing (log 15). -/
theorem raise_supervisor (s : State) (n : Nat) (cause : BitVec 8) (eval : Word) :
    TrapTaken n 10 cause eval s (s.raise n 10 cause eval) := by
  unfold State.raise
  split
  · exact trapped_enterTrap_supervisor s n cause eval (.inl rfl)
  · exact trapped_enterTrap_supervisor s n cause eval (.inr rfl)

/-- An instruction that ends in a trap which the supervisor frame takes at once, its own or another frame's. -/
theorem traps_of_free_or_supervisor {i : Instr} {s : State} {cause : BitVec 8} {eval : Word}
    (h : TrapsFree s.core s.frame s ∨ s.frame = 10) (he : exec i s = s.finish (.error (.trap cause eval))) :
    Traps i s cause eval := by
  rcases h with hfree | hsup
  · exact traps_of hfree he
  · refine ⟨_, he, ?_⟩
    rw [hsup]
    exact raise_supervisor s s.core cause eval

/-- MFS and MTS of a register that neither may name here. -/
theorem traps_unlistedSr {s : State} {r : BitVec 12} (d : BitVec 5) (h : TrapsFree s.core s.frame s ∨ s.frame = 10)
    (hr : unlistedSr r) (hframe : s.frame = 10 ∨ ¬ (0x100 ≤ r.toNat ∧ r.toNat ≤ 0x1FF)) :
    Traps (.mfs r d) s ILLEGAL (BitVec.ofNat 64 (encode (.mfs r d))) ∧
    Traps (.mts r d) s ILLEGAL (BitVec.ofNat 64 (encode (.mts r d))) := by
  rw [← srPattern_mfs, ← srPattern_mts]
  exact ⟨traps_of_free_or_supervisor h (exec_mfs_of_error (srCheck_unlisted d false hr hframe)),
    traps_of_free_or_supervisor h (exec_mts_of_error (srCheck_unlisted d true hr hframe))⟩

/-! ### The statements -/

theorem specialRegisterReads : SpecialRegisterReads := by
  intro s hf d
  refine ⟨?_, fun hsup => ⟨?_, ?_⟩, fun hsup => ?_⟩
  · rw [readable_eq, List.forall_mem_map]
    intro r hr
    obtain ⟨hlisted, hlow⟩ := everyFrameSr_listed r hr
    exact writesG_mfs hf d (by simp [hlisted]) (.inl hlow)
  · have hvctx : s.srRead s.core s.frame 0x005 = 0 := if_pos hsup
    exact hvctx ▸ writesG_mfs hf d (by decide) (.inl (by decide))
  · rw [supervisorOnly_eq, List.forall_mem_map]
    intro r hr
    exact writesG_mfs hf d (by simp [supervisorSr_supervisor r hr]) (.inr hsup)
  · obtain ⟨hver, hmodid, hcvt, hzero, hexu⟩ := vctx_fields s.cur.ver s.cur.modid
      ((s.ctxAt (s.ctxOf s.core)).isExuvia s.cur.modid s.cur.ver) s.cur.cvt (s.srRead s.core s.frame 0x005) (if_neg hsup)
    exact ⟨_, writesG_mfs hf d (by decide) (.inl (by decide)), hver, hmodid, hcvt, hzero, hexu ▸ isExuvia_iff _ _ _⟩

theorem specialRegisterWrites : SpecialRegisterWrites := by
  intro s hf d
  refine ⟨fun p hp hframe hodd => ?_, ?_, fun hsup => ?_⟩
  · exact ⟨_, exec_mts_srWritten hf d (writable_mtsSr p hp) hframe hodd, onlySr_srWritten s hf _ _,
      reads_iff.2 ⟨writable_mfsSr p hp, srRead_srWritten_same s hf _ p hp⟩, pcPast_srWritten s hf _ _⟩
  · have hstatus : ∀ i, (s.srWritten 0x000 (s.cur.gpr d)).cur.status.getLsbD i =
        if i < 1 then (s.cur.gpr d).getLsbD i else s.cur.status.getLsbD i := by
      intro i
      rw [cur_srWritten s hf]
      exact statusMts_getLsbD _ _ i
    refine ⟨_, exec_mts_srWritten hf d (by decide) (.inl (by decide)) (absurd · (by decide)), onlySr_srWritten s hf _ _,
      pcPast_srWritten s hf _ _, hstatus 0, fun i hi => ?_⟩
    rw [hstatus i, if_neg (by omega)]
  · refine ⟨_, exec_mts_srWritten hf d (by decide) (.inr hsup) (absurd · (by decide)), onlySr_srWritten s hf _ _,
      pcPast_srWritten s hf _ _, fun i => ?_⟩
    rw [coreAt_srWritten]
    exact getLsbD_low_replaced 2 _ _ i

theorem specialRegisterChecks : SpecialRegisterChecks := by
  intro s r d
  refine ⟨fun hfree => ⟨fun hr => ?_, fun hr hnot => traps_unlistedSr d (.inl hfree) hr (.inr hnot)⟩,
    fun h => ⟨fun hr => ?_, fun hodd => traps_of_free_or_supervisor h (exec_mts_fupc_odd hodd)⟩,
    fun hsup hr => traps_unlistedSr d (.inr hsup) hr (.inl hsup)⟩
  · have hf : s.frame ≠ 10 := by have := hfree.frame; omega
    exact ⟨traps_of hfree (exec_mfs_of_error (srCheck_priv d false hr hf)),
      traps_of hfree (exec_mts_of_error (srCheck_priv d true hr hf))⟩
  · rw [← srPattern_mts]
    exact traps_of_free_or_supervisor h (exec_mts_of_error (srCheck_readOnly d hr))

/-- Settles O6: what MFS reads, what MTS writes, and the order of what they refuse. -/
theorem specialRegisters : Obligations.SpecialRegisters :=
  ⟨specialRegisterReads, specialRegisterWrites, specialRegisterChecks⟩

end Sys2Proof.Machine

/-! Lemmas about replies (R76 to R78, R405): what REPLY sends, and what the slot and the frame behind a SEND make of what arrives. -/
namespace Sys2Proof.Machine
open Sys2Proof.Says

/-! ### Cores and contexts that an operation leaves -/

theorem State.coreAt_congr {s t : State} (h : t.cores = s.cores) (n : Nat) : t.coreAt n = s.coreAt n := by
  rw [State.coreAt, State.coreAt, h]

theorem State.frameAt_congr {s t : State} (h : t.cores = s.cores) (n f : Nat) : t.frameAt n f = s.frameAt n f :=
  congrArg (Core.frameAt · f) (State.coreAt_congr h n)

theorem State.ctxAt_congr {s t : State} (h : t.contexts = s.contexts) (k : Nat) : t.ctxAt k = s.ctxAt k := by
  rw [State.ctxAt, State.ctxAt, h]

@[simp] theorem State.meet_cores (s : State) (n kind src : Nat) (oid : BitVec 40) : (s.meet n kind src oid).cores = s.cores := by
  unfold State.meet
  simp only
  split <;> rfl

@[simp] theorem State.meet_contexts (s : State) (n kind src : Nat) (oid : BitVec 40) :
    (s.meet n kind src oid).contexts = s.contexts := by
  unfold State.meet
  simp only
  split <;> rfl

@[simp] theorem State.ctxAt_setCtx_same (s : State) (k : Nat) (x : Context) : (s.setCtx k x).ctxAt k = x := by
  simp [State.ctxAt, State.setCtx]

@[simp] theorem State.ctxOf_setCore (s : State) (n k : Nat) (c : Core) : (s.setCore n c).ctxOf k = s.ctxOf k := rfl

@[simp] theorem State.ctxAt_setCore (s : State) (n k : Nat) (c : Core) : (s.setCore n c).ctxAt k = s.ctxAt k := rfl

@[simp] theorem State.liveAt_setCore (s : State) (n : Nat) (c : Core) (x : Context) (oid : BitVec 40) :
    (s.setCore n c).liveAt x oid = s.liveAt x oid := rfl

@[simp] theorem State.setCur_setCur (s : State) (fr gr : Frame) : (s.setCur fr).setCur gr = s.setCur gr := by
  simp [State.setCur, State.setFrame]

/-! ### REPLY (R405) -/

/-- A release with no posted access and no buffered store of the frame waits for nothing (R125). -/
theorem State.release_ok {s : State} {n f : Nat} (sc : Nat) (drain : Bool) (hposted : (s.frameAt n f).posted = [])
    (hbuffer : s.buffered n f = false) : s.release n f sc drain = .ok () := by
  simp [State.release, Frame.acked, hposted, hbuffer]

/-- A reply to a core of this device gets under way inside it, where its slot is not a retired one (R76, R310). -/
theorem State.sendReply_here {s : State} {m : Msg} (n dtime st : Nat) (ws : List Word) (hlive : s.retiredMsg m .here = false)
    (hpos : m.sender.toNat / 4096 = s.pos) : s.sendReply n m .here dtime st ws =
      s.post (.replyArrival (m.sender.toNat % 4096) ⟨m.slot, m.slotseq, st, ws⟩) := by
  simp [State.sendReply, hlive, hpos]

/-- The words that REPLY sends. -/
def replyWords (fr : Frame) (n : BitVec 3) (g : BitVec 5) : List Word :=
  (List.range (n.toNat + 1)).map (fun i => fr.gpr (g + BitVec.ofNat 5 i))

theorem replyWords_length (fr : Frame) (n : BitVec 3) (g : BitVec 5) : (replyWords fr n g).length = n.toNat + 1 := by
  simp [replyWords]

theorem replyWords_getD (fr : Frame) {n : BitVec 3} (g : BitVec 5) {i : Nat} (hi : i ≤ n.toNat) :
    (replyWords fr n g).getD i 0 = fr.gpr (g + BitVec.ofNat 5 i) := by
  have hlt : i < n.toNat + 1 := by omega
  simp [replyWords, List.getD, hlt]

/-- REPLY through the unused token of the activation that the frame runs. -/
theorem exec_reply_token {s : State} {n : BitVec 3} {g : BitVec 5} {k : BitVec 4} {a : Activation} {e : QEntry}
    (hact : s.cur.act = some a) (hentry : a.entry = some e) (hused : a.used = false) (htag : (s.cur.cap k).tag = true)
    (hkind : (s.cur.cap k).kind = 3) (hsame : sameToken (s.cur.cap k) a.token = true)
    (hrelease : s.release s.core s.frame (s.replyScope s.core e) true = .ok ()) :
    exec (.reply n g k) s = .next
      (let t := (s.sendReply s.core e.msg e.origin a.dtime 0 (replyWords s.cur n g)).trackReply s.core s.frame e.origin
       (t.setCur { t.cur with act := some { a with used := true } }).skip 4) := by
  simp only [exec_reply, execReply, htag, hkind, hact, hentry, hused, hsame, hrelease]
  rfl

theorem exec_reply_untagged {s : State} {k : BitVec 4} (n : BitVec 3) (g : BitVec 5) (htag : (s.cur.cap k).tag = false) :
    exec (.reply n g k) s = s.finish (.error (.trap CAPTAG 0)) := by
  simp [execReply, htag]

theorem exec_reply_kind {s : State} {k : BitVec 4} (n : BitVec 3) (g : BitVec 5) (htag : (s.cur.cap k).tag = true)
    (hkind : (s.cur.cap k).kind ≠ 3) : exec (.reply n g k) s = s.finish (.error (.trap CAPKIND 0)) := by
  simp only [exec_reply, execReply, htag, if_pos hkind]
  rfl

/-- A token that is not the frame's own, or that has been used. -/
theorem exec_reply_badtoken {s : State} {k : BitVec 4} {a : Activation} (n : BitVec 3) (g : BitVec 5)
    (htag : (s.cur.cap k).tag = true) (hkind : (s.cur.cap k).kind = 3)
    (hbad : s.cur.act = none ∨ (s.cur.act = some a ∧ (a.entry = none ∨ a.used = true ∨ sameToken (s.cur.cap k) a.token = false))) :
    exec (.reply n g k) s = s.finish (.error (.trap BADTOKEN 0)) := by
  rcases hbad with hnone | ⟨hact, hnone | hrest⟩
  · simp [execReply, htag, hkind, hnone]
  · simp [execReply, htag, hkind, hact, hnone]
  · cases hentry : a.entry with
    | none => simp [execReply, htag, hkind, hact, hentry]
    | some e =>
      rcases hrest with hused | hother
      · simp [execReply, htag, hkind, hact, hentry, hused]
      · simp [execReply, htag, hkind, hact, hentry, hother]

theorem repliesLeave : RepliesLeave := by
  intro s hf n g k a e
  refine ⟨fun hact hentry hused htag hkind hsame hposted hbuffer horigin hlive hpos => ?_, fun hfree => ⟨fun htag => ?_,
    fun htag hkind => ?_, fun htag hkind hbad => ?_⟩⟩
  · have hrun := exec_reply_token (n := n) (g := g) hact hentry hused htag hkind hsame (State.release_ok _ true hposted hbuffer)
    rw [horigin, State.sendReply_here _ _ _ _ hlive hpos] at hrun
    set p := s.post (.replyArrival (e.msg.sender.toNat % 4096) ⟨e.msg.slot, e.msg.slotseq, 0, replyWords s.cur n g⟩)
    have hpf : p.frame < 11 := hf
    have hend : exec (.reply n g k) s = .next (p.setCur ({ s.cur with act := some { a with used := true } }.advance 4)) := by
      rw [hrun]
      simp only [State.trackReply, State.skip, State.cur_setCur p _ hpf, State.setCur_setCur]
      rfl
    have hcur := State.cur_setCur p ({ s.cur with act := some { a with used := true } }.advance 4) hpf
    refine ⟨_, replyWords s.cur n g, hend, rfl, replyWords_length _ _ _, fun i hi => replyWords_getD _ g hi, ?_,
      pcPast_of _ _ 4 ?_, ?_, elsewhere_setCur s _⟩
    · rw [hcur]; rfl
    · rw [hcur]; rfl
    · rw [hcur]; rfl
  · exact traps_of hfree (exec_reply_untagged n g htag)
  · exact traps_of hfree (exec_reply_kind n g htag hkind)
  · exact traps_of hfree (exec_reply_badtoken n g htag hkind hbad)

/-! ### What a frame takes of a reply (R77) -/

/-- The registers from gb on take words, one for each number of a list. -/
def Frame.setGprs (fr : Frame) (gb : BitVec 5) (ws : List Word) (l : List Nat) : Frame :=
  l.foldl (fun fr i => fr.setGpr (gb + BitVec.ofNat 5 i) (ws.getD i 0)) fr

theorem Frame.takeReply_eq (fr : Frame) (gb : BitVec 5) (n : BitVec 3) (st : Nat) (ws : List Word) : fr.takeReply gb n st ws =
    { fr.setGprs gb ws (List.range (n.toNat + 1)) with rstat := BitVec.ofNat 64 st }.advance 4 := rfl

theorem Frame.setGprs_others (gb : BitVec 5) (ws : List Word) (l : List Nat) (fr : Frame) :
    { fr.setGprs gb ws l with g := fr.g } = fr := by
  induction l generalizing fr with
  | nil => rfl
  | cons i l ih =>
    have hone : { fr.setGpr (gb + BitVec.ofNat 5 i) (ws.getD i 0) with g := fr.g } = fr := by
      unfold Frame.setGpr
      split <;> rfl
    exact (congrArg (fun x : Frame => { x with g := fr.g }) (ih (fr.setGpr (gb + BitVec.ofNat 5 i) (ws.getD i 0)))).trans hone

theorem Frame.gpr_setGprs_ne {gb r : BitVec 5} (ws : List Word) (l : List Nat) (fr : Frame)
    (h : ∀ i ∈ l, r ≠ gb + BitVec.ofNat 5 i) : (fr.setGprs gb ws l).gpr r = fr.gpr r := by
  induction l generalizing fr with
  | nil => rfl
  | cons i l ih =>
    rw [List.forall_mem_cons] at h
    exact (ih _ h.2).trans (Frame.gpr_setGpr_ne _ _ h.1)

theorem add_ofNat_ne (gb : BitVec 5) {i j : Nat} (hij : i < j) (hj : j < 32) : gb + BitVec.ofNat 5 i ≠ gb + BitVec.ofNat 5 j := by
  bv_omega

/-- The registers of a run of at most 32 are different ones, so that each keeps its word. -/
theorem Frame.gpr_setGprs_range {gb : BitVec 5} (ws : List Word) (fr : Frame) {i m : Nat} (hi : i < m) (hm : m ≤ 32)
    (hr : gb + BitVec.ofNat 5 i ≠ 0) : (fr.setGprs gb ws (List.range m)).gpr (gb + BitVec.ofNat 5 i) = ws.getD i 0 := by
  induction m with
  | zero => omega
  | succ m ih =>
    have hlast : fr.setGprs gb ws (List.range (m + 1)) =
        (fr.setGprs gb ws (List.range m)).setGpr (gb + BitVec.ofNat 5 m) (ws.getD m 0) := by
      simp [Frame.setGprs, List.range_succ]
    rw [hlast]
    rcases Nat.lt_succ_iff_lt_or_eq.1 hi with hlt | rfl
    · rw [Frame.gpr_setGpr_ne _ _ (add_ofNat_ne gb hlt (by omega)), ih hlt (by omega)]
    · rw [Frame.gpr_setGpr_same, if_neg hr]

/-! ### A reply at its slot (R76 to R78) -/

/-- A frame of a SEND as its reply leaves it (R69, R77). -/
def Frame.replied (fr : Frame) (now : Nat) (gb : BitVec 5) (n : BitVec 3) (st : Nat) (ws : List Word) : Frame :=
  { fr.takeReply gb n st ws with state := .ready, ready := now, park := none }

/-- A reply to a slot that its frame waits for: the slot is free, and the frame has the reply. -/
theorem coreAt_replyTo {s : State} {n i : Nat} {q : Slot} {g : BitVec 5} {k : BitVec 3} (st : Nat) (ws : List Word)
    (hq : look (s.coreAt n).slots i = some q) (hbusy : q.busy = true) (hdiscard : q.discard = false)
    (hpark : (s.frameAt n q.frame).park = some (.reply i g k)) (hsaved : (s.frameAt n q.frame).saved = none) :
    (s.replyTo n i q.seq st ws).coreAt n =
      ((s.coreAt n).dropSlot i q).setFrame q.frame ((s.frameAt n q.frame).replied s.ftime g k st ws) := by
  have hframe : (s.setCore n ((s.coreAt n).dropSlot i q)).frameAt n q.frame = s.frameAt n q.frame := by
    rw [State.frameAt, State.coreAt_setCore_same]; rfl
  have hstays : ((s.frameAt n q.frame).takeReply g k st ws).saved = none := by
    have hrest := congrArg Frame.saved (Frame.setGprs_others g ws (List.range (k.toNat + 1)) (s.frameAt n q.frame))
    exact hrest.trans hsaved
  simp [State.replyTo, hq, hbusy, hdiscard, hframe, hpark, State.wake, hstays, Frame.replied]

theorem exec_replyArrival_stale {s : State} {n i : Nat} {q : Slot} {j : BitVec 6} {seq : BitVec 16} (st : Nat) (ws : List Word)
    (hhome : s.keeper n = none) (hj : j.toNat = i) (hq : look (s.coreAt n).slots i = some q) (hseq : q.seq ≠ seq) :
    exec (.replyArrival n ⟨j, seq, st, ws⟩) s = .next s := by
  simp [execReplyArrival, State.onCore, hhome, hj, hq, hseq, State.replyTo]

/-- A reply with the slot's SLOTSEQ; the frame that has it may be told that it was poisoned (R221). -/
theorem exec_replyArrival_cores {s : State} {n i : Nat} {j : BitVec 6} (seq : BitVec 16) (st : Nat) (ws : List Word)
    (hhome : s.keeper n = none) (hj : j.toNat = i) :
    ∃ t, exec (.replyArrival n ⟨j, seq, st, ws⟩) s = .next t ∧ t.cores = (s.replyTo n i seq st ws).cores := by
  refine ⟨_, rfl, ?_⟩
  simp only [State.onCore, hhome, hj]
  split_ifs
  · exact State.meet_cores _ _ _ _ _
  · rfl

theorem exec_replySlotTimeout_due {s : State} {n i due : Nat} {q : Slot} (hhome : s.keeper n = none)
    (hq : look (s.coreAt n).slots i = some q) (hbusy : q.busy = true) (hdue : q.due = some due) (htime : due ≤ s.ftime) :
    exec (.replySlotTimeout n i) s = .next (s.replyTo n i q.seq 3 []) := by
  simp [execReplySlotTimeout, State.onCore, hhome, hq, hbusy, hdue, htime]

theorem repliesArrive : RepliesArrive := by
  rintro s n i f q g k seq st ws j hf hhome hj hq hbusy hdiscard rfl hpark hsaved
  refine ⟨exec_replyArrival_stale st ws hhome hj hq, fun x hx => ?_⟩
  have hrun : ∃ t, exec x s = .next t ∧ t.cores = (s.replyTo n i q.seq st ws).cores := by
    rcases hx with ⟨rfl, rfl⟩ | ⟨due, hdue, htime, rfl, rfl, rfl⟩
    · exact exec_replyArrival_cores q.seq st ws hhome hj
    · exact ⟨_, exec_replySlotTimeout_due hhome hq hbusy hdue htime, rfl⟩
  obtain ⟨t, hexec, hcores⟩ := hrun
  have hcore := (State.coreAt_congr hcores n).trans (coreAt_replyTo st ws hq hbusy hdiscard hpark hsaved)
  have hframe : t.frameAt n q.frame = (s.frameAt n q.frame).replied s.ftime g k st ws := by
    rw [State.frameAt, hcore, Core.frameAt_setFrame_same _ _ _ hf]
  have hpc := congrArg Frame.pc (Frame.setGprs_others g ws (List.range (k.toNat + 1)) (s.frameAt n q.frame))
  refine ⟨t, { q with busy := false, due := none }, hexec, ?_, rfl, ?_⟩
  · rw [hcore]
    exact look_put_same _ _ _
  rw [hframe]
  refine ⟨rfl, rfl, rfl, congrArg (· + 4) hpc, fun l hl hr => ?_, fun r hr => ?_, fun h hne => ?_⟩
  · exact Frame.gpr_setGprs_range ws _ (by omega) (by omega) hr
  · exact Frame.gpr_setGprs_ne ws _ _ (fun l hl => hr l (by have := List.mem_range.1 hl; omega))
  · rw [State.frameAt, hcore, Core.frameAt_setFrame_ne _ _ hne]
    rfl

/-- Settles O30: REPLY through the activation's token, and the reply, or its time out, at the slot behind a SEND. -/
theorem replies : Obligations.Replies := ⟨repliesLeave, repliesArrive⟩

end Sys2Proof.Machine

/-! Lemmas about dispatch (R80 to R84): the message that a queue serves next, the frame as its activation starts, and what dispatch
leaves of the queue, the locks and everything else. -/
namespace Sys2Proof.Machine
open Sys2Proof.Says

/-! ### The message that a queue serves next (R82) -/

/-- The rank by which a queue orders its messages: at equal keys by arrival, and the urgent queue by arrival alone. -/
def QEntry.rank (urgent : Bool) (slack : Word) (e : QEntry) : Nat ×ₗ Nat := toLex (if urgent then 0 else e.key slack, e.arrival)

theorem QEntry.before_iff (urgent : Bool) (slack : Word) (a b : QEntry) :
    a.before urgent slack b = true ↔ a.rank urgent slack < b.rank urgent slack := by
  cases urgent <;> simp [QEntry.before, QEntry.rank, Prod.Lex.toLex_lt_toLex]

theorem State.chosen_eq_argmin (s : State) (n : Nat) (urgent : Bool) : s.chosen n urgent =
    (((s.coreAt n).queue urgent).filter (s.eligible n)).argmin (QEntry.rank urgent (s.coreAt n).dslack) := by
  unfold State.chosen List.argmin
  refine congrArg (fun g => List.foldl g none (((s.coreAt n).queue urgent).filter (s.eligible n))) (funext fun m => funext fun e => ?_)
  cases m with
  | none => rfl
  | some b => simp only [List.argAux, QEntry.before_iff]

theorem State.chosen_mem {s : State} {n : Nat} {urgent : Bool} {e : QEntry} (h : s.chosen n urgent = some e) :
    e ∈ (s.coreAt n).queue urgent ∧ s.eligible n e = true := by
  rw [State.chosen_eq_argmin] at h
  exact List.mem_filter.1 (List.argmin_mem h)

theorem State.chosen_rank_le {s : State} {n : Nat} {urgent : Bool} {e x : QEntry} (h : s.chosen n urgent = some e)
    (hx : x ∈ (s.coreAt n).queue urgent) (hel : s.eligible n x = true) :
    e.rank urgent (s.coreAt n).dslack ≤ x.rank urgent (s.coreAt n).dslack := by
  rw [State.chosen_eq_argmin] at h
  exact List.le_of_mem_argmin (List.mem_filter.2 ⟨hx, hel⟩) h

theorem dueOf_eq (s : State) (n : Nat) (e : QEntry) : dueOf s n e = e.deadline (s.coreAt n).dslack := rfl

theorem keyOf_eq (s : State) (n : Nat) (e : QEntry) : keyOf s n e = e.key (s.coreAt n).dslack := rfl

theorem State.chosen_first {s : State} {n : Nat} {urgent : Bool} {e x : QEntry} (h : s.chosen n urgent = some e)
    (hx : x ∈ (s.coreAt n).queue urgent) (hel : s.eligible n x = true) :
    (urgent = true → e.arrival ≤ x.arrival) ∧
    (urgent = false → keyOf s n e < keyOf s n x ∨ (keyOf s n e = keyOf s n x ∧ e.arrival ≤ x.arrival)) := by
  have hle := State.chosen_rank_le h hx hel
  rw [keyOf_eq, keyOf_eq]
  cases urgent <;> simpa [QEntry.rank, Prod.Lex.toLex_le_toLex] using hle

/-- The lock of an eligible message's object is free (R81). -/
theorem State.eligible_unlocked {s : State} {n : Nat} {e : QEntry} (h : s.eligible n e = true) (hsl : e.msg.sl = false) :
    (s.ctxAt (s.ctxOf n)).lockOf e.msg.objid e.msg.stripe.toNat = none := by
  simp only [State.eligible, hsl, Bool.false_or, Bool.and_eq_true, Option.isNone_iff_eq_none] at h
  exact h.1.1

theorem Core.freeFrame_free {c : Core} {urgent : Bool} {f : Nat} (h : c.freeFrame urgent = some f) :
    (c.frameAt f).state = .free := by
  simpa using List.find?_some h

/-! ### A frame as an activation starts in it (R83, R84) -/

theorem Frame.gpr_start (old : Frame) (l : Launch) (now : Nat) (r : BitVec 5) :
    (old.start l now).gpr r = if r = 0 then 0 else (look l.gs r.toNat).getD 0 := by
  simp only [Frame.gpr, Frame.start, Frame.enter, Frame.setCap_g]
  by_cases hr : r = 0
  · simp [hr]
  · have hnat : r.toNat ≠ 0 := fun h => hr (BitVec.eq_of_toNat_eq h)
    rw [if_neg hr, if_neg hr, Vector.getElem_ofFn]
    exact if_neg hnat

theorem Frame.cap_enter_table (fr : Frame) (m : BitVec 24) (v : Version) (pc : BitVec 32) :
    (fr.enter m v pc).cap 3 = tableCap v := by
  simp [Frame.cap, Frame.enter]

theorem Frame.cap_enter_ne (fr : Frame) (m : BitVec 24) (v : Version) (pc : BitVec 32) {r : BitVec 4} (hr : r ≠ 3) :
    (fr.enter m v pc).cap r = fr.cap r := by
  have hne : 3 ≠ r.toNat := fun h => hr (BitVec.eq_of_toNat_eq h.symm)
  simp [Frame.cap, Frame.enter, Vector.getElem_set_ne, hne]

theorem Frame.cap_start_table (old : Frame) (l : Launch) (now : Nat) : (old.start l now).cap 3 = tableCap l.ver :=
  Frame.cap_enter_table _ _ _ _

theorem Frame.cap_start_two (old : Frame) (l : Launch) (now : Nat) : (old.start l now).cap 2 = l.c2 := by
  rw [Frame.start, Frame.cap_enter_ne _ _ _ _ (by decide), Frame.cap_setCap_same]
  rfl

theorem Frame.cap_start_one (old : Frame) (l : Launch) (now : Nat) : (old.start l now).cap 1 = l.c1 := by
  rw [Frame.start, Frame.cap_enter_ne _ _ _ _ (by decide), Frame.cap_setCap_ne _ _ (by decide), Frame.cap_setCap_same]
  rfl

theorem Frame.cap_start_rest (old : Frame) (l : Launch) (now : Nat) {r : BitVec 4} (hr : 3 < r.toNat) :
    (old.start l now).cap r = Cap.null := by
  rw [Frame.start, Frame.cap_enter_ne _ _ _ _ (by bv_omega), Frame.cap_setCap_ne _ _ (by bv_omega),
    Frame.cap_setCap_ne _ _ (by bv_omega)]
  simp [Frame.cap, Frame.clear]

theorem Frame.vreg_start (old : Frame) (l : Launch) (now : Nat) (r : BitVec 5) :
    (old.start l now).vreg r = Vector.replicate 32 0 := by
  simp [Frame.vreg, Frame.start, Frame.enter, Frame.clear]

theorem Frame.mask_start (old : Frame) (l : Launch) (now : Nat) {r : BitVec 3} (hr : r ≠ 0) : (old.start l now).mask r = 0 := by
  rw [Frame.mask, if_neg hr]
  simp [Frame.start, Frame.enter, Frame.clear]

/-- What a start gives a frame beside its registers. -/
theorem Frame.start_fields (old : Frame) (l : Launch) (now : Nat) : (old.start l now).state = .ready ∧
    (old.start l now).ready = now ∧ (old.start l now).pc = l.pc ∧ (old.start l now).modid = l.modid ∧
    (old.start l now).ver = l.ver.ver ∧ (old.start l now).cvt = l.cvt ∧ (old.start l now).status = l.status := by
  simp [Frame.start, Frame.enter]

/-! ### What a message's activation starts with (R83) -/

/-- The general registers that carry the message. -/
def messageRegs (m : Msg) : List (Nat × Word) :=
  (List.range 8).map (fun i => (i + 1, m.payload.getD i 0)) ++
    [(9, zext64 m.cls), (10, BitVec.ofNat 64 (m.sender.toNat + bitOf m.host * 2 ^ 22))]

/-- What c1 holds: the receiver, unless the message is stateless. -/
def receiverCap (m : Msg) (d : Option Desc) : Cap :=
  match d with
  | some o => if m.sl then Cap.null else selfCap o m.stripe.toNat
  | none => Cap.null

/-- The start of a message's activation in version v at the handler h. -/
def State.messageLaunch (s : State) (n : Nat) (urgent : Bool) (e : QEntry) (v : Version) (h : BitVec 32) (late : Bool) : Launch where
  modid  := e.msg.modid
  ver    := v
  pc     := h
  gs     := messageRegs e.msg
  c1     := receiverCap e.msg (s.liveAt (s.ctxAt (s.ctxOf n)) e.msg.objid)
  c2     := if e.msg.rq then tokenCap e.msg else Cap.null
  status := statusAt late urgent e.msg.sl e.msg.rq
  cvt    := false
  frec   := 0
  act    := ⟨.message, s.ctxOf n, some e, if e.msg.rq then tokenCap e.msg else Cap.null, e.used, s.ftime⟩

theorem look_none_of_keys_ne {α : Type} {m : List (Nat × α)} {k : Nat} (h : ∀ p ∈ m, p.1 ≠ k) : look m k = none := by
  induction m with
  | nil => rfl
  | cons p m ih =>
    rw [List.forall_mem_cons] at h
    rw [look, if_neg h.1, ih h.2]

theorem messageRegs_word (m : Msg) {i : Nat} (hi : i < 8) : look (messageRegs m) (i + 1) = some (m.payload.getD i 0) := by
  interval_cases i <;> rfl

theorem messageRegs_none (m : Msg) {k : Nat} (hk : 10 < k) : look (messageRegs m) k = none := by
  refine look_none_of_keys_ne (List.forall_mem_append.2 ⟨?_, ?_⟩)
  · rw [List.forall_mem_map]
    intro i hi
    have := List.mem_range.1 hi
    omega
  · simp only [List.forall_mem_cons]
    exact ⟨by omega, by omega, by simp⟩

theorem receiverCap_stateless {m : Msg} (d : Option Desc) (hsl : m.sl = true) : receiverCap m d = Cap.null := by
  cases d with
  | none => rfl
  | some o => exact if_pos hsl

theorem receiverCap_object {m : Msg} (o : Desc) (hsl : m.sl = false) : receiverCap m (some o) =
    ⟨true, 15, 1, o.oid, BitVec.ofNat 36 (if o.hmode = 2 then m.stripe.toNat * 65536 else 0),
      BitVec.ofNat 36 (if o.hmode = 2 then min 65536 (o.size - m.stripe.toNat * 65536) else o.size)⟩ := by
  rw [receiverCap, if_neg (by simp [hsl]), selfCap]
  by_cases hmode : o.hmode = 2 <;> simp [hmode, rightR, rightW, rightS, rightC]

theorem statusAt_toNat : ∀ late urgent sl rq : Bool, (statusAt late urgent sl rq).toNat =
    (if late then 1 else 0) + (if urgent then 2 else 0) + (if sl then 4 else 0) + (if rq then 8 else 0) := by decide

/-- A frame in which a message's activation starts is as R83 and R84 have it. -/
theorem dispatched_start (s : State) (n : Nat) (urgent : Bool) (e : QEntry) (v : Version) (h : BitVec 32) (late : Bool) (old : Frame) :
    Dispatched s e.msg (s.liveAt (s.ctxAt (s.ctxOf n)) e.msg.objid) v h late urgent
      (old.start (s.messageLaunch n urgent e v h late) s.ftime) := by
  obtain ⟨hstate, hready, hpc, hmodid, hver, hcvt, hstatus⟩ := Frame.start_fields old (s.messageLaunch n urgent e v h late) s.ftime
  constructor
  case state => exact ⟨hstate, hready, hpc, hmodid, hver, hcvt⟩
  case words =>
    intro i hi
    have hnat : (BitVec.ofNat 5 (i + 1)).toNat = i + 1 := by rw [BitVec.toNat_ofNat]; omega
    have hne : BitVec.ofNat 5 (i + 1) ≠ 0 := by bv_omega
    rw [Frame.gpr_start, if_neg hne, hnat, State.messageLaunch, messageRegs_word _ hi]
    rfl
  case g9 =>
    rw [Frame.gpr_start]
    rfl
  case g10 =>
    have hbit : bitOf e.msg.host * 2 ^ 22 = if e.msg.host then 2 ^ 22 else 0 := by cases e.msg.host <;> rfl
    rw [Frame.gpr_start, ← hbit]
    rfl
  case rest =>
    intro r hr
    have hne : r ≠ 0 := by bv_omega
    rw [Frame.gpr_start, if_neg hne, State.messageLaunch, messageRegs_none _ hr]
    rfl
  case c1 =>
    rw [Frame.cap_start_one, State.messageLaunch]
    generalize s.liveAt (s.ctxAt (s.ctxOf n)) e.msg.objid = d
    cases hsl : e.msg.sl with
    | true => exact receiverCap_stateless d hsl
    | false =>
      cases d with
      | none => rfl
      | some o => exact receiverCap_object o hsl
  case c2 =>
    rw [Frame.cap_start_two]
    exact ⟨fun hrq => by simp [State.messageLaunch, hrq, tokenCap], fun hrq => by simp [State.messageLaunch, hrq]⟩
  case c3 => exact Frame.cap_start_table _ _ _
  case caps => exact fun r hr => Frame.cap_start_rest _ _ _ hr
  case vecs => exact Frame.vreg_start _ _ _
  case masks => exact fun r hr => Frame.mask_start _ _ _ hr
  case status =>
    rw [hstatus]
    exact statusAt_toNat _ _ _ _

/-! ### Dispatch (R83) -/

@[simp] theorem Core.queue_setQueue_same (c : Core) (urgent : Bool) (q : List QEntry) : (c.setQueue urgent q).queue urgent = q := by
  cases urgent <;> rfl

@[simp] theorem Core.frameAt_setQueue (c : Core) (urgent : Bool) (q : List QEntry) (f : Nat) :
    (c.setQueue urgent q).frameAt f = c.frameAt f := by
  cases urgent <;> rfl

/-- What a ring or another device is told of a message that runs touches no core and no context (R298). -/
theorem State.runsFrom_keeps (s : State) (n : Nat) (e : QEntry) :
    (s.runsFrom n e).cores = s.cores ∧ (s.runsFrom n e).contexts = s.contexts := by
  unfold State.runsFrom
  cases horigin : e.origin with
  | here => exact ⟨rfl, rfl⟩
  | handler => exact ⟨rfl, rfl⟩
  | pod p pos => exact ⟨rfl, rfl⟩
  | device p => simp [State.stageOf, State.ticketStage, horigin]
  | ring vf ring t =>
    simp only [State.stageOf, State.ticketStage, horigin]
    split_ifs <;> exact ⟨rfl, rfl⟩

/-- A core whose queue has given up an entry. -/
def Core.dequeued (c : Core) (urgent : Bool) (e : QEntry) : Core :=
  c.setQueue urgent ((c.queue urgent).filter (fun x => decide (x.serial ≠ e.serial)))

/-- The lock of a message's object is the dispatching frame's, unless the message is stateless (R81). -/
def State.lockedFor (s : State) (n f : Nat) (m : Msg) : State :=
  if m.sl then s
  else s.setCtx (s.ctxOf n) { s.ctxAt (s.ctxOf n) with
    locks := (s.ctxAt (s.ctxOf n)).locks ++ [⟨m.objid, m.stripe.toNat, n, f, none⟩] }

@[simp] theorem State.lockedFor_cores (s : State) (n f : Nat) (m : Msg) : (s.lockedFor n f m).cores = s.cores := by
  unfold State.lockedFor
  split <;> rfl

@[simp] theorem State.lockedFor_ftime (s : State) (n f : Nat) (m : Msg) : (s.lockedFor n f m).ftime = s.ftime := by
  unfold State.lockedFor
  split <;> rfl

/-- A message that waits at core n can run at the handler h of version v, past its deadline or not (R82, R83). -/
structure State.Runs (s : State) (n : Nat) (e : QEntry) (v : Version) (h : BitVec 32) (late : Bool) : Prop where
  imago   : (s.ctxAt (s.ctxOf n)).imago e.msg.modid = some v
  object  : e.msg.sl = true ∨ s.liveAt (s.ctxAt (s.ctxOf n)) e.msg.objid ≠ none
  timing  : decide (e.deadline (s.coreAt n).dslack < s.ftime) = late
  handler : handlerOf v e.msg late = h
  listed  : h ≠ 0xFFFFFFFF

/-- A message that can run starts in the frame, with the lock of its object. -/
theorem State.dispatchTo_runs {s : State} {n : Nat} {e : QEntry} {v : Version} {h : BitVec 32} {late : Bool} (f : Nat)
    (urgent : Bool) (hr : s.Runs n e v h late) :
    s.dispatchTo n f urgent e = (((s.setCore n ((s.coreAt n).dequeued urgent e)).lockedFor n f e.msg).launch n f
      (s.messageLaunch n urgent e v h late)).runsFrom n e := by
  obtain ⟨himago, hobj, rfl, rfl, hne⟩ := hr
  set u := s.setCore n ((s.coreAt n).dequeued urgent e) with hu
  have himago' : (u.ctxAt (u.ctxOf n)).imago e.msg.modid = some v := himago
  have hthere : (!e.msg.sl && (u.liveAt (u.ctxAt (u.ctxOf n)) e.msg.objid).isNone) = false := by
    rcases hobj with hsl | hlive
    · simp [hsl]
    · simp [hu, Option.isSome_iff_ne_none.2 hlive]
  have hrun : handlerOf v e.msg (decide (e.deadline (s.coreAt n).dslack < u.ftime)) ≠ 0xFFFFFFFF := hne
  unfold Core.dequeued at hu
  simp only [State.dispatchTo, ← hu, himago', hthere, hrun, Bool.false_eq_true, if_false]
  have htime : (u.lockedFor n f e.msg).ftime = u.ftime := State.lockedFor_ftime u n f e.msg
  unfold State.lockedFor at htime ⊢
  rw [htime]
  rfl

theorem State.dispatchTo_unrun {s : State} {n : Nat} {e : QEntry} (f : Nat) (urgent : Bool)
    (himago : (s.ctxAt (s.ctxOf n)).imago e.msg.modid = none) :
    s.dispatchTo n f urgent e = (s.setCore n ((s.coreAt n).dequeued urgent e)).endUnrun n e 4 := by
  simp only [State.dispatchTo, State.ctxOf_setCore, State.ctxAt_setCore, himago]
  rfl

/-- A message of a sender on this device that ends unrun and wants a reply is answered, and nothing else happens (R78, R83). -/
theorem State.endUnrun_here {s : State} {e : QEntry} (n st : Nat) (horigin : e.origin = .here) (hused : e.used = false)
    (hrq : e.msg.rq = true) (hlive : s.retiredMsg e.msg .here = false) (hpos : e.msg.sender.toNat / 4096 = s.pos) :
    s.endUnrun n e st = s.post (.replyArrival (e.msg.sender.toNat % 4096) ⟨e.msg.slot, e.msg.slotseq, st, []⟩) := by
  simp [State.endUnrun, State.answerUnrun, State.stageOf, State.ticketStage, horigin, hused, hrq,
    State.sendReply_here n 0 st [] hlive hpos]

/-- The event of a dispatch; a core may be told of a poisoned message (R221). -/
theorem exec_dispatch_to {s : State} {n f : Nat} {urgent : Bool} {e : QEntry} (hmay : s.mayDispatch n urgent = true)
    (hfree : (s.coreAt n).freeFrame urgent = some f) (hchosen : s.chosen n urgent = some e) :
    exec (.dispatch n urgent) s = .next
      (if ((s.dispatchTo n f urgent e).frameAt n f).state = .free then s.dispatchTo n f urgent e
        else (s.dispatchTo n f urgent e).meet n 1 e.msg.sender.toNat e.msg.objid) := by
  simp [execDispatch, hmay, hfree, hchosen]

theorem exec_dispatch_keeps {s : State} {n f : Nat} {urgent : Bool} {e : QEntry} (hmay : s.mayDispatch n urgent = true)
    (hfree : (s.coreAt n).freeFrame urgent = some f) (hchosen : s.chosen n urgent = some e) :
    ∃ t, exec (.dispatch n urgent) s = .next t ∧ t.cores = (s.dispatchTo n f urgent e).cores ∧
      t.contexts = (s.dispatchTo n f urgent e).contexts := by
  refine ⟨_, exec_dispatch_to hmay hfree hchosen, ?_⟩
  split <;> simp

/-- The core behind a dispatch: the entry has left its queue, and the activation has started in the frame. -/
theorem State.coreAt_dispatchTo {s : State} {n : Nat} {e : QEntry} {v : Version} {h : BitVec 32} {late : Bool} (f : Nat)
    (urgent : Bool) (hr : s.Runs n e v h late) : (s.dispatchTo n f urgent e).coreAt n =
      ((s.coreAt n).dequeued urgent e).setFrame f ((s.frameAt n f).start (s.messageLaunch n urgent e v h late) s.ftime) := by
  have hcore : ((s.setCore n ((s.coreAt n).dequeued urgent e)).lockedFor n f e.msg).coreAt n = (s.coreAt n).dequeued urgent e := by
    rw [State.coreAt_congr (State.lockedFor_cores _ n f e.msg), State.coreAt_setCore_same]
  have hframe : ((s.coreAt n).dequeued urgent e).frameAt f = s.frameAt n f := Core.frameAt_setQueue _ _ _ _
  rw [State.dispatchTo_runs f urgent hr, State.coreAt_congr (State.runsFrom_keeps _ n e).1, State.launch, State.coreAt_setFrame_same,
    State.frameAt, hcore, hframe, State.lockedFor_ftime]
  rfl

theorem State.coreAt_dispatchTo_ne {s : State} {n k : Nat} {e : QEntry} {v : Version} {h : BitVec 32} {late : Bool} (f : Nat)
    (urgent : Bool) (hr : s.Runs n e v h late) (hk : k ≠ n) : (s.dispatchTo n f urgent e).coreAt k = s.coreAt k := by
  rw [State.dispatchTo_runs f urgent hr, State.coreAt_congr (State.runsFrom_keeps _ n e).1, State.launch,
    State.coreAt_setFrame_ne _ _ _ hk, State.coreAt_congr (State.lockedFor_cores _ n f e.msg), State.coreAt_setCore_ne _ _ hk]

/-- A lock that was free is the dispatching frame's. -/
theorem State.lockOf_lockedFor {s : State} {n : Nat} {m : Msg} (f : Nat) (hsl : m.sl = false)
    (hfree : (s.ctxAt (s.ctxOf n)).lockOf m.objid m.stripe.toNat = none) :
    ((s.lockedFor n f m).ctxAt (s.ctxOf n)).lockOf m.objid m.stripe.toNat = some ⟨m.objid, m.stripe.toNat, n, f, none⟩ := by
  rw [Context.lockOf] at hfree
  rw [State.lockedFor, if_neg (by simp [hsl]), State.ctxAt_setCtx_same, Context.lockOf, List.find?_append, hfree]
  simp

theorem State.lockOf_dispatchTo {s : State} {n : Nat} {e : QEntry} {v : Version} {h : BitVec 32} {late : Bool} (f : Nat)
    (urgent : Bool) (hr : s.Runs n e v h late) (hsl : e.msg.sl = false)
    (hfree : (s.ctxAt (s.ctxOf n)).lockOf e.msg.objid e.msg.stripe.toNat = none) :
    ((s.dispatchTo n f urgent e).ctxAt (s.ctxOf n)).lockOf e.msg.objid e.msg.stripe.toNat =
      some ⟨e.msg.objid, e.msg.stripe.toNat, n, f, none⟩ := by
  rw [State.dispatchTo_runs f urgent hr, State.ctxAt_congr (State.runsFrom_keeps _ n e).2]
  exact State.lockOf_lockedFor (s := s.setCore n ((s.coreAt n).dequeued urgent e)) f hsl hfree

theorem Core.mem_queue_dequeued (c : Core) (urgent : Bool) (e x : QEntry) :
    x ∈ (c.dequeued urgent e).queue urgent ↔ x ∈ c.queue urgent ∧ x.serial ≠ e.serial := by
  simp [Core.dequeued]

/-- Settles O26: the message that a queue serves next, the activation that starts, and the answer to a message without an imago. -/
theorem messageDispatch : Obligations.MessageDispatch := by
  intro s n f urgent e hf hmay hfree hchosen
  obtain ⟨hmem, hel⟩ := State.chosen_mem hchosen
  refine ⟨⟨hmem, hel, fun x hx hxel => State.chosen_first hchosen hx hxel⟩, fun v h late himago hobj hlate hh hne => ?_,
    fun himago horigin hused hrq hlive hpos => ?_⟩
  · have hr : s.Runs n e v h late := ⟨himago, hobj, by rw [Bool.eq_iff_iff, decide_eq_true_iff, hlate, dueOf_eq], hh.symm, hne⟩
    obtain ⟨t, hexec, hcores, hctx⟩ := exec_dispatch_keeps hmay hfree hchosen
    have hcore := (State.coreAt_congr hcores n).trans (State.coreAt_dispatchTo f urgent hr)
    refine ⟨t, hexec, ?_, fun x => ?_, fun hsl => ?_, fun k hk => ?_⟩
    · rw [State.frameAt, hcore, Core.frameAt_setFrame_same _ _ _ hf]
      exact dispatched_start s n urgent e v h late _
    · rw [hcore]
      exact Core.mem_queue_dequeued _ urgent e x
    · rw [State.ctxAt_congr hctx]
      exact State.lockOf_dispatchTo f urgent hr hsl (State.eligible_unlocked hel hsl)
    · rw [State.coreAt_congr hcores, State.coreAt_dispatchTo_ne f urgent hr hk]
  · have hend := (State.dispatchTo_unrun f urgent himago).trans (State.endUnrun_here n 4 horigin hused hrq hlive hpos)
    have hframe : (s.dispatchTo n f urgent e).frameAt n f = s.frameAt n f := by
      rw [hend, State.frameAt_congr (State.post_cores _ _), State.frameAt, State.coreAt_setCore_same]
      exact Core.frameAt_setQueue _ _ _ _
    have hstill : ((s.dispatchTo n f urgent e).frameAt n f).state = .free := by
      rw [hframe]
      exact Core.freeFrame_free hfree
    refine ⟨_, (exec_dispatch_to hmay hfree hchosen).trans (by rw [if_pos hstill]), hframe, ?_⟩
    rw [hend]
    rfl

end Sys2Proof.Machine

/-! Lemmas about the integer operations (R170): the result of each operation at width n as an equation between numbers, and how an
instruction's result at 64 and 32 bits follows from its operation's at every width. -/
namespace Sys2Proof.Machine
open Sys2Proof.Says

/-! ### Results at width n -/

theorem toInt_eq_zero_iff {n : Nat} (b : BitVec n) : b.toInt = 0 ↔ b = 0 := by
  rw [← BitVec.toInt_zero, BitVec.toInt_inj]; rfl

theorem toNat_eq_zero_iff {n : Nat} (b : BitVec n) : b.toNat = 0 ↔ b = 0 := by
  rw [← BitVec.toNat_inj]; simp

theorem isAdd_add {n : Nat} (a b : BitVec n) : IsAdd n a b (a + b) := BitVec.toNat_add a b

theorem isSub_sub {n : Nat} (a b : BitVec n) : IsSub n a b (a - b) := by
  have hb := b.isLt
  rw [IsSub, BitVec.toNat_sub]
  congr 1
  omega

theorem isMul_opMul {n : Nat} (a b : BitVec n) : IsMul n a b (opMul a b) := BitVec.toNat_mul a b

/-- The high half of the exact signed product is in range: the product is at most 2^(2n - 2) either way. -/
theorem isMulh_opMulh {n : Nat} (hn : 0 < n) (a b : BitVec n) : IsMulh n a b (opMulh a b) := by
  have hle : a.toInt * b.toInt ≤ 2 ^ (n * 2 - 2) := BitVec.toInt_mul_toInt_le
  have hge : -2 ^ (n * 2 - 2) ≤ a.toInt * b.toInt := BitVec.le_toInt_mul_toInt
  have hlt : (2 : Int) ^ (n * 2 - 2) < 2 ^ (n - 1) * 2 ^ n := by
    rw [← pow_add]
    exact pow_lt_pow_right₀ (by decide) (by omega)
  have hpos : (0 : Int) < 2 ^ n := by positivity
  refine BitVec.toInt_ofInt_eq_self hn ((Int.le_ediv_iff_mul_le hpos).2 ?_) ((Int.ediv_lt_iff_lt_mul hpos).2 (by omega))
  rw [neg_mul]
  omega

theorem isMulhn_opMulhn {n : Nat} (a b : BitVec n) : IsMulhn n a b (opMulhn a b) := by
  refine (BitVec.toNat_ofNat _ _).trans (Nat.mod_eq_of_lt ?_)
  exact Nat.div_lt_of_lt_mul (Nat.mul_lt_mul'' a.isLt b.isLt)

/-- Division by any divisor but zero is the library's signed division, which wraps in the one case of an overflow. -/
theorem opDiv_eq_sdiv {n : Nat} (a : BitVec n) {b : BitVec n} (hb : b ≠ 0) : opDiv a b = a.sdiv b := by
  rw [opDiv, if_neg hb]
  exact BitVec.eq_of_toInt_eq ((BitVec.toInt_ofInt _).trans (BitVec.toInt_sdiv a b).symm)

theorem isDiv_opDiv {n : Nat} (hn : 0 < n) (a b : BitVec n) : IsDiv n a b (opDiv a b) := by
  refine ⟨fun hb => .inl ?_, fun hb => ?_⟩
  · rw [opDiv, if_pos ((toInt_eq_zero_iff b).1 hb), BitVec.toInt_allOnes, if_pos hn]
  · rw [opDiv_eq_sdiv a (mt (toInt_eq_zero_iff b).2 hb)]
    have hmin : (BitVec.intMin n).toInt = -2 ^ (n - 1) := BitVec.toInt_intMin_of_pos hn
    have hone : (-1#n : BitVec n).toInt = -1 := by
      rw [BitVec.neg_one_eq_allOnes, BitVec.toInt_allOnes, if_pos hn]
    rw [← hmin, ← hone, BitVec.toInt_inj, BitVec.toInt_inj]
    refine ⟨?_, fun hover => BitVec.toInt_sdiv_of_ne_or_ne a b (not_and_or.1 hover)⟩
    rintro ⟨rfl, rfl⟩
    rw [BitVec.intMin_sdiv_neg_one]

/-- The remainder is smaller than the divisor, so it is the library's signed remainder. -/
theorem opRem_eq_srem {n : Nat} (a : BitVec n) {b : BitVec n} (hb : b ≠ 0) : opRem a b = a.srem b := by
  rw [opRem, if_neg hb, ← BitVec.toInt_srem, BitVec.ofInt_toInt]

theorem isRem_opRem {n : Nat} (a b : BitVec n) : IsRem n a b (opRem a b) := by
  refine ⟨fun hb => ?_, fun hb => ?_⟩
  · rw [opRem, if_pos ((toInt_eq_zero_iff b).1 hb)]
  · rw [opRem_eq_srem a (mt (toInt_eq_zero_iff b).2 hb), BitVec.toInt_srem, Int.tmod_def]

theorem isDivn_opDivn {n : Nat} (a b : BitVec n) : IsDivn n a b (opDivn a b) := by
  refine ⟨fun hb => ?_, fun hb => ?_⟩
  · rw [opDivn, if_pos ((toNat_eq_zero_iff b).1 hb), BitVec.toNat_allOnes]
  · rw [opDivn, if_neg (mt (toNat_eq_zero_iff b).2 hb), BitVec.toNat_udiv]

theorem isRemn_opRemn {n : Nat} (a b : BitVec n) : IsRemn n a b (opRemn a b) := by
  refine ⟨fun hb => ?_, fun hb => ?_⟩
  · rw [opRemn, if_pos ((toNat_eq_zero_iff b).1 hb)]
  · rw [opRemn, if_neg (mt (toNat_eq_zero_iff b).2 hb), BitVec.toNat_umod, Nat.mod_eq_sub_mul_div]

theorem isShl_opShl {n : Nat} (a b : BitVec n) : IsShl n a b (opShl a b) := by
  rw [IsShl, opShl, BitVec.toNat_shiftLeft, Nat.shiftLeft_eq]

theorem isShr_opShr {n : Nat} (a b : BitVec n) : IsShr n a b (opShr a b) := by
  rw [IsShr, opShr, BitVec.toNat_ushiftRight, Nat.shiftRight_eq_div_pow]

theorem isShra_opShra {n : Nat} (a b : BitVec n) : IsShra n a b (opShra a b) := by
  rw [IsShra, opShra, BitVec.toInt_sshiftRight, Int.shiftRight_eq_div_pow]
  norm_cast

/-- Bits below the top `b mod n` come from higher up; the others wrap around. -/
theorem isRot_opRot {n : Nat} (a b : BitVec n) : IsRot n a b (opRot a b) := by
  intro i hi
  have hr : b.toNat % n < n := Nat.mod_lt _ (by omega)
  rw [opRot, BitVec.getLsbD_rotateRight, Nat.mod_mod, ← Nat.add_mod_mod]
  by_cases hlow : i < n - b.toNat % n
  · rw [Nat.mod_eq_of_lt (a := i + _) (by omega)]
    simp [hlow, Nat.add_comm]
  · have hwrap : (i + b.toNat % n) % n = i - (n - b.toNat % n) := by
      rw [Nat.mod_eq_sub_mod (by omega), Nat.mod_eq_of_lt (by omega)]
      omega
    simp [hlow, hi, hwrap]

/-! ### Results of instructions -/

/-- The one value whose signed number is the immediate's. -/
theorem imm12_of_isSext {i : BitVec 12} {k : Word} (h : IsSext i k) : k = imm12 i :=
  BitVec.eq_of_toInt_eq (h.trans (BitVec.toInt_signExtend_of_le (by decide)).symm)

/-- An instruction that ends by writing the result at a width, when the operation meets its relation at both widths. -/
theorem intResult_of {i : Instr} {s : State} {w : BitVec 1} {rel : IntRel} {x y : Word} {d : BitVec 5}
    {f : {n : Nat} → BitVec n → BitVec n → BitVec n} (h : s.frame < 11) (hrel : ∀ {n}, 0 < n → ∀ a b, rel n a b (f a b))
    (he : exec i s = .next (s.writeG d (atWidth w f f x y) 4)) : IntResult i s w rel x y d := by
  refine ⟨_, fun hw => ?_, fun hw => ?_, writesG_of h he⟩
  · subst hw
    exact hrel (by decide) x y
  · subst hw
    exact ⟨_, hrel (by decide) _ _, rfl⟩

/-- Settles O1: each instruction is its operation at a width, and each operation meets its relation at every width. -/
theorem integerArithmetic : Obligations.IntegerArithmetic := by
  intro s hs w b a d m i k hk
  obtain rfl := imm12_of_isSext hk
  exact ⟨
    intResult_of hs (fun _ => isAdd_add) rfl,
    intResult_of hs (fun _ => isSub_sub) rfl,
    intResult_of hs (fun _ => isMul_opMul) rfl,
    intResult_of hs isMulh_opMulh rfl,
    intResult_of hs (fun _ => isMulhn_opMulhn) rfl,
    intResult_of hs isDiv_opDiv rfl,
    intResult_of hs (fun _ => isRem_opRem) rfl,
    intResult_of hs (fun _ => isDivn_opDivn) rfl,
    intResult_of hs (fun _ => isRemn_opRemn) rfl,
    intResult_of hs (fun _ => isShl_opShl) rfl,
    intResult_of hs (fun _ => isShr_opShr) rfl,
    intResult_of hs (fun _ => isShra_opShra) rfl,
    intResult_of hs (fun _ => isRot_opRot) rfl,
    intResult_of hs (fun _ => isAdd_add) rfl,
    intResult_of hs (fun _ => isShl_opShl) rfl,
    intResult_of hs (fun _ => isShr_opShr) rfl,
    intResult_of hs (fun _ => isShra_opShra) rfl,
    intResult_of hs (fun _ => isRot_opRot) rfl⟩

end Sys2Proof.Machine

/-! Lemmas about the capability operations (R350, R351): the check that a capability may be narrowed, the results of narrowing as
numbers, and the fields that CGET reads. -/
namespace Sys2Proof.Machine
open Sys2Proof.Says

/-! ### RequireNarrowable (R350) -/

theorem narrowable_untagged {x : Cap} (kinds : List Nat) (ht : x.tag = false) :
    narrowable x kinds = .error (.trap CAPTAG 0) := if_pos ht

/-- The model lists the kinds as numbers, the statement as bytes. -/
theorem narrowable_tagged {x : Cap} (kinds : List (BitVec 8)) (ht : x.tag = true) :
    narrowable x (kinds.map BitVec.toNat) = if x.kind ∈ kinds then .ok () else .error (.trap CAPKIND 0) := by
  have hkind : (kinds.map BitVec.toNat).contains x.kind.toNat = decide (x.kind ∈ kinds) := by
    rw [List.contains_eq_mem, decide_eq_decide]
    exact List.mem_map_of_injective fun _ _ => BitVec.eq_of_toNat_eq
  rw [narrowable, if_neg (by simp [ht]), hkind]
  by_cases hk : x.kind ∈ kinds <;> simp [hk]

/-- An instruction that makes the check of R350 and then ends as rest, which writes the narrowed capability where it fits. -/
theorem narrows_of {i : Instr} {s : State} {x y : Cap} {kinds : List (BitVec 8)} {fits : Prop} {d : BitVec 4} {rest : Res State}
    (hs : s.frame < 11) (he : exec i s = s.finish (do narrowable x (kinds.map BitVec.toNat); rest))
    (hrest : fits → rest = .ok (s.writeC d y 4)) : Narrows i s x kinds fits d y := by
  refine ⟨fun ht hk hfits => writesC_of hs ?_, fun hfree => ⟨fun ht => traps_of hfree ?_, fun ht hk => traps_of hfree ?_⟩⟩
  · rw [he, narrowable_tagged kinds ht, if_pos hk, hrest hfits]
    rfl
  · rw [he, narrowable_untagged _ ht]
    rfl
  · rw [he, narrowable_tagged kinds ht, if_neg hk]
    rfl

/-- Such an instruction traps when rest does and the capability may be narrowed. -/
theorem traps_of_narrowable {i : Instr} {s : State} {x : Cap} {kinds : List (BitVec 8)} {rest : Res State} {cause : BitVec 8}
    {eval : Word} (hfree : TrapsFree s.core s.frame s)
    (he : exec i s = s.finish (do narrowable x (kinds.map BitVec.toNat); rest)) (ht : x.tag = true) (hk : x.kind ∈ kinds)
    (hrest : rest = .error (.trap cause eval)) : Traps i s cause eval := by
  refine traps_of hfree ?_
  rw [he, narrowable_tagged kinds ht, if_pos hk, hrest]
  rfl

/-! ### Narrowing (R350) -/

/-- The kinds that CINC and CBND narrow. -/
def boundedKinds : List (BitVec 8) := [1, 4, 6]

/-- The kinds whose rights CPERM narrows. -/
def permittedKinds : List (BitVec 8) := [1, 2, 3, 4, 5, 6]

/-- CINC and CBND after RequireNarrowable: the length bounds the operand, and otherwise y is written. -/
def State.bounded (s : State) (b : BitVec 5) (a d : BitVec 4) (y : Cap) : Res State :=
  if (s.cur.cap a).len.toNat < (s.cur.gpr b).toNat then .error (.trap CAPBOUND (s.cur.gpr b)) else .ok (s.writeC d y 4)

theorem State.bounded_ok {s : State} {b : BitVec 5} {a : BitVec 4} (d : BitVec 4) (y : Cap)
    (h : (s.cur.gpr b).toNat ≤ (s.cur.cap a).len.toNat) : s.bounded b a d y = .ok (s.writeC d y 4) :=
  if_neg (Nat.not_lt.2 h)

theorem State.bounded_trap {s : State} {b : BitVec 5} {a : BitVec 4} (d : BitVec 4) (y : Cap)
    (h : (s.cur.cap a).len.toNat < (s.cur.gpr b).toNat) : s.bounded b a d y = .error (.trap CAPBOUND (s.cur.gpr b)) :=
  if_pos h

/-- A capability whose window begins n bytes later and ends where it did. -/
def incrementedCap (c : Cap) (n : Word) : Cap := { c with base := c.base + n.setWidth 36, len := c.len - n.setWidth 36 }

/-- Within the length no bit of the increment is lost, so that the length is the exact difference. -/
theorem incrementedCap_eq {c : Cap} {n : Word} (h : n.toNat ≤ c.len.toNat) : incrementedCap c n =
    { c with base := BitVec.ofNat 36 (c.base.toNat + n.toNat), len := BitVec.ofNat 36 (c.len.toNat - n.toNat) } := by
  have hbase : c.base + n.setWidth 36 = BitVec.ofNat 36 (c.base.toNat + n.toNat) := by
    rw [BitVec.ofNat_add, BitVec.ofNat_toNat, BitVec.ofNat_toNat, BitVec.setWidth_eq]
  have hlen : c.len - n.setWidth 36 = BitVec.ofNat 36 (c.len.toNat - n.toNat) := by bv_omega
  rw [incrementedCap, hbase, hlen]

theorem exec_cinc_bounded (b : BitVec 5) (a d : BitVec 4) (s : State) : exec (.cinc b a d) s =
    s.finish (do
      narrowable (s.cur.cap a) (boundedKinds.map BitVec.toNat)
      s.bounded b a d (incrementedCap (s.cur.cap a) (s.cur.gpr b))) := rfl

theorem exec_cbnd_bounded (b : BitVec 5) (a d : BitVec 4) (s : State) : exec (.cbnd b a d) s =
    s.finish (do
      narrowable (s.cur.cap a) (boundedKinds.map BitVec.toNat)
      s.bounded b a d { s.cur.cap a with len := (s.cur.gpr b).setWidth 36 }) := rfl

/-- A mask of CPERM has a bit above [7:0] when its value exceeds a byte. -/
theorem shiftRight_eight_eq_zero_iff (n : Word) : n >>> 8 = 0 ↔ n.toNat < 256 := by
  rw [← BitVec.toNat_inj, BitVec.toNat_ushiftRight, Nat.shiftRight_eq_div_pow]
  exact Nat.div_eq_zero_iff_lt (by decide)

theorem exec_cperm_byte {b : BitVec 5} (a d : BitVec 4) {s : State} (h : (s.cur.gpr b).toNat < 256) : exec (.cperm b a d) s =
    s.finish (do
      narrowable (s.cur.cap a) (permittedKinds.map BitVec.toNat)
      .ok (s.writeC d { s.cur.cap a with rights := (s.cur.cap a).rights &&& (s.cur.gpr b).setWidth 8 } 4)) := by
  rw [exec_cperm, execCperm]
  rw [if_neg (not_not.2 ((shiftRight_eight_eq_zero_iff _).2 h))]
  rfl

theorem exec_cperm_wide {b : BitVec 5} (a d : BitVec 4) {s : State} (h : 256 ≤ (s.cur.gpr b).toNat) :
    exec (.cperm b a d) s = s.finish (.error (.trap ILLEGAL (s.cur.gpr b))) := by
  rw [exec_cperm, execCperm]
  rw [if_pos (mt (shiftRight_eight_eq_zero_iff _).1 (Nat.not_lt.2 h))]

/-! ### The fields of a capability (R351) -/

theorem capField_eq (c : Cap) : ∀ p ∈ [((0 : BitVec 5), c.oid.toNat), (1, c.base.toNat), (2, c.len.toNat), (3, c.rights.toNat),
    (4, c.kind.toNat), (5, if c.tag then 1 else 0)], capField c p.1 = BitVec.ofNat 64 p.2 := by
  have htag : (boolWord c.tag : Word) = BitVec.ofNat 64 (if c.tag then 1 else 0) := by cases c.tag <;> rfl
  simp [capField, zext64, htag]

/-- Settles O5: the six operations write one register, CINC, CBND and CPERM behind RequireNarrowable and their own check. -/
theorem capabilitiesNarrow : Obligations.CapabilitiesNarrow := by
  intro s hs b d a a' m
  refine ⟨writesC_of hs rfl, ?cinc, ?cbnd, fun hbyte => ?cperm, fun hfree => ⟨fun hwide => ?illegal, fun ht hk hlt => ?bound⟩,
    fun p hp => ?cget, ?ceq⟩
  case cinc =>
    refine narrows_of hs (exec_cinc_bounded b a m s) fun hle => ?_
    rw [State.bounded_ok m _ hle, incrementedCap_eq hle]
  case cbnd =>
    refine narrows_of hs (exec_cbnd_bounded b a m s) fun hle => ?_
    rw [State.bounded_ok m _ hle, BitVec.ofNat_toNat]
  case cperm =>
    refine narrows_of hs (exec_cperm_byte a m hbyte) fun _ => ?_
    rw [BitVec.ofNat_toNat]
  case illegal => exact traps_of hfree (exec_cperm_wide a m hwide)
  case bound =>
    exact ⟨traps_of_narrowable hfree (exec_cinc_bounded b a m s) ht hk (State.bounded_trap m _ hlt),
      traps_of_narrowable hfree (exec_cbnd_bounded b a m s) ht hk (State.bounded_trap m _ hlt)⟩
  case cget => exact capField_eq (s.cur.cap a) p hp ▸ writesG_of hs rfl
  case ceq =>
    have hword : (boolWord (decide (s.cur.cap a = s.cur.cap a')) : Word) = if s.cur.cap a = s.cur.cap a' then 1 else 0 := by
      simp [boolWord]
    exact hword ▸ writesG_of hs rfl

end Sys2Proof.Machine
